-- ==== Sys2Proof/Word.lean ====
section
/-! DEFINITION. The word types of the HV98K and the shape of sparse storage. -/

namespace Sys2Proof

/-- A 32-bit register word (R4). -/
abbrev Word := BitVec 32

/-- A byte (R6). -/
abbrev Byte := BitVec 8

/-- The 12-bit word of a course, the native word of the device (R12). -/
abbrev CWord := BitVec 12

/-- Sparse storage: the listed entries of an addressed store, by rising address. What an unlisted address
reads as is said where the store is read. -/
abbrev Sparse (α : Type) := List (Nat × α)

end Sys2Proof
end

