-- ==== Sys2Proof/CoreOp.lean ====
section
/-! DEFINITION. What one instruction of an on-chip core does, as the published instruction sets give it (R267, R271, R274). -/

namespace Sys2Proof

/-- An instruction that retires or traps. The values that the published instruction set computes from the core's registers
are given: the result of an arithmetic instruction, the target of a jump, an address, the data stored, the new value of an
AMO. What the manual says of the access, the CSR or the trap is the model's (Machine/Cores.lean). -/
inductive CoreOp where
  | compute (rd : Fin 32) (val : BitVec 64)
  | jump (rd : Fin 32) (val : BitVec 64) (target : BitVec 64)
  | load (rd : Fin 32) (addr : BitVec 64) (size : Fin 4) (signed : Bool)
  | store (addr : BitVec 64) (size : Fin 4) (data : BitVec 64)
  | amo (rd : Fin 32) (addr : BitVec 64) (size : Fin 4) (new : BitVec 64)
  | lr (rd : Fin 32) (addr : BitVec 64) (size : Fin 4)
  | sc (rd : Fin 32) (addr : BitVec 64) (size : Fin 4) (data : BitVec 64)
  | csr (rd : Fin 32) (num : BitVec 12) (set : Option (BitVec 64))
  | mret
  | trap (cause : BitVec 12) (tval : BitVec 64)
  | interrupt
deriving DecidableEq, Repr

end Sys2Proof
end

