-- ==== Sys2Proof/Syntax.lean ====
section
/-! DEFINITION. The commands: one constructor for each row of the opcode table, in its order, with the operands that say where it acts
and what it carries. Sections n, clusters cl, courses crs, lanes l, queues q and functions f are numbered as the manual numbers them; a bundle is
32·section + its first section lane. -/

namespace Sys2Proof

/-- A command: an access from outside, or an event of the device. -/
inductive Instr where
  /-- REG_PAIR_LOW_READ. A read of 1, 2 or 4 bytes of a register, of the low half of a pair or of any other (R4 to R9, R541). The bytes read are
  the answer. -/
  | regPairLowRead (lay : Fin 9) (off : BitVec 26) (size : Fin 3)
  /-- REG_PAIR_LOW_WRITE. A write of the low half of a writable pair by the function whose layout it is (R7). -/
  | regPairLowWrite (lay : Fin 9) (off : BitVec 26) (v : BitVec 32)
  /-- REG_PAIR_HIGH_WRITE. A write of the high half of a writable pair by the function whose layout it is (R7). -/
  | regPairHighWrite (lay : Fin 9) (off : BitVec 26) (v : BitVec 32)
  /-- REGISTER_WRITE. A write of 1, 2, 4 or 8 bytes by a source of DEV.ACCERR.SRC to a layout that it reaches (R4 to R11, R540 to R542). -/
  | registerWrite (src : Fin 12) (sect : Fin 8) (lay : Fin 9) (off : BitVec 26) (size : Fin 4) (v : BitVec 64) (ph : Fin 4)
  /-- EXECUTE_STEP. One executed step of the run group of section n (R34). `ph` counts step clocks since the last tick of TIME. -/
  | executeStep (n : Fin 8) (ph : Fin 4)
  /-- NOP. NOP on BP bp of a course in the coming step (R47). -/
  | nop (n : Fin 8) (cl : Fin 16) (crs : Fin 64) (bp : Fin 12)
  /-- LUT4. LUT4 on BP bp of a course in the coming step (R48). -/
  | lut4 (n : Fin 8) (cl : Fin 16) (crs : Fin 64) (bp : Fin 12)
  /-- LUT4E. LUT4E on BP bp of a course in the coming step (R49). -/
  | lut4e (n : Fin 8) (cl : Fin 16) (crs : Fin 64) (bp : Fin 12)
  /-- MUXG. MUXG on BP bp of a course in the coming step (R51). -/
  | muxg (n : Fin 8) (cl : Fin 16) (crs : Fin 64) (bp : Fin 12)
  /-- MUXR. MUXR on BP bp of a course in the coming step (R52). -/
  | muxr (n : Fin 8) (cl : Fin 16) (crs : Fin 64) (bp : Fin 12)
  /-- MRD. MRD on BP0 of a course in the coming step (R63). -/
  | mrd (n : Fin 8) (cl : Fin 16) (crs : Fin 64)
  /-- MWR. MWR on BP0 of a course in the coming step (R63). -/
  | mwr (n : Fin 8) (cl : Fin 16) (crs : Fin 64)
  /-- QRD. QRD on BP0 of a course in the coming step (R62). `errs` are the bank errors that its words meet (R229): place and 1 corrected, 2 not. -/
  | qrd (n : Fin 8) (cl : Fin 16) (crs : Fin 64) (errs : List (Fin 1024 × Fin 3))
  /-- QWR. QWR on BP0 of a course in the coming step (R62). -/
  | qwr (n : Fin 8) (cl : Fin 16) (crs : Fin 64)
  /-- CALL. CALL on BP0 of a course in the coming step (R64). -/
  | call (n : Fin 8) (cl : Fin 16) (crs : Fin 64)
  /-- DIGEST. DIGEST on BP0 of a course in the coming step (R65). -/
  | digest (n : Fin 8) (cl : Fin 16) (crs : Fin 64)
  /-- QRD_RETURN. The return of a QRD that is due on RET of a course (R59). -/
  | qrdReturn (n : Fin 8) (cl : Fin 16) (crs : Fin 64)
  /-- HOME_PATH_ACCESS. The home path of a cluster performs its access (R199). `ecc`: 1 corrected, 2 uncorrectable error. -/
  | homePathAccess (n : Fin 8) (cl : Fin 16) (ecc : Fin 3)
  /-- HOME_MRD_RETURN. The return of an MRD with HOME = 1 that is due on RET of a course (R59). -/
  | homeMrdReturn (n : Fin 8) (cl : Fin 16) (crs : Fin 64)
  /-- NONHOME_BANK_ACCESS. The oldest non-home access of a cluster is performed at its bank after `lost` lost arbitrations (R200, R198). -/
  | nonhomeBankAccess (n : Fin 8) (cl : Fin 16) (lost : Fin 128) (ecc : Fin 3)
  /-- NONHOME_RETURN. The return of an MRD with HOME = 0 reaches its course (R84). -/
  | nonhomeReturn (n : Fin 8) (cl : Fin 16) (crs : Fin 64)
  /-- CLUSTER_SLOT_READ. Entry p of course crs in the slot row of the coming step reads its source (R99). -/
  | clusterSlotRead (n : Fin 8) (cl : Fin 16) (crs : Fin 64) (p : Fin 2) (ecc : Fin 3)
  /-- CLUSTER_SLOT_WRITE. The transfer due through CLp of a course is written (R99). -/
  | clusterSlotWrite (n : Fin 8) (cl : Fin 16) (crs : Fin 64) (p : Fin 2)
  /-- EXPORT_SLOT_READ. Export entry e of the slot row of the coming step reads its source (R109). -/
  | exportSlotRead (n : Fin 8) (cl : Fin 16) (e : Fin 16) (ecc : Fin 3)
  /-- EXPORT_SLOT_WRITE. The transfer due through GBp of a course is written (R116). -/
  | exportSlotWrite (n : Fin 8) (cl : Fin 16) (crs : Fin 64) (p : Fin 2)
  /-- INPUT_PIN_SAMPLE. The input records of the coming step are sampled (R523); the board drives the cells of `mask` to `level`. -/
  | inputPinSample (n : Fin 8) (mask : BitVec 12) (level : BitVec 12)
  /-- OUTPUT_UPDATE. The output record of cell bp of section n in the coming step loads the output register (R524). -/
  | outputUpdate (n : Fin 8) (bp : Fin 12)
  /-- OUTPUT_BALL_CHANGE. The ball of DIO cell c takes the level of its output register (R524). -/
  | outputBallChange (c : Fin 96)
  /-- HOLD_SAMPLE. The sampling point of a fret of the run group of section n (R142); the board drives the cells of `mask` to `level`. -/
  | holdSample (n : Fin 8) (mask : BitVec 12) (level : BitVec 12)
  /-- HOLD_RESAMPLE. H8 of a hold (R145). -/
  | holdResample (n : Fin 8)
  /-- HOLD_STALL. HLIMIT consecutive held frets (R152). -/
  | holdStall (n : Fin 8)
  /-- PERIOD_END. The end of an executed period (R85). -/
  | periodEnd (n : Fin 8)
  /-- EPILOGUE_DRAIN_END. The end of the 16-step drain (R103). -/
  | epilogueDrainEnd (n : Fin 8)
  /-- START. SCTL.CMD START with MODE 0 now, 1 at TIME, 2 on a trigger (R137). -/
  | start (n : Fin 8) (mode : Fin 4)
  /-- PAUSE. SCTL.CMD PAUSE (R137). -/
  | pause (n : Fin 8)
  /-- RESUME. SCTL.CMD RESUME (R137). -/
  | resume (n : Fin 8)
  /-- STEP. SCTL.CMD STEP (R137). -/
  | stepRun (n : Fin 8) (mode : Fin 4)
  /-- STOP. SCTL.CMD STOP (R137). -/
  | stop (n : Fin 8)
  /-- RESTART. SCTL.CMD RESTART (R137). -/
  | restart (n : Fin 8)
  /-- BADCMD. SCTL.CMD with an OP that is not defined (R548). -/
  | badCmd (n : Fin 8) (op : Fin 16)
  /-- ARMED_START_FIRE. The TIME target or trigger of an armed command is reached (R140). -/
  | armedStartFire (n : Fin 8)
  /-- PAUSE_EFFECT. A pending PAUSE at the end of a period (R137). -/
  | pauseEffect (n : Fin 8)
  /-- STOP_EFFECT. A pending STOP at the end of a period (R137). -/
  | stopEffect (n : Fin 8)
  /-- STEP_COMPLETE. STEP k has run its periods (R162). -/
  | stepComplete (n : Fin 8)
  /-- RESTART_COMPLETE. RESTART completes (R137). -/
  | restartComplete (n : Fin 8)
  /-- FAULT_HALT. The end of the fret or hold in which a fault was raised (R156). -/
  | faultHalt (n : Fin 8)
  /-- GROUP_MEMBER_LEAVE. The run group that section n has left halts at the end of its fret or hold (R122). -/
  | groupMemberLeave (n : Fin 8)
  /-- HCTL_CLR. HCTL.CLR (R152). -/
  | hctlClr (n : Fin 8)
  /-- FAULT_RECORD_CLEAR. A write of 1 to FSTAT.VALID (R159). -/
  | faultRecordClear (n : Fin 8)
  /-- PACE_EVENT. A pace event reaches section n (R153). -/
  | paceEvent (n : Fin 8)
  /-- PACECTL_WRITE. A write of PACECTL (R155). -/
  | pacectlWrite (n : Fin 8) (v : BitVec 32)
  /-- LOAD_IMAGE. HHP LOAD_IMAGE of function f (R176). `err`: its buffer cannot be read. -/
  | loadImage (f : Fin 9) (err : Bool)
  /-- LOAD_PASS1_COMPLETE. Pass 1 of the load in progress completes (R176). -/
  | loadPass1Complete
  /-- LOAD_PASS2_COMPLETE. Pass 2 of the load in progress completes (R176). -/
  | loadPass2Complete
  /-- COMMIT. HHP COMMIT of function f (R178). -/
  | commit (f : Fin 9) (ph : Fin 4)
  /-- AUTOSTART_LOAD. The autostart image (R493). -/
  | autostartLoad
  /-- CLKCTL_WRITE. A write of CLKCTL of a cluster (R129). -/
  | clkctlWrite (n : Fin 8) (cl : Fin 16) (v : BitVec 32)
  /-- CLOCK_CHANGE_DONE. A clock change of a cluster completes (R128). -/
  | clockChangeDone (n : Fin 8) (cl : Fin 16)
  /-- CRST. RSTCTL.CRST of a cluster (R132). -/
  | crst (n : Fin 8) (cl : Fin 16)
  /-- CLUSTER_RESET_DONE. A cluster reset completes (R132). -/
  | clusterResetDone (n : Fin 8) (cl : Fin 16)
  /-- DSTORE_WRITE. A write of a DSTORE word (R97). -/
  | dstoreWrite (n : Fin 8) (cl : Fin 16) (crs : Fin 64) (w : Fin 1024) (v : BitVec 32)
  /-- DSTORE_READ. A read of a DSTORE word; while RUNNING it waits for a step in which the tap port of the cluster takes no tap (R278). -/
  | dstoreRead (n : Fin 8) (cl : Fin 16) (crs : Fin 64) (w : Fin 1024)
  /-- CODE_WORD_STAGE. A write of word +0x0 or +0x4 of a CODE slot (R70). -/
  | codeWordStage (n : Fin 8) (pos : Fin 2) (slot : Fin 393216) (v : BitVec 32)
  /-- CODE_INSTRUCTION_STORE. A write of word +0x8 of a CODE slot (R70). -/
  | codeInstructionStore (n : Fin 8) (slot : Fin 393216) (v : BitVec 32)
  /-- SERVICE_ACCESS. A service master reads `len` bytes, or writes `bs` where it is not empty (R206). `errs` are the errors of its
  halfwords: place and 1 corrected, 2 not (R194); `lat` is the latency in cycles (R447). -/
  | serviceAccess (n : Fin 8) (m : Fin 31) (a : BitVec 38) (len : Fin 65) (bs : List (BitVec 8)) (errs : List (Fin 2048 × Fin 3)) (lat : BitVec 16)
  /-- REQUEST_URGENT. The waiting request of master m has lost 64 consecutive arbitrations at its bank, bank b for a service master (R198). -/
  | requestUrgent (n : Fin 8) (m : Fin 31) (b : Fin 16)
  /-- BANKPWR_WRITE. A write of BANKPWR (R209). -/
  | bankpwrWrite (n : Fin 8) (v : BitVec 32)
  /-- BANK_POWER_DONE. A bank transition completes (R209). -/
  | bankPowerDone (n : Fin 8) (b : Fin 16)
  /-- FABRIC_HBM_REQUEST. The memory engine takes a request packet of queue q (R219). `ue`: lines it reads that cannot be corrected; `errs`:
  bank errors of the queue. -/
  | fabricHbmRequest (n : Fin 8) (q : Fin 8) (ue : BitVec 32) (errs : List (Fin 1024 × Fin 3))
  /-- HBM_REQUEST_COMPLETE. A response of request queue q enters queue q + 8 (R217). -/
  | hbmRequestComplete (n : Fin 8) (q : Fin 8)
  /-- HBM_REFRESH_RATE_CHANGE. The temperature of a stack passes 85 °C (R212). -/
  | hbmRefreshRateChange (k : Fin 2) (hot : Bool)
  /-- QUEUE_WORD_WRITE. A service producer writes words into queue q, the last one marked where `eop` says so (R234), with its tally and its
  marks (R240, R241). -/
  | queueWordWrite (n : Fin 8) (q : Fin 64) (ws : List (BitVec 12)) (eop : Bool) (tally : Option (BitVec 32)) (poison : Bool) (integ : Bool)
  /-- QUEUE_DEQUEUE. The service consumer of queue q takes up to k words (R222, R228). -/
  | queueDequeue (n : Fin 8) (q : Fin 64) (k : Fin 1025) (errs : List (Fin 1024 × Fin 3))
  /-- FERRY_RST. FERRY.CTL.RST (R238). -/
  | ferryRst (n : Fin 8) (q : Fin 64)
  /-- QUEUE_TEST. FERRY.CTL.TEST (R231). -/
  | queueTest (n : Fin 8) (q : Fin 64)
  /-- SCRUB_TEST_DONE. The scrub and test of an episode end (R232); `failed` names a bank that failed. -/
  | scrubTestDone (n : Fin 8) (q : Fin 64) (failed : Option (Fin 2))
  /-- MAILBOX_WRITE. A word for queue 63, with or without the end mark (R243). -/
  | mailboxWrite (n : Fin 8) (w : BitVec 12) (eop : Bool)
  /-- CALL_PREFETCH. The scheduler fills the prefetch slot of core x (R256). -/
  | callPrefetch (n : Fin 8) (x : Fin 8)
  /-- CALL_DISPATCH. The prefetched entry of core x becomes its call (R257). -/
  | callDispatch (n : Fin 8) (x : Fin 8)
  /-- CALL_AGE_CHECK. The age check (R259). -/
  | callAgeCheck (n : Fin 8)
  /-- HVCDONE. Core x writes hvcdone (R262). -/
  | hvcdone (n : Fin 8) (x : Fin 8)
  /-- WATCHDOG_EXPIRY. The watchdog of core x (R262). -/
  | watchdogExpiry (n : Fin 8) (x : Fin 8)
  /-- RETURN_ENQUEUE. The next completed blocking return enters queue 62 (R261). -/
  | returnEnqueue (n : Fin 8)
  /-- CORECTL_WRITE. A write of CORECTL (R263). -/
  | corectlWrite (n : Fin 8) (v : BitVec 32)
  /-- CRPOOL_WRITE. A write of CRPOOL of a cluster (R251). -/
  | crpoolWrite (n : Fin 8) (cl : Fin 16) (v : BitVec 32)
  /-- WRITEBACK_ERROR. The section controller writes back a dirty line, which memory may refuse (R273). -/
  | writebackError (n : Fin 8) (line : BitVec 32)
  /-- CORE_INSTRUCTION_RETIRE. Core x of section n (8 its controller), or the device controller (n = 8), retires an instruction (R267 to R275,
  R462). -/
  | coreInstructionRetire (n : Fin 9) (x : Fin 9) (cyc : BitVec 16) (ph : Fin 4) (short : Bool) (op : CoreOp) (evict : List (BitVec 32)) (ecc : Fin 3)
  /-- CAPT_ARM. CAPT.CTL.ARM (R283). -/
  | captArm (n : Fin 8) (ph : Fin 4)
  /-- CAPT_DISARM. CAPT.CTL.DISARM (R308). -/
  | captDisarm (n : Fin 8) (ph : Fin 4)
  /-- CAPT_FORCE. CAPT.CTL.FORCE (R295). -/
  | captForce (n : Fin 8)
  /-- ROW_EVALUATE. The oldest complete row is evaluated (R279). `written`: items of the write path that reach memory first. -/
  | rowEvaluate (n : Fin 8) (ph : Fin 4) (written : BitVec 16)
  /-- SEQUENCER_REARM. The hold-off ends (R286). -/
  | sequencerRearm (n : Fin 8) (ph : Fin 4)
  /-- HEADER_WRITE_DONE. A record header is written (R288). -/
  | headerWriteDone (n : Fin 8)
  /-- CAPT_STORE_ERROR. A storage write is refused (R290). -/
  | captStoreError (n : Fin 8) (ph : Fin 4)
  /-- ACTCTL_WRITE. A write of ACTCTL (R302). -/
  | actctlWrite (n : Fin 8) (v : BitVec 32)
  /-- TRG_EDGE. An edge at TRG ball x, or the end of a capture pulse on bus line x − 16 (R305). -/
  | trgEdge (x : Fin 24) (up : Bool)
  /-- TIME_TICK. A tick of 4 ns (R316). -/
  | timeTick
  /-- TIME_LOAD. SETCMD.LOAD (R314). -/
  | timeLoad
  /-- TIME_ADD. SETCMD.ADD (R314). -/
  | timeAdd
  /-- NOWF_READ. A read of NOWF (R313). -/
  | nowfRead
  /-- OFFSET_SUBMIT. A write of the high half of D[dm].OFFSET (R316). -/
  | offsetSubmit (dm : Fin 2) (hi : BitVec 32)
  /-- DOMSEL_WRITE. A write of TIME.CTL (R317). -/
  | domselWrite (v : BitVec 32)
  /-- HOLDOVER_TIMEOUT. No measurement of domain dm within TIMEOUT (R318). -/
  | holdoverTimeout (dm : Fin 2)
  /-- ALARM_ARM. A write of ALCTL[a] (R323). -/
  | alarmArm (a : Fin 4) (v : BitVec 32)
  /-- COMPARE_FIRE. Alarm a fires (R321). -/
  | compareFire (a : Fin 4)
  /-- PULSE_GEN_ENABLE. A write of PG[g].CTL with EN set (R332). -/
  | pulseGenEnable (g : Fin 8) (v : BitVec 31)
  /-- PULSE_EDGE. A grid instant of generator g (R331). -/
  | pulseEdge (g : Fin 8) (ph : Fin 4)
  /-- TSINFO_READ. A read of ETHp.TSINFO (R326). -/
  | tsinfoRead (p : Fin 2)
  /-- PTP_FRAME_RECEIVE. Port p receives a frame: an event message of a type, domain and sequence number or not; `meas` is the measurement that
  firmware makes of it (R328). -/
  | ptpFrameReceive (p : Fin 2) (event : Option (Fin 4 × BitVec 8 × BitVec 16)) (sub : Fin 32) (meas : Option (BitVec 64))
  /-- DREQ_SEND. The client lane of domain dm sends DREQ (R329). -/
  | dreqSend (dm : Fin 2)
  /-- DRESP_RECEIVE. Lane l receives a DRESP, `back` eighths of a nanosecond ago (R329). -/
  | drespReceive (l : Fin 256) (back : BitVec 8)
  /-- DREQ_TIMEOUT. 100 µs after t1 of domain dm (R329). -/
  | dreqTimeout (dm : Fin 2)
  /-- DREQ_RECEIVE. Lane l receives a DREQ, `back` eighths of a nanosecond ago (R330). -/
  | dreqReceive (l : Fin 256) (back : BitVec 8)
  /-- LANE_TRAIN. LANE.CTL.TRAIN (R361). -/
  | laneTrain (l : Fin 256)
  /-- LANE_DISABLE. LANE.CTL.DISABLE (R364). -/
  | laneDisable (l : Fin 256)
  /-- CDR_LOCK. The CDR of a lane locks (R361). -/
  | cdrLock (l : Fin 256)
  /-- COMMA_LOCK. The 40 bits at the next expected comma position of a searching lane: three matches lock (R346). -/
  | commaLock (l : Fin 256) (w : BitVec 40)
  /-- COMMA_LOSS. The 40 bits at the expected comma position under lock: four consecutive misses lose it (R346). -/
  | commaLoss (l : Fin 256) (w : BitVec 40)
  /-- FEC_LOCK. Eight consecutive correctable codewords (R346). -/
  | fecLock (l : Fin 256)
  /-- FEC_LOSS. 32 consecutive uncorrectable codewords (R346). -/
  | fecLoss (l : Fin 256)
  /-- TLV_EXCHANGE_DONE. TLVs are exchanged on every lane of the bundle (R363); `rtt` is the round trip measured. -/
  | tlvExchangeDone (l : Fin 256) (rtt : BitVec 32)
  /-- FRAME_END_CHECK. The end of frame f of a period with its flit area and HOPCRC, symbols corrected, and uncorrectable codewords (R347). -/
  | frameEndCheck (l : Fin 256) (f : Fin 64) (area : BitVec 20544) (hop : BitVec 16) (fixed : BitVec 16) (bad : BitVec 4)
  /-- NAK_RESEND_TIMEOUT. 4 µs after a NAK (R359). -/
  | nakResendTimeout (l : Fin 256)
  /-- NAK_RECEIVE. The flit at the front of the lane is a NAK (R360). -/
  | nakReceive (l : Fin 256)
  /-- LINK_FLIT_RECEIVE. The flit at the front of the lane is a LINK flit (R356). -/
  | linkFlitReceive (l : Fin 256)
  /-- IDLE_FLIT_RECEIVE. The flit at the front of the lane is an IDLE flit (R349). -/
  | idleFlitReceive (l : Fin 256)
  /-- TLV_FLIT_RECEIVE. The flit at the front of the lane is a TLV flit (R350). -/
  | tlvFlitReceive (l : Fin 256)
  /-- PACKET_FLIT_RECEIVE. The next sequenced flit of the bundle of lane l (R352). -/
  | packetFlitReceive (l : Fin 256)
  /-- FLIT_TRANSMIT. One flit slot of lane l (R353), `sub` eighths of a nanosecond after the last tick. -/
  | flitTransmit (l : Fin 256) (sub : Fin 32)
  /-- TRAIN_TIMEOUT. 100 ms after TRAIN (R361). -/
  | trainTimeout (l : Fin 256)
  /-- TRAIN_RETRY. 10 ms after a failure, with AUTO = 1 (R361). -/
  | trainRetry (l : Fin 256)
  /-- LANE_EQ_WRITE. A write of EQTX (0), EQRX (1) or QCTL (2) (R342). -/
  | laneEqWrite (l : Fin 256) (which : Fin 3) (v : BitVec 32)
  /-- LANE_TEST. A write of CTL.TEST (R366). -/
  | laneTest (l : Fin 256) (on : Bool)
  /-- LANE_LOOP. A write of CTL.LOOP (R368). -/
  | laneLoop (l : Fin 256) (mode : Fin 4)
  /-- INJECT_GO. INJ.GO with the mode and burst that INJ holds (R367). -/
  | injectGo (l : Fin 256)
  /-- EYE_SCAN_START. ESCTL.START (R369). -/
  | eyeScanStart (l : Fin 256)
  /-- EYE_SCAN_DONE. An eye-scan point completes (R369). -/
  | eyeScanDone (l : Fin 256) (count : BitVec 64)
  /-- LANE_PLL_UNLOCK. The PLL of a quad unlocks (R509). -/
  | lanePllUnlock (q : Fin 64)
  /-- NEIGHBOUR_RECEIVE. A NEIGHBOUR packet stands at the front of bundle k (R400). -/
  | neighbourReceive (k : Fin 256)
  /-- CENSUS_RECEIVE. A CENSUS packet stands at the front of bundle k (R378). -/
  | censusReceive (k : Fin 256)
  /-- REGISTER_RECEIVE. A REGISTER packet stands at the front of bundle k (R400). -/
  | registerReceive (k : Fin 256)
  /-- COMMAND_RECEIVE. A COMMAND packet stands at the front of bundle k (R400). -/
  | commandReceive (k : Fin 256)
  /-- RESPONSE_RECEIVE. A RESPONSE packet stands at the front of bundle k (R400). -/
  | responseReceive (k : Fin 256)
  /-- NOTICE_RECEIVE. A NOTICE packet stands at the front of bundle k (R400). -/
  | noticeReceive (k : Fin 256)
  /-- SVC_FORWARD. A packet for another node stands at the front of SVC channel vc of bundle k (R376). -/
  | svcForward (k : Fin 256) (vc : Fin 4)
  /-- CENSUS_TIMER. 100 ms since the last CENSUS (R380). -/
  | censusTimer
  /-- SYSTEM_DEADLINE. 2.0 s after power-good (R380). -/
  | systemDeadline
  /-- NODE_LOST_TIMEOUT. 100 ms without a path to a worker (R380). -/
  | nodeLostTimeout (node : Fin 128)
  /-- PAIR_RECEIVE. A PAIR message (R382). -/
  | pairReceive
  /-- PAIR_REPEAT. 1 ms since the last PAIR sent (R382). -/
  | pairRepeat
  /-- PAIRING_TIMEOUT. The bound on pairing (R382). -/
  | pairingTimeout
  /-- HEARTBEAT_SEND. 10 µs since the last HEARTBEAT sent (R392). -/
  | heartbeatSend
  /-- HEARTBEAT_RECEIVE. A HEARTBEAT message (R392). -/
  | heartbeatReceive
  /-- HEARTBEAT_MISS. An interval without a HEARTBEAT (R395). -/
  | heartbeatMiss
  /-- DIGEST_RECEIVE. A DIGEST message (R391). -/
  | digestReceive
  /-- RUNCMD_RECEIVE. A RUNCMD message (R401). -/
  | runcmdReceive
  /-- RUNACK_RECEIVE. A RUNACK message (R401). -/
  | runackReceive
  /-- LOADCHK_RECEIVE. A LOADCHK message (R401). -/
  | loadchkReceive
  /-- SELF_FAULT_STEPDOWN. A self-detected fault with its cause of R400 (R394). -/
  | selfFaultStepdown (cause : BitVec 8)
  /-- STEPDOWN_RECEIVE. STEPDOWN stands at the front of bundle k (R395). -/
  | stepdownReceive (k : Fin 256)
  /-- TAKEOVER_RECEIVE. TAKEOVER stands at the front of bundle k (R395). -/
  | takeoverReceive (k : Fin 256)
  /-- ACCEPT_RECEIVE. ACCEPT stands at the front of bundle k (R396). -/
  | acceptReceive (k : Fin 256)
  /-- REJECT_RECEIVE. REJECT stands at the front of bundle k (R397). -/
  | rejectReceive (k : Fin 256)
  /-- RESUME_RECEIVE. RESUME stands at the front of bundle k (R396). -/
  | resumeReceive (k : Fin 256)
  /-- TAKEOVER_TIMEOUT. 100 µs after TAKEOVER (R397). -/
  | takeoverTimeout
  /-- MIRROR_PACKET_RECEIVE. A mirrored packet (R384). -/
  | mirrorPacketReceive
  /-- MIRROR_CALL_RETURN. A mirrored call return (R265). -/
  | mirrorCallReturn
  /-- MIRROR_MAILBOX. A mirrored mailbox packet (R384). -/
  | mirrorMailbox
  /-- MIRROR_PIN_SAMPLE. A mirrored pin sample (R384). -/
  | mirrorPinSample
  /-- DISPOSAL_REPORT. A disposal report of the primary (R386). -/
  | disposalReport
  /-- OPEN. HHP OPEN of function f (R422). -/
  | openCmd (f : Fin 9)
  /-- CLOSE. HHP CLOSE (R428). -/
  | closeCmd (f : Fin 9)
  /-- HHP_START. HHP START of function f (R424). -/
  | hhpStart (f : Fin 9)
  /-- HHP_PAUSE. HHP PAUSE of function f (R424). -/
  | hhpPause (f : Fin 9)
  /-- HHP_RESUME. HHP RESUME of function f (R424). -/
  | hhpResume (f : Fin 9)
  /-- HHP_STEP. HHP STEP of function f (R424). -/
  | hhpStep (f : Fin 9)
  /-- HHP_STOP. HHP STOP of function f (R424). -/
  | hhpStop (f : Fin 9)
  /-- HHP_RESTART. HHP RESTART of function f (R424). -/
  | hhpRestart (f : Fin 9)
  /-- QUEUE_RESET. HHP QUEUE_RESET (R239). -/
  | queueReset (f : Fin 9)
  /-- CAPTURE_ARM. HHP CAPTURE_ARM (R306). -/
  | captureArm (f : Fin 9) (ph : Fin 4)
  /-- CAPTURE_DISARM. HHP CAPTURE_DISARM (R306). -/
  | captureDisarm (f : Fin 9) (ph : Fin 4)
  /-- READ_FAULTS. HHP READ_FAULTS (R424). -/
  | readFaults (f : Fin 9)
  /-- TIME_SET. HHP TIME_SET (R424). -/
  | timeSet (f : Fin 9)
  /-- ATTEST. HHP ATTEST (R495). `err`: its buffer cannot be written. -/
  | attest (f : Fin 9) (err : Bool)
  /-- SYSTEM_STATUS. HHP SYSTEM_STATUS (R426). `err`: its buffer cannot be written. -/
  | systemStatus (f : Fin 9) (err : Bool)
  /-- HQ_ENABLE. HQ CTL.EN (R413). -/
  | hqEnable (f : Fin 9)
  /-- CMDTAIL_WRITE. A write of CMDTAIL (R414). -/
  | cmdtailWrite (f : Fin 9) (v : BitVec 32)
  /-- COMMAND_FETCH. A command entry is fetched (R414). `err`: the access fails. -/
  | commandFetch (f : Fin 9) (err : Bool)
  /-- CPLHEAD_WRITE. A write of CPLHEAD (R415). -/
  | cplheadWrite (f : Fin 9) (v : BitVec 32)
  /-- MSIX_COALESCE_TIMEOUT. COALT µs after the first unsignalled entry of a vector (R418). -/
  | msixCoalesceTimeout (f : Fin 9) (vec : Fin 64)
  /-- BAR2_WRITE. A posted write to BAR2 of section n (R409). -/
  | bar2Write (n : Fin 8) (off : BitVec 28) (bs : List (BitVec 8)) (ep : Bool) (errs : List (Fin 2048 × Fin 3))
  /-- BAR2_READ. A read of BAR2 of section n (R409). -/
  | bar2Read (n : Fin 8) (off : BitVec 28) (len : Fin 4097) (errs : List (Fin 2048 × Fin 3)) (lat : BitVec 16)
  /-- FLR. A function level reset (R428). -/
  | flr (f : Fin 9)
  /-- HOT_RESET. A hot reset, or the link going down (R510). -/
  | hotReset
  /-- DMA_GO. CTL.GO of channel c of section n, or of the hub (n = 8, channels 0 and 1) (R439). -/
  | dmaGo (n : Fin 9) (c : Fin 4) (dspace : Bool) (vec : Fin 64)
  /-- DMA_HALT. CTL.HALT (R436). -/
  | dmaHalt (n : Fin 9) (c : Fin 4) (dspace : Bool) (vec : Fin 64)
  /-- DMA_WDRAW. CTL.WDRAW (R437). -/
  | dmaWdraw (n : Fin 9) (c : Fin 4) (dspace : Bool) (vec : Fin 64)
  /-- DMA_DOORBELL. A write of DOORBELL (R434). -/
  | dmaDoorbell (n : Fin 9) (c : Fin 4)
  /-- DESCRIPTOR_FETCHED. The descriptor at DESC is fetched (R431). -/
  | descriptorFetched (n : Fin 9) (c : Fin 4)
  /-- DMA_BURST_DONE. A burst completes (R432). -/
  | dmaBurstDone (n : Fin 9) (c : Fin 4) (errs : List (Fin 2048 × Fin 3)) (eps : List (Fin 64))
  /-- READBACK_DONE. The read-back returns (R433). -/
  | readbackDone (n : Fin 9) (c : Fin 4)
  /-- NEXT_WORD_READ. The NEXT word is read again (R434). -/
  | nextWordRead (n : Fin 9) (c : Fin 4)
  /-- DMA_TRANSFER_ERROR. Host memory fails after k lines of a burst (R438). -/
  | dmaTransferError (n : Fin 9) (c : Fin 4) (k : Fin 64) (errs : List (Fin 2048 × Fin 3))
  /-- RTCMD_SWAP. RTCMD.SWAP (R449). -/
  | rtcmdSwap (n : Fin 8)
  /-- SWAP_DRAINED. Every named port has drained (R449). -/
  | swapDrained (n : Fin 8)
  /-- SWAP_DRAIN_TIMEOUT. Port p has not drained in time (R450). -/
  | swapDrainTimeout (n : Fin 8) (p : Fin 45)
  /-- PACKET_URGENT. A request of initiator ini has lost 256 arbitrations at one port (R446). -/
  | packetUrgent (n : Fin 8) (ini : Fin 16)
  /-- STCTL_CLR. A write of STCTL with CLR set (R448). -/
  | stctlClr (n : Fin 8) (v : BitVec 32)
  /-- DELTA_SYNC. DELTA of a source reaches 16,383 (R463). -/
  | deltaSync (n : Fin 9) (x : Fin 10)
  /-- CORE_SLEEP. WFI gates the clock of a core (R464). -/
  | coreSleep (n : Fin 9) (x : Fin 9)
  /-- CORE_WAKE. A gated core runs again (R464). -/
  | coreWake (n : Fin 9) (x : Fin 9)
  /-- TCTL_WRITE. A write of TCTL of a source (R467). -/
  | tctlWrite (n : Fin 9) (x : Fin 10) (v : BitVec 32)
  /-- TRACE_BUFFER_ACCEPT. The buffer takes one record (R469). -/
  | traceBufferAccept (n : Fin 9)
  /-- BCTL_CLR. BCTL.CLR (R472). -/
  | bctlClr (n : Fin 9)
  /-- TRACE_CLEAR_DONE. The buffer clear completes (R472). -/
  | traceClearDone (n : Fin 9)
  /-- PORST_N. PORST_N (R510). -/
  | porstN
  /-- SYSRST_N. SYSRST_N (R510). -/
  | sysrstN
  /-- BOOT_STAGE_COMPLETE. The present boot stage completes (R488): for stage 0, outcome 1 says that the fuses fail their check; for stage 1, 0
  that SFDP cannot be read, 3 that it declares 8D-8D-8D. -/
  | bootStageComplete (outcome : Fin 4)
  /-- FLCMD_READ. FLCMD.GO with OP 1 (R492). -/
  | flcmdRead
  /-- FLCMD_PROGRAM. FLCMD.GO with OP 2 (R492). -/
  | flcmdProgram
  /-- FLCMD_ERASE. FLCMD.GO with OP 3 (R492). -/
  | flcmdErase
  /-- FLCMD_DONE. The flash operation completes, or fails (R492). -/
  | flcmdDone (fail : Bool)
  /-- OTP_PROGRAM_SLOT. OTPPROG.GO for a boot-key slot (R485). -/
  | otpProgramSlot (alg : Fin 2) (slot : Fin 4)
  /-- OTP_PROGRAM_LOCK. OTPPROG.GO with LOCK (R485). -/
  | otpProgramLock
  /-- OTP_PROGRAM_DONE. The fuse programming completes, or fails (R490). -/
  | otpProgramDone (fail : Bool)
  /-- BOOT_ADVANCE. The device controller writes BOOT.CMD.ADVANCE (R489). -/
  | bootAdvance
  /-- VDD_CORE_WARNING. A confirmed fall of VDD_CORE below 0.665 V, to `mv` (R501). -/
  | vddCoreWarning (mv : BitVec 10)
  /-- BROWNOUT_ALL_HOLDING. Every running section holds (R501). -/
  | brownoutAllHolding
  /-- THR_SWITCH_DONE. Every cluster shows its new divider (R131). -/
  | thrSwitchDone
  /-- VDD_CORE_RECOVERY_RISE. A confirmed rise above 0.675 V (R501). -/
  | vddCoreRecoveryRise
  /-- VDD_CORE_RECOVERY_FALL. A confirmed fall below 0.675 V, to `mv` (R501). -/
  | vddCoreRecoveryFall (mv : BitVec 10)
  /-- RECOVERY_TIMER_EXPIRE. 20 µs of recovery (R501). -/
  | recoveryTimerExpire
  /-- SUPPLY_RESET_LEVEL. VDD_CORE, or another monitored supply, reaches its reset level (R503). -/
  | supplyResetLevel (core : Bool)
  /-- TEMP_SENSOR_READ. The sensors are read: two's complement quarters of a degree (R504). -/
  | tempSensorRead (t : Vector (BitVec 10) 9)
  /-- THERMAL_DUTY_TIMER. A step of the 8 µs duty cycle (R504). -/
  | thermalDutyTimer
  /-- SECTION_POWER_ON. PWR.SECT[n].CTL with ON = 1 (R506). -/
  | sectionPowerOn (n : Fin 8) (srst : Bool)
  /-- SECTION_POWER_OFF. PWR.SECT[n].CTL with ON = 0 (R506). -/
  | sectionPowerOff (n : Fin 8) (srst : Bool)
  /-- POWER_TRANSITION_DONE. A power transition of section n completes (R506). -/
  | powerTransitionDone (n : Fin 8)
  /-- SECTION_SOFT_RESET. PWR.SECT[n].CTL.SRST (R508). -/
  | sectionSoftReset (n : Fin 8) (on : Bool)
  /-- SOFT_RESET_DONE. The soft reset of section n completes (R508). -/
  | softResetDone (n : Fin 8)
  /-- REFCLK_LOSS. REFCLK is lost (R509). -/
  | refclkLoss
  /-- CORE_PLL_UNLOCK. The core PLL unlocks (R509). -/
  | corePllUnlock
  /-- VCCIO_CHANGE. The supply of DIO bank b measures `mv` (R525). -/
  | vccioChange (b : Fin 4) (mv : BitVec 12)
  /-- BYPASS. JTAG BYPASS and a scan of `len` bits (R528). -/
  | bypass (len : Fin 4096) (tdi : Nat)
  /-- IDCODE. JTAG IDCODE and a scan of `len` bits (R528). -/
  | idcode (len : Fin 4096) (tdi : Nat)
  /-- SAMPLE_PRELOAD. JTAG SAMPLE/PRELOAD and a scan (R528). -/
  | samplePreload (len : Fin 4096) (tdi : Nat)
  /-- EXTEST. JTAG EXTEST and a scan (R528). -/
  | extest (len : Fin 4096) (tdi : Nat)
  /-- EXTEST_PULSE. JTAG EXTEST_PULSE and a scan (R528). -/
  | extestPulse (len : Fin 4096) (tdi : Nat)
  /-- EXTEST_TRAIN. JTAG EXTEST_TRAIN, a scan and `idle` TCK cycles in Run-Test/Idle (R528). -/
  | extestTrain (len : Fin 4096) (tdi : Nat) (idle : BitVec 8)
  /-- SMB_SET_ADDRESS. SMBus command 0x01 (R529). `pec`: its PEC is right or absent. -/
  | smbSetAddress (adr : BitVec 7) (pec : Bool) (v : BitVec 32)
  /-- SMB_READ_REGISTER. SMBus command 0x02 (R529). -/
  | smbReadRegister (adr : BitVec 7) (pec : Bool)
  /-- SMB_WRITE_REGISTER. SMBus command 0x03 (R529). -/
  | smbWriteRegister (adr : BitVec 7) (pec : Bool) (v : BitVec 32)
  /-- SMB_READ_STAGE. SMBus command 0x04 (R529). -/
  | smbReadStage (adr : BitVec 7) (pec : Bool)
  /-- RESET_RELEASE. Every monitored supply has been above its threshold for 1 ms, or REFCLK has been present for 100 µs (R500). -/
  | resetRelease (clock : Bool)
  /-- PRBS_CHECKER_LOCK. Bits arrive at the PRBS checker of a lane in TEST, the first one first (R366). -/
  | prbsCheckerLock (l : Fin 256) (bs : List Bool)
  /-- ETH_PCS_LINK_CHANGE. The PCS link of port p (R326). -/
  | ethPcsLinkChange (p : Fin 2) (up : Bool)
  /-- PTP_MESSAGE_TRANSMIT. Firmware transmits a message on port p, an event message or not (R327). -/
  | ptpMessageTransmit (p : Fin 2) (event : Option (Fin 4 × BitVec 8 × BitVec 16)) (sub : Fin 32)
deriving DecidableEq, Repr

end Sys2Proof
end

