-- ==== Sys2Proof/Machine/Bits.lean ====
section
/-! DEFINITION. Bit fields, sign extension and saturation: the helpers every block of the manual uses. -/

namespace Sys2Proof.Machine

/-- Bits [hi:lo] of a number. -/
def bits (v hi lo : Nat) : Nat := (v / 2 ^ lo) % 2 ^ (hi + 1 - lo)

/-- Bit n of a number. -/
def bit (v n : Nat) : Bool := v.testBit n

/-- `v` with bits [hi:lo] replaced by the low bits of `x`. -/
def setBits (v hi lo x : Nat) : Nat :=
  v - bits v hi lo * 2 ^ lo + (x % 2 ^ (hi + 1 - lo)) * 2 ^ lo

/-- The number with the one bit n. -/
def oneBit (n : Nat) : Nat := 2 ^ n

/-- A Boolean as a bit. -/
def b2n (b : Bool) : Nat := if b then 1 else 0

/-- The value of a two's complement number of `w` bits. -/
def sext (w v : Nat) : Int :=
  if v % 2 ^ w < 2 ^ (w - 1) then (v % 2 ^ w : Int) else (v % 2 ^ w : Int) - 2 ^ w

/-- The two's complement form of an integer in `w` bits. -/
def toBits (w : Nat) (x : Int) : Nat := (x % (2 ^ w : Int)).toNat

/-- `v + k`, saturating at the largest value of `w` bits. -/
def satAdd (w v k : Nat) : Nat := min (v + k) (2 ^ w - 1)

/-- The number of ones among the low `w` bits. -/
def popCount (w v : Nat) : Nat := ((List.range w).filter (fun i => v.testBit i)).length

/-- Even parity: true when the number of ones among the low `w` bits is odd. -/
def oddOnes (w v : Nat) : Bool := popCount w v % 2 == 1

/-- The positions of the ones among the low `w` bits, rising. -/
def onesOf (w v : Nat) : List Nat := (List.range w).filter (fun i => v.testBit i)

/-- The number whose ones stand at the listed positions. -/
def ofOnes (l : List Nat) : Nat := l.foldl (fun a i => a ||| 2 ^ i) 0

/-- The bytes of a number, least significant first (R6). -/
def toBytes : Nat → Nat → List Nat
  | 0, _ => []
  | n + 1, v => v % 256 :: toBytes n (v / 256)

/-- The number that bytes, least significant first, stand for (R6). -/
def ofBytes : List Nat → Nat
  | [] => 0
  | b :: r => b % 256 + 256 * ofBytes r

/-- The smaller of the numbers of a list, if there is one. -/
def minOf : List Nat → Option Nat
  | [] => none
  | a :: r => some (r.foldl min a)

/-- The first element of a list at which a key is least. -/
def minBy {α : Type} (key : α → Nat) : List α → Option α
  | [] => none
  | a :: r => some (r.foldl (fun m x => if key x < key m then x else m) a)

/-- `l` with its element i changed by `f`; the same list when it has no such element. -/
def modNth {α : Type} (f : α → α) : Nat → List α → List α
  | _, [] => []
  | 0, a :: r => f a :: r
  | n + 1, a :: r => a :: modNth f n r

/-- A list cut into chunks of `n`, using `fuel` chunks at most. -/
def chunks {α : Type} (n : Nat) : Nat → List α → List (List α)
  | 0, _ => []
  | _, [] => []
  | f + 1, l => l.take n :: chunks n f (l.drop n)

end Sys2Proof.Machine
end

