-- ==== Sys2Proof/Machine/StateCap.lean ====
section
/-! DEFINITION. The state of a section's capture engine that is not registers (R277 to R310). -/

namespace Sys2Proof.Machine

/-- TIME (R311): WRAP 16 bits, NS 48 bits, FRAC 32 bits. -/
structure TimeVal where
  wrap : Nat
  ns : Nat
  frac : Nat
deriving DecidableEq, Repr

/-- The start of step 0 of a period: its stamp (R281), and how many breaks in the run of rows came before it (R291). -/
structure PeriodStamp where
  period : Nat
  stamp : TimeVal
  breaks : Nat
deriving DecidableEq, Repr

/-- A row (R277 to R281): its cycle, the units tapped so far, and what its header flags need. -/
structure CapRow where
  cycle : Nat
  units : Sparse Nat
  stamp : TimeVal
  breaks : Nat
  paceMiss : Bool
deriving DecidableEq, Repr

/-- What a record keeps of each of its rows for its flags (R291). -/
structure RowMeta where
  cycle : Nat
  breaks : Nat
  paceMiss : Bool
  poisoned : Bool
deriving DecidableEq, Repr

/-- What waits in the write path. -/
inductive CapKind where
  | row | header | block
deriving DecidableEq, Repr

/-- A row, header or activity block in the write path (R288): its SMA, its bytes, the record or block it belongs to, the record's
slot and flags, and whether a block sends CAPT_ACTIVITY. -/
structure CapItem where
  kind : CapKind
  addr : Nat
  bytes : List Nat
  num : Nat
  slot : Nat
  flags : Nat
  note : Bool
deriving DecidableEq, Repr

/-- A triggered record (R285). -/
structure CapTrig where
  cycle : Nat
  stamp : TimeVal
  src : Nat
  forced : Bool
  precnt : Nat
  start : Nat
  ovl : Nat
  short : Bool
  metas : List RowMeta
  postcnt : Nat
deriving DecidableEq, Repr

/-- A serial-bus decoder (R296, R297): lines in the previous row, phase, row and bit counts, shift register, a value kept, and
the last 10-bit address. -/
structure DecSt where
  prev : Option Nat
  ph : Nat
  n : Nat
  k : Nat
  sh : Nat
  aux : Nat
  adr : Nat
deriving DecidableEq, Repr

/-- An activity interval in progress (R299): its first row, rows counted, and counts by bit (12·unit + bit). -/
structure ActSt where
  first : Nat
  stamp : TimeVal
  breaks : Nat
  lastBreaks : Nat
  rows : Nat
  high : List Nat
  tog : List Nat
  paceMiss : Bool
  poisoned : Bool
deriving DecidableEq, Repr

/-- The capture engine of a section. -/
structure CapSt where
  rows : List CapRow               -- rows not all of whose taps are taken
  ready : List CapRow              -- complete rows to be evaluated
  stamps : List PeriodStamp        -- of the last two periods
  breaks : Nat                     -- held frets, pauses and stops so far
  missNow : Bool                   -- the present period missed its pace event
  r0 : Option Nat                  -- first row of the pending slot
  noOvl : Bool                     -- the pending slot restarted after a drop
  metas : List RowMeta             -- rows stored in the pending slot, oldest first, PRE at most
  last : List RowMeta              -- rows of the previous record stored in its own slot
  trig : Option CapTrig            -- record in its post phase
  closeT : Nat                     -- nanosecond of the last close, or of ARM
  deadNs : Nat
  deadCyc : Nat
  holdRows : Nat                   -- qualifying rows since the close (R286)
  holdOff : Nat                    -- HOLDOFF applied before the present arming
  force : Bool
  prev : Option (Sparse Nat)       -- units of the row before, since ARM
  dec : Vector DecSt 4
  ext0 : Bool                      -- EXT latches (R292)
  ext1 : Bool
  queue : List CapItem             -- write path
  ovfNew : Nat                     -- drops since the last CAPT_OVERFLOW
  ovfT : Option Nat
  actSkip : Nat                    -- complete rows not yet evaluated that ACTCTL.EN found complete: they belong to no interval (R299)
  act : Option ActSt
  actPrev : Option (Sparse Nat)
deriving DecidableEq, Repr

end Sys2Proof.Machine
end

