-- ==== Sys2Proof/Machine/Decoders.lean ====
section
/-! DEFINITION. The serial-bus decoders of the capture engine (R296 to R298): each takes one sample of its lines per row. -/

namespace Sys2Proof.Machine

/-- What one row does to a decoder: its state, the field value of an event, and whether a protocol error occurred. -/
structure DecOut where
  st : DecSt
  event : Option Nat
  err : Bool
deriving DecidableEq, Repr

/-- Sample `k` of a UART frame of `nd` data bits, parity `par` and `ns` stop bits, at line value `x` with idle 1 (R297). -/
def uartSample (nd par ns : Nat) (s : DecSt) (x : Bool) : DecOut :=
  let pb := if par = 1 ∨ par = 2 then 1 else 0
  let k := s.k
  if k = 0 then
    if x then ⟨{ s with ph := 0 }, none, false⟩ else ⟨{ s with k := 1, sh := 0 }, none, false⟩
  else if k ≤ nd then ⟨{ s with k := k + 1, sh := s.sh + b2n x * 2 ^ (k - 1) }, none, false⟩
  else if k ≤ nd + pb then
    if oddOnes 10 (s.sh * 2 + b2n x) == (par == 2) then ⟨{ s with k := k + 1 }, none, false⟩
    else ⟨{ s with ph := 0 }, none, true⟩
  else if !x then ⟨{ s with ph := 0 }, none, true⟩
  else if k + 1 = 1 + nd + pb + ns then ⟨{ s with ph := 0 }, some s.sh, false⟩
  else ⟨{ s with k := k + 1 }, none, false⟩

/-- UART (R297). DEDUCED (log 35): with INV the data bits are inverted with the idle level. -/
def decUart (p : Nat) (s : DecSt) (line : Bool) : DecOut :=
  let div := max 1 (bits p 15 0)
  let nd := if 5 ≤ bits p 19 16 ∧ bits p 19 16 ≤ 9 then bits p 19 16 else 8
  let par := bits p 21 20
  let ns := if bit p 22 then 2 else 1
  let x := line != bit p 23
  let was := match s.prev with | some v => v == 1 | none => false
  let s' := { s with prev := some (b2n x) }
  let s' : DecSt :=
    if s.ph = 0 then (if was && !x then { s' with ph := 1, n := 0, k := 0, sh := 0 } else s')
    else { s' with n := s.n + 1 }
  if s'.ph = 1 ∧ s'.n = div / 2 + s'.k * div then uartSample nd par ns s' x else ⟨s', none, false⟩

/-- SPI (R297). -/
def decSpi (p : Nat) (s : DecSt) (l0 l1 l2 : Bool) : DecOut :=
  let len := max 3 (bits p 8 4) + 1
  let cpol := bit p 0
  let active := l2 == bit p 2
  let s' := { s with prev := some (b2n l0 + 2 * b2n active) }
  if !active then
    let part := (match s.prev with | some v => v.testBit 1 | none => false) && s.k != 0
    ⟨{ s' with k := 0, sh := 0 }, none, part⟩
  else
    let edge := match s.prev with | some v => v.testBit 0 != l0 | none => false
    let take := edge && (l0 != cpol) == !(bit p 1)
    if !take then ⟨s', none, false⟩
    else
      let sh := if bit p 3 then s.sh + b2n l1 * 2 ^ s.k else s.sh * 2 + b2n l1
      if s.k + 1 = len then ⟨{ s' with k := 0, sh := 0 }, some sh, false⟩
      else ⟨{ s' with k := s.k + 1, sh := sh }, none, false⟩

/-- The ACK row of an I²C byte: phase 1 first address byte, 2 second, 3 data (R297). -/
def i2cAck (a10 data nack : Bool) (s : DecSt) : DecOut :=
  let b := s.sh
  let s' := { s with k := 0, sh := 0 }
  let ev := fun (rw a : Nat) => if data then none else some (b2n nack * 2 ^ 11 + rw * 2 ^ 10 + a)
  if s.ph = 1 then
    if a10 && b / 8 == 0b11110 then
      if b % 2 = 0 then ⟨{ s' with ph := 2, aux := b / 2 % 4 }, none, false⟩
      else ⟨{ s' with ph := 3, n := 0 }, ev 1 s.adr, false⟩
    else ⟨{ s' with ph := 3, n := 0 }, ev (b % 2) (b / 2), false⟩
  else if s.ph = 2 then
    let a := s.aux * 256 + b
    ⟨{ s' with ph := 3, n := 0, adr := a }, ev 0 a, false⟩
  else
    ⟨{ s' with n := s.n + 1 },
     if data then some (min s.n 255 * 2 ^ 16 + b2n nack * 2 ^ 8 + b) else none, false⟩

/-- I²C (R297). DEDUCED (log 35): a START or STOP within the clock pulse that took the first bit of a byte is not inside that byte. -/
def decI2c (p : Nat) (s : DecSt) (scl sda : Bool) : DecOut :=
  let v := s.prev.getD (b2n scl + 2 * b2n sda)
  let scl0 := v.testBit 0
  let sda0 := v.testBit 1
  let s' := { s with prev := some (b2n scl + 2 * b2n sda) }
  if scl && scl0 && sda0 != sda then
    if s.ph != 0 && decide (2 ≤ s.k) then ⟨{ s' with ph := 0, k := 0, sh := 0 }, none, true⟩
    else if sda then ⟨{ s' with ph := 0, k := 0, sh := 0 }, none, false⟩
    else ⟨{ s' with ph := 1, k := 0, sh := 0 }, none, false⟩
  else if scl && !scl0 && s.ph != 0 then
    if s.k < 8 then ⟨{ s' with k := s.k + 1, sh := s.sh * 2 + b2n sda }, none, false⟩
    else i2cAck (bit p 0) (bit p 1) sda s'
  else ⟨s', none, false⟩

/-- One bit of a FIELD stream: phase 0 search, 1 skip, 2 field (R297). -/
def fieldBit (p sync : Nat) (s : DecSt) (x : Bool) : DecOut :=
  let sl := bits p 6 2 + 1
  let off := bits p 18 7
  let len := bits p 23 19 + 1
  if s.ph = 0 then
    let sh := (s.sh * 2 + b2n x) % 2 ^ 32
    let n := min 32 (s.n + 1)
    if sl ≤ n ∧ sh % 2 ^ sl = sync % 2 ^ sl then ⟨{ s with ph := if off = 0 then 2 else 1, n := 0, k := 0, sh := 0 }, none, false⟩
    else ⟨{ s with sh := sh, n := n }, none, false⟩
  else if s.ph = 1 then
    if s.n + 1 = off then ⟨{ s with ph := 2, n := 0, k := 0, sh := 0 }, none, false⟩ else ⟨{ s with n := s.n + 1 }, none, false⟩
  else
    let sh := s.sh * 2 + b2n x
    if s.k + 1 = len then ⟨{ s with ph := 0, n := 0, k := 0, sh := 0 }, some sh, false⟩
    else ⟨{ s with k := s.k + 1, sh := sh }, none, false⟩

/-- FIELD (R297). -/
def decField (p sync : Nat) (s : DecSt) (x clk : Bool) : DecOut :=
  let m := bits p 1 0
  let rise := match s.prev with | some v => v == 0 && clk | none => false
  let fall := match s.prev with | some v => v == 1 && !clk | none => false
  let s' := { s with prev := some (b2n clk) }
  if (m == 1 && !rise) || (m == 2 && !fall) then ⟨s', none, false⟩ else fieldBit p sync s' x

/-- The field test of R298. -/
def fieldTest (op mask value hi v : Nat) : Bool :=
  let m := v &&& mask
  if op = 0 then m == value &&& mask
  else if op = 1 then m != value &&& mask
  else if op = 2 then decide (m < value)
  else if op = 3 then decide (value < m)
  else decide (value ≤ m ∧ m ≤ hi)

end Sys2Proof.Machine
end

