-- ==== Sys2Proof/Machine/Crc.lean ====
section
/-! DEFINITION. The cyclic redundancy checks the manual defines: CRC-32C (R240), CRC-64 ECMA-182 of the section
digest (R390) and CRC-16 of the link layer (R344). -/

namespace Sys2Proof.Machine

/-- One bit of a reflected CRC of polynomial `p`. -/
def crcBitR (p c : Nat) : Nat := if c % 2 = 1 then (c / 2) ^^^ p else c / 2

/-- One byte into a reflected CRC. -/
def crcByteR (p c b : Nat) : Nat :=
  (List.range 8).foldl (fun c _ => crcBitR p c) (c ^^^ (b % 256))

/-- The Castagnoli polynomial 0x1EDC_6F41, reflected (R240). -/
def polyC : Nat := 0x82F63B78

/-- A running CRC-32C before the final exclusive-or, started at 0xFFFF_FFFF (R240). -/
def crcStart : Nat := 0xFFFFFFFF

/-- A running CRC-32C over bytes. -/
def crcRun (c : Nat) (bs : List Nat) : Nat := bs.foldl (crcByteR polyC) c

/-- The final exclusive-or of R240. -/
def crcEnd (c : Nat) : Nat := c ^^^ 0xFFFFFFFF

/-- CRC-32C of a byte string (R240). -/
def crc32c (bs : List Nat) : Nat := crcEnd (crcRun crcStart bs)

/-- A queue word enters a packet tally as the little-endian unit 0b0000 ‖ word (R240). -/
def crcWord (c w : Nat) : Nat := crcRun c [w % 256, w % 4096 / 256]

/-- One bit, most significant first, into a CRC of `w` bits and polynomial `p`. -/
def crcBitF (w p c : Nat) (b : Bool) : Nat :=
  if (c.testBit (w - 1)) != b then (c * 2 % 2 ^ w) ^^^ p else c * 2 % 2 ^ w

/-- The low `n` bits of `v`, most significant first, into a CRC of `w` bits. -/
def crcBitsF (w p n c v : Nat) : Nat :=
  (List.range n).foldl (fun c i => crcBitF w p c (v.testBit (n - 1 - i))) c

end Sys2Proof.Machine
end

