-- ==== Sys2Proof/Machine/Sparse.lean ====
section
/-! DEFINITION. Operations on sparse storage. A store in canonical form has strictly rising addresses and lists
no entry equal to what the address reads as when unlisted, so that equal stores are equal lists. -/

namespace Sys2Proof.Machine

variable {α : Type}

/-- The listed entry at an address. -/
def Sparse.find (k : Nat) : Sparse α → Option α
  | [] => none
  | (a, v) :: r => if a = k then some v else Sparse.find k r

/-- The store with the entry at `k` listed as `v`. -/
def Sparse.put (k : Nat) (v : α) : Sparse α → Sparse α
  | [] => [(k, v)]
  | (a, w) :: r =>
    if k < a then (k, v) :: (a, w) :: r
    else if k = a then (k, v) :: r
    else (a, w) :: Sparse.put k v r

/-- The store with no entry at `k`. -/
def Sparse.drop (k : Nat) : Sparse α → Sparse α
  | [] => []
  | (a, w) :: r => if a = k then Sparse.drop k r else (a, w) :: Sparse.drop k r

/-- What a store reads as at `k` when an unlisted address reads as `d k`. -/
def Sparse.get (d : Nat → α) (m : Sparse α) (k : Nat) : α := (Sparse.find k m).getD (d k)

/-- A write of `v` at `k` that keeps the canonical form: the value an unlisted address reads as is not listed. -/
def Sparse.set [DecidableEq α] (d : Nat → α) (m : Sparse α) (k : Nat) (v : α) : Sparse α :=
  if v = d k then Sparse.drop k m else Sparse.put k v m

/-- Every address of the store lies above `k`. -/
def Sparse.above (k : Nat) : Sparse α → Bool
  | [] => true
  | (a, _) :: r => decide (k < a) && Sparse.above k r

/-- The canonical form: strictly rising addresses, and no entry equal to the unlisted value. -/
def Sparse.wf [DecidableEq α] (d : Nat → α) : Sparse α → Bool
  | [] => true
  | (a, v) :: r => Sparse.above a r && decide (v ≠ d a) && Sparse.wf d r

/-- The store restricted to the addresses that satisfy `p`. -/
def Sparse.keep (p : Nat → Bool) (m : Sparse α) : Sparse α := m.filter (fun e => p e.1)

end Sys2Proof.Machine
end

