-- ==== Sys2Proof/Machine/Regs.lean ====
section
/-! DEFINITION. The register tables of the manual: one row per register kind, with the bits, type and reset value of
each field as the named rule's table gives them, and the place of the register in its layout (R536 to R538). -/

namespace Sys2Proof.Machine

/-- The field types of R9. -/
inductive FieldTy where
  | rw | ro | w1c | w1s | wo | rc
deriving DecidableEq, Repr

/-- A field of a register: bits [hi:lo], type and reset value (R9). Bits that no field names are reserved (R10). -/
structure Field where
  hi : Nat
  lo : Nat
  ty : FieldTy
  reset : Nat
deriving DecidableEq, Repr

/-- One register kind. `hub` says whether it lies in the PF0 BAR0 layout (R536) or in a section's (R537), `dims` gives the
count and stride of each index, and `wide` marks a 64-bit quantity in two consecutive registers (R7), whose
fields are numbered over the 64 bits. Where the tables give a reset value as live, undefined, OTP or HVBR, the reset here is the
model's (INVENTORY.md, State). -/
structure Row where
  hub : Bool
  base : Nat
  dims : List (Nat × Nat)
  wide : Bool
  fields : List Field
deriving DecidableEq, Repr

namespace Reg

/-- CODE.SEL (R73). CLUSTER [3:0] -/
def CODE.SEL : Row := ⟨false, 0x3f00000, [], false, [⟨3, 0, .rw, 0⟩]⟩

/-- CODE.STAT (R73). REJ [1]; PEND [0] -/
def CODE.STAT : Row := ⟨false, 0x3f00004, [], false, [⟨1, 1, .w1c, 0⟩, ⟨0, 0, .ro, 0⟩]⟩

/-- CLUS.DSTORE (R96). V [15]; G [14]; PAR [13:12]; DATA [11:0] -/
def CLUS.DSTORE : Row := ⟨false, 0x1080000, [(16, 0x100000), (64, 0x1000), (1024, 0x4)], false, [⟨15, 15, .rw, 0⟩, ⟨14, 14, .rw, 0⟩, ⟨13, 12, .ro, 0⟩, ⟨11, 0, .rw, 0⟩]⟩

/-- CLUS.DSSTAT (R98). REJ [0] -/
def CLUS.DSSTAT : Row := ⟨false, 0x10c0000, [(16, 0x100000)], false, [⟨0, 0, .w1c, 0⟩]⟩

/-- CLUS.DSCTL (R98). PINV [0] -/
def CLUS.DSCTL : Row := ⟨false, 0x10c0004, [(16, 0x100000)], false, [⟨0, 0, .rw, 0⟩]⟩

/-- CLUS.CSLOT (R108). V [31]; SCRS [30:25]; SWORD [24:16]; DWORD [8:0] -/
def CLUS.CSLOT : Row := ⟨false, 0x1000000, [(16, 0x100000), (65536, 0x4)], false, [⟨31, 31, .rw, 0⟩, ⟨30, 25, .rw, 0⟩, ⟨24, 16, .rw, 0⟩, ⟨8, 0, .rw, 0⟩]⟩

/-- CLUS.GSLOTL (R110). SWORD [31:22]; SCRS [21:16]; DCRS [15:10]; DPORT [9]; DWORD [8:0] -/
def CLUS.GSLOTL : Row := ⟨false, 0x1040000, [(16, 0x100000), (8192, 0x8)], false, [⟨31, 22, .rw, 0⟩, ⟨21, 16, .rw, 0⟩, ⟨15, 10, .rw, 0⟩, ⟨9, 9, .rw, 0⟩, ⟨8, 0, .rw, 0⟩]⟩

/-- CLUS.GSLOTH (R110). V [31]; BR [7]; DSEC [6:4]; DCL [3:0] -/
def CLUS.GSLOTH : Row := ⟨false, 0x1040004, [(16, 0x100000), (8192, 0x8)], false, [⟨31, 31, .rw, 0⟩, ⟨7, 7, .rw, 0⟩, ⟨6, 4, .rw, 0⟩, ⟨3, 0, .rw, 0⟩]⟩

/-- SCTL.BROPEN (R123). OPEN [7:0] -/
def SCTL.BROPEN : Row := ⟨false, 0x400, [], false, [⟨7, 0, .ro, 0⟩]⟩

/-- SCTL.BRERR (R123). DISC [7:0] -/
def SCTL.BRERR : Row := ⟨false, 0x404, [], false, [⟨7, 0, .w1c, 0⟩]⟩

/-- SCTL.BRCNT (R123). COUNT [31:0] -/
def SCTL.BRCNT : Row := ⟨false, 0x408, [], false, [⟨31, 0, .rc, 0⟩]⟩

/-- CLUS.SLSTAT (R125). PEND [1]; REJ [0] -/
def CLUS.SLSTAT : Row := ⟨false, 0x10c0008, [(16, 0x100000)], false, [⟨1, 1, .ro, 0⟩, ⟨0, 0, .w1c, 0⟩]⟩

/-- CLUS.CLKCTL (R127). USED [4]; GATE [3]; SRC [2]; DIV [1:0] -/
def CLUS.CLKCTL : Row := ⟨false, 0x10c0010, [(16, 0x100000)], false, [⟨4, 4, .rw, 0⟩, ⟨3, 3, .rw, 0⟩, ⟨2, 2, .rw, 0⟩, ⟨1, 0, .rw, 3⟩]⟩

/-- CLUS.CLKSTAT (R127). REJ [7]; THR [6]; RSTBUSY [5]; BUSY [4]; GATED [3]; SRC [2]; DIV [1:0] -/
def CLUS.CLKSTAT : Row := ⟨false, 0x10c0014, [(16, 0x100000)], false, [⟨7, 7, .w1c, 0⟩, ⟨6, 6, .ro, 0⟩, ⟨5, 5, .ro, 0⟩, ⟨4, 4, .ro, 0⟩, ⟨3, 3, .ro, 0⟩, ⟨2, 2, .ro, 0⟩, ⟨1, 0, .ro, 3⟩]⟩

/-- CLUS.RSTCTL (R127). CRST [0] -/
def CLUS.RSTCTL : Row := ⟨false, 0x10c0018, [(16, 0x100000)], false, [⟨0, 0, .wo, 0⟩]⟩

/-- SCTL.STATE (R141). LEADER [26:24]; GROUP [23:16]; EPILOGUE [8]; PROLOGUE [7]; PAUSING [6]; STOPPING [5]; ARMED [4]; HOLDING [3]; STATE [2:0] -/
def SCTL.STATE : Row := ⟨false, 0x0, [], false, [⟨26, 24, .ro, 0⟩, ⟨23, 16, .ro, 0⟩, ⟨8, 8, .ro, 0⟩, ⟨7, 7, .ro, 0⟩, ⟨6, 6, .ro, 0⟩, ⟨5, 5, .ro, 0⟩, ⟨4, 4, .ro, 0⟩, ⟨3, 3, .ro, 0⟩, ⟨2, 0, .ro, 1⟩]⟩

/-- SCTL.CMD (R141). MODE [5:4]; OP [3:0] -/
def SCTL.CMD : Row := ⟨false, 0x4, [], false, [⟨5, 4, .wo, 0⟩, ⟨3, 0, .wo, 0⟩]⟩

/-- SCTL.CMDSTAT (R141). BUSY [31]; LASTOP [7:4]; ERR [3:0] -/
def SCTL.CMDSTAT : Row := ⟨false, 0x8, [], false, [⟨31, 31, .ro, 0⟩, ⟨7, 4, .ro, 0⟩, ⟨3, 0, .ro, 0⟩]⟩

/-- SCTL.PERIOD (R141). P [9:0] -/
def SCTL.PERIOD : Row := ⟨false, 0xc, [], false, [⟨9, 0, .ro, 0⟩]⟩

/-- SCTL.DCYC (R141). DCYC [31:0] -/
def SCTL.DCYC : Row := ⟨false, 0x10, [], true, [⟨31, 0, .ro, 0⟩]⟩

/-- SCTL.POS (R141). FRET [20:16]; STEP [8:0] -/
def SCTL.POS : Row := ⟨false, 0x18, [], false, [⟨20, 16, .ro, 0⟩, ⟨8, 0, .ro, 0⟩]⟩

/-- SCTL.STEPK (R141). K [31:0] -/
def SCTL.STEPK : Row := ⟨false, 0x1c, [], false, [⟨31, 0, .rw, 0⟩]⟩

/-- SCTL.STIME (R141). NS [47:0] -/
def SCTL.STIME : Row := ⟨false, 0x20, [], true, [⟨47, 0, .rw, 0⟩]⟩

/-- SCTL.STRIG (R141). EDGE [8]; SRC [4:0] -/
def SCTL.STRIG : Row := ⟨false, 0x28, [], false, [⟨8, 8, .rw, 0⟩, ⟨4, 0, .rw, 0⟩]⟩

/-- CLUS.WAIT (R148). V [31]; TYPE [30:28]; STG [27]; ARG [26:0] -/
def CLUS.WAIT : Row := ⟨false, 0x1050000, [(16, 0x100000), (256, 0x4)], false, [⟨31, 31, .rw, 0⟩, ⟨30, 28, .rw, 0⟩, ⟨27, 27, .rw, 0⟩, ⟨26, 0, .rw, 0⟩]⟩

/-- CLUS.WTSTAT (R150). FRET [28:24]; UNSAT [23:16]; BAD [1]; REJ [0] -/
def CLUS.WTSTAT : Row := ⟨false, 0x10c0020, [(16, 0x100000)], false, [⟨28, 24, .ro, 0⟩, ⟨23, 16, .ro, 0⟩, ⟨1, 1, .w1c, 0⟩, ⟨0, 0, .w1c, 0⟩]⟩

/-- SCTL.HCNT (R151). COUNT [31:0] -/
def SCTL.HCNT : Row := ⟨false, 0x100, [(11, 0x8)], true, [⟨31, 0, .ro, 0⟩]⟩

/-- SCTL.HCTL (R152). CLR [0] -/
def SCTL.HCTL : Row := ⟨false, 0x40, [], false, [⟨0, 0, .wo, 0⟩]⟩

/-- SCTL.HLIMIT (R152). FRETS [31:0] -/
def SCTL.HLIMIT : Row := ⟨false, 0x44, [], false, [⟨31, 0, .rw, 0⟩]⟩

/-- SCTL.HLAST (R152). CAUSE [25:16]; FRET [4:0] -/
def SCTL.HLAST : Row := ⟨false, 0x48, [], false, [⟨25, 16, .ro, 0⟩, ⟨4, 0, .ro, 0⟩]⟩

/-- SCTL.PACECTL (R155). EN [31]; TOL [15:0] -/
def SCTL.PACECTL : Row := ⟨false, 0x30, [], false, [⟨31, 31, .rw, 0⟩, ⟨15, 0, .rw, 0x20⟩]⟩

/-- SCTL.PACEMISS (R155). COUNT [31:0] -/
def SCTL.PACEMISS : Row := ⟨false, 0x34, [], false, [⟨31, 0, .rc, 0⟩]⟩

/-- SCTL.PACELAG (R155). LAG [31:0] -/
def SCTL.PACELAG : Row := ⟨false, 0x38, [], false, [⟨31, 0, .ro, 0⟩]⟩

/-- SCTL.PACEPEND (R155). OVF [31]; PEND [15:0] -/
def SCTL.PACEPEND : Row := ⟨false, 0x3c, [], false, [⟨31, 31, .w1c, 0⟩, ⟨15, 0, .ro, 0⟩]⟩

/-- SFLT.FSTAT (R160). VALID [31]; REMOTE [30]; SRCSEC [29:27]; CODE [15:0] -/
def SFLT.FSTAT : Row := ⟨false, 0x10000, [], false, [⟨31, 31, .w1c, 0⟩, ⟨30, 30, .ro, 0⟩, ⟨29, 27, .ro, 0⟩, ⟨15, 0, .ro, 0⟩]⟩

/-- SFLT.FLOC (R160). OPND [31:29]; COURSE [28:16]; BP [15:12]; STEP [8:0] -/
def SFLT.FLOC : Row := ⟨false, 0x10004, [], false, [⟨31, 29, .ro, 0⟩, ⟨28, 16, .ro, 0⟩, ⟨15, 12, .ro, 0⟩, ⟨8, 0, .ro, 0⟩]⟩

/-- SFLT.FCYC (R160). CYCLE [31:0] -/
def SFLT.FCYC : Row := ⟨false, 0x10008, [], true, [⟨31, 0, .ro, 0⟩]⟩

/-- SFLT.FLATER (R160). COUNT [31:0] -/
def SFLT.FLATER : Row := ⟨false, 0x10010, [], false, [⟨31, 0, .ro, 0⟩]⟩

/-- SFLT.FHALT (R160). FRET [4:0] -/
def SFLT.FHALT : Row := ⟨false, 0x10014, [], false, [⟨4, 0, .ro, 0⟩]⟩

/-- SPAD.REG.CTL (R203). EN [31]; CIRC [30]; LOG2S [12:8]; WR [1]; RD [0] -/
def SPAD.REG.CTL : Row := ⟨false, 0x51000, [(31, 0x80), (8, 0x10)], false, [⟨31, 31, .rw, 0⟩, ⟨30, 30, .rw, 0⟩, ⟨12, 8, .rw, 0⟩, ⟨1, 1, .rw, 0⟩, ⟨0, 0, .rw, 0⟩]⟩

/-- SPAD.REG.BASE (R203). LINE [31:0] -/
def SPAD.REG.BASE : Row := ⟨false, 0x51004, [(31, 0x80), (8, 0x10)], false, [⟨31, 0, .rw, 0⟩]⟩

/-- SPAD.REG.LIMIT (R203). LINE [31:0] -/
def SPAD.REG.LIMIT : Row := ⟨false, 0x51008, [(31, 0x80), (8, 0x10)], false, [⟨31, 0, .rw, 0⟩]⟩

/-- SPAD.BANKPWR (R211). REQ [31:0] -/
def SPAD.BANKPWR : Row := ⟨false, 0x50000, [], false, [⟨31, 0, .rw, 0xaaaaaaaa⟩]⟩

/-- SPAD.BANKSTAT (R211). STATE [31:0] -/
def SPAD.BANKSTAT : Row := ⟨false, 0x50004, [], false, [⟨31, 0, .ro, 0xaaaaaaaa⟩]⟩

/-- HBMC.STAT (R220). REJ [8]; HOTREF [7:4]; READY [3:0] -/
def HBMC.STAT : Row := ⟨false, 0x60000, [], false, [⟨8, 8, .w1c, 0⟩, ⟨7, 4, .ro, 0⟩, ⟨3, 0, .ro, 0⟩]⟩

/-- HBMC.OUTST (R220). FAB [24:16]; CAPT [15:8]; SVC [6:0] -/
def HBMC.OUTST : Row := ⟨false, 0x60004, [], false, [⟨24, 16, .ro, 0⟩, ⟨15, 8, .ro, 0⟩, ⟨6, 0, .ro, 0⟩]⟩

/-- HBMC.ERR (R220). VALID [31]; STATUS [11:8]; PATH [7:6]; SRC [5:0] -/
def HBMC.ERR : Row := ⟨false, 0x60008, [], false, [⟨31, 31, .w1c, 0⟩, ⟨11, 8, .ro, 0⟩, ⟨7, 6, .ro, 0⟩, ⟨5, 0, .ro, 0⟩]⟩

/-- HBMC.UECNT (R220). COUNT [31:0] -/
def HBMC.UECNT : Row := ⟨false, 0x6000c, [], false, [⟨31, 0, .rc, 0⟩]⟩

/-- SPAD.ECCCE (R550). COUNT [31:0] -/
def SPAD.ECCCE : Row := ⟨false, 0x50010, [], false, [⟨31, 0, .rc, 0⟩]⟩

/-- SPAD.ECCUE (R550). COUNT [31:0] -/
def SPAD.ECCUE : Row := ⟨false, 0x50014, [], false, [⟨31, 0, .rc, 0⟩]⟩

/-- SPAD.RVIOL (R550). VALID [31]; WRITE [30]; MASTER [28:24] -/
def SPAD.RVIOL : Row := ⟨false, 0x50018, [], false, [⟨31, 31, .w1c, 0⟩, ⟨30, 30, .ro, 0⟩, ⟨28, 24, .ro, 0⟩]⟩

/-- SPAD.RVADDR (R550). LINE [31:0] -/
def SPAD.RVADDR : Row := ⟨false, 0x5001c, [], false, [⟨31, 0, .ro, 0⟩]⟩

/-- SPAD.RVCNT (R550). COUNT [31:0] -/
def SPAD.RVCNT : Row := ⟨false, 0x50020, [], false, [⟨31, 0, .rc, 0⟩]⟩

/-- SPAD.PQHOLD (R550). COUNT [31:0] -/
def SPAD.PQHOLD : Row := ⟨false, 0x50024, [], false, [⟨31, 0, .rc, 0⟩]⟩

/-- SPAD.RSTAT (R550). REJ [0] -/
def SPAD.RSTAT : Row := ⟨false, 0x50028, [], false, [⟨0, 0, .w1c, 0⟩]⟩

/-- SPAD.NHCNT (R550). COUNT [10:0] -/
def SPAD.NHCNT : Row := ⟨false, 0x5002c, [], false, [⟨10, 0, .ro, 0⟩]⟩

/-- SPAD.URGCNT (R550). COUNT [31:0] -/
def SPAD.URGCNT : Row := ⟨false, 0x50100, [(31, 0x4)], false, [⟨31, 0, .rc, 0⟩]⟩

/-- FERRY.CTL (R243). HNOTE [8]; TEST [4]; RST [0] -/
def FERRY.CTL : Row := ⟨false, 0x40000, [(64, 0x400)], false, [⟨8, 8, .rw, 0⟩, ⟨4, 4, .wo, 0⟩, ⟨0, 0, .wo, 0⟩]⟩

/-- FERRY.STAT (R243). RETIRED [10]; MODE [9:8]; BUSY [7]; OPEN [6]; DRAIN [5]; POISON [4]; LONG [3]; OVERRUN [2]; EMPTY [1]; FULL [0] -/
def FERRY.STAT : Row := ⟨false, 0x40004, [(64, 0x400)], false, [⟨10, 10, .ro, 0⟩, ⟨9, 8, .ro, 1⟩, ⟨7, 7, .ro, 0⟩, ⟨6, 6, .ro, 0⟩, ⟨5, 5, .ro, 1⟩, ⟨4, 4, .w1c, 0⟩, ⟨3, 3, .w1c, 0⟩, ⟨2, 2, .w1c, 0⟩, ⟨1, 1, .ro, 1⟩, ⟨0, 0, .ro, 0⟩]⟩

/-- FERRY.LEVEL (R243). FREE [26:16]; AVAIL [11:0] -/
def FERRY.LEVEL : Row := ⟨false, 0x40008, [(64, 0x400)], false, [⟨26, 16, .ro, 8⟩, ⟨11, 0, .ro, 0⟩]⟩

/-- FERRY.PKTS (R243). PKTS [11:0] -/
def FERRY.PKTS : Row := ⟨false, 0x4000c, [(64, 0x400)], false, [⟨11, 0, .ro, 0⟩]⟩

/-- FERRY.RSTCNT (R243). WORDS [11:0] -/
def FERRY.RSTCNT : Row := ⟨false, 0x40010, [(64, 0x400)], false, [⟨11, 0, .ro, 0⟩]⟩

/-- FERRY.PKTIN (R243). COUNT [31:0] -/
def FERRY.PKTIN : Row := ⟨false, 0x40014, [(64, 0x400)], false, [⟨31, 0, .rc, 0⟩]⟩

/-- FERRY.OVRCNT (R243). COUNT [31:0] -/
def FERRY.OVRCNT : Row := ⟨false, 0x40018, [(64, 0x400)], false, [⟨31, 0, .rc, 0⟩]⟩

/-- FERRY.POISCNT (R243). COUNT [31:0] -/
def FERRY.POISCNT : Row := ⟨false, 0x4001c, [(64, 0x400)], false, [⟨31, 0, .rc, 0⟩]⟩

/-- FERRY.ECC (R243). UE [31:16]; CE [15:0] -/
def FERRY.ECC : Row := ⟨false, 0x40020, [(64, 0x400)], false, [⟨31, 16, .rc, 0⟩, ⟨15, 0, .rc, 0⟩]⟩

/-- FERRY.WDATA (R243). EOP [12]; WORD [11:0] -/
def FERRY.WDATA : Row := ⟨false, 0x4fc40, [], false, [⟨12, 12, .wo, 0⟩, ⟨11, 0, .wo, 0⟩]⟩

/-- CALL.CLASS (R252). EN [31]; BLK [30]; LEVEL [29:28]; RLEN [27:24]; CORES [7:0] -/
def CALL.CLASS : Row := ⟨false, 0x70100, [(64, 0x4)], false, [⟨31, 31, .rw, 0⟩, ⟨30, 30, .rw, 0⟩, ⟨29, 28, .rw, 0⟩, ⟨27, 24, .rw, 0⟩, ⟨7, 0, .rw, 0⟩]⟩

/-- CALL.CRPOOL (R252). AVAIL [23:16]; POOL [7:0] -/
def CALL.CRPOOL : Row := ⟨false, 0x70200, [(16, 0x4)], false, [⟨23, 16, .ro, 0⟩, ⟨7, 0, .rw, 0⟩]⟩

/-- CALL.AGELIM (R259). URG [28:24]; LOG2_2 [20:16]; LOG2_1 [12:8]; LOG2_0 [4:0] -/
def CALL.AGELIM : Row := ⟨false, 0x70008, [], false, [⟨28, 24, .rw, 0⟩, ⟨20, 16, .rw, 0⟩, ⟨12, 8, .rw, 0⟩, ⟨4, 0, .rw, 0⟩]⟩

/-- CALL.CORECTL (R266). EN [7:0] -/
def CALL.CORECTL : Row := ⟨false, 0x70000, [], false, [⟨7, 0, .rw, 0⟩]⟩

/-- CALL.STAT (R266). REJ [0] -/
def CALL.STAT : Row := ⟨false, 0x70004, [], false, [⟨0, 0, .w1c, 0⟩]⟩

/-- CALL.WDOG (R266). LOG2 [4:0] -/
def CALL.WDOG : Row := ⟨false, 0x7000c, [], false, [⟨4, 0, .rw, 0⟩]⟩

/-- CALL.TRCTL (R266). EV [5:0] -/
def CALL.TRCTL : Row := ⟨false, 0x70010, [], false, [⟨5, 0, .rw, 0x3f⟩]⟩

/-- CALL.OCC (R266). URGENT [24:16]; COUNT [8:0] -/
def CALL.OCC : Row := ⟨false, 0x70020, [(4, 0x4)], false, [⟨24, 16, .ro, 0⟩, ⟨8, 0, .ro, 0⟩]⟩

/-- CALL.RORD (R266). COUNT [8:0] -/
def CALL.RORD : Row := ⟨false, 0x70030, [], false, [⟨8, 0, .ro, 0⟩]⟩

/-- CALL.POSTCNT (R266). COUNT [31:0] -/
def CALL.POSTCNT : Row := ⟨false, 0x70040, [], false, [⟨31, 0, .rc, 0⟩]⟩

/-- CALL.DISPCNT (R266). COUNT [31:0] -/
def CALL.DISPCNT : Row := ⟨false, 0x70044, [], false, [⟨31, 0, .rc, 0⟩]⟩

/-- CALL.PROMCNT (R266). COUNT [31:0] -/
def CALL.PROMCNT : Row := ⟨false, 0x70048, [], false, [⟨31, 0, .rc, 0⟩]⟩

/-- CALL.URGCNT (R266). COUNT [31:0] -/
def CALL.URGCNT : Row := ⟨false, 0x7004c, [], false, [⟨31, 0, .rc, 0⟩]⟩

/-- CALL.REFCNT (R266). COUNT [31:0] -/
def CALL.REFCNT : Row := ⟨false, 0x70050, [], false, [⟨31, 0, .rc, 0⟩]⟩

/-- CALL.ABORTCNT (R266). COUNT [31:0] -/
def CALL.ABORTCNT : Row := ⟨false, 0x70054, [], false, [⟨31, 0, .rc, 0⟩]⟩

/-- CALL.CORESTAT (R266). CUR [31]; PREF [30]; DRAIN [29]; RST [28]; CLASS [21:16] -/
def CALL.CORESTAT : Row := ⟨false, 0x70080, [(8, 0x4)], false, [⟨31, 31, .ro, 0⟩, ⟨30, 30, .ro, 0⟩, ⟨29, 29, .ro, 0⟩, ⟨28, 28, .ro, 1⟩, ⟨21, 16, .ro, 0⟩]⟩

/-- CAPT.PROBE (R281). STG [30]; CLUSTER [29:26]; COURSE [25:20]; WORD [19:10]; STEP [8:0] -/
def CAPT.PROBE : Row := ⟨false, 0x81000, [(512, 0x4)], false, [⟨30, 30, .rw, 0⟩, ⟨29, 26, .rw, 0⟩, ⟨25, 20, .rw, 0⟩, ⟨19, 10, .rw, 0⟩, ⟨8, 0, .rw, 0⟩]⟩

/-- CAPT.SEQ.COND (R295). OP [31]; MASK [25:0] -/
def CAPT.SEQ.COND : Row := ⟨false, 0x80100, [(4, 0x10), (2, 0x8)], false, [⟨31, 31, .rw, 0⟩, ⟨25, 0, .rw, 0⟩]⟩

/-- CAPT.SEQ.ACT (R295). NEXT [7:6]; TRIG [5]; CCLR [3:2]; CINC [1:0] -/
def CAPT.SEQ.ACT : Row := ⟨false, 0x80104, [(4, 0x10), (2, 0x8)], false, [⟨7, 6, .rw, 0⟩, ⟨5, 5, .rw, 0⟩, ⟨3, 2, .rw, 0⟩, ⟨1, 0, .rw, 0⟩]⟩

/-- CAPT.CMP.SEL (R295). MODE [31:30]; PROBE [8:0] -/
def CAPT.CMP.SEL : Row := ⟨false, 0x80200, [(16, 0x8)], false, [⟨31, 30, .rw, 0⟩, ⟨8, 0, .rw, 0⟩]⟩

/-- CAPT.CMP.MV (R295). MASK [27:16]; VALUE [11:0] -/
def CAPT.CMP.MV : Row := ⟨false, 0x80204, [(16, 0x8)], false, [⟨27, 16, .rw, 0⟩, ⟨11, 0, .rw, 0⟩]⟩

/-- CAPT.CNTLIM (R295). VALUE [31:0] -/
def CAPT.CNTLIM : Row := ⟨false, 0x80048, [(2, 0x4)], false, [⟨31, 0, .rw, 0⟩]⟩

/-- CAPT.CNT (R295). VALUE [31:0] -/
def CAPT.CNT : Row := ⟨false, 0x80050, [(2, 0x4)], false, [⟨31, 0, .ro, 0⟩]⟩

/-- CAPT.TCMP (R295). MODE [63]; NS [47:0] -/
def CAPT.TCMP : Row := ⟨false, 0x80060, [(2, 0x8)], true, [⟨63, 63, .rw, 0⟩, ⟨47, 0, .rw, 0⟩]⟩

/-- CAPT.EXTSEL (R295). EDGE1 [24]; POL1 [23]; SRC1 [20:16]; EDGE [8]; POL [7]; SRC [4:0] -/
def CAPT.EXTSEL : Row := ⟨false, 0x80044, [], false, [⟨24, 24, .rw, 0⟩, ⟨23, 23, .rw, 0⟩, ⟨20, 16, .rw, 0⟩, ⟨8, 8, .rw, 0⟩, ⟨7, 7, .rw, 0⟩, ⟨4, 0, .rw, 0⟩]⟩

/-- TRG.PIN (R305). OE [8]; INV [7]; OSRC [4:0] -/
def TRG.PIN : Row := ⟨true, 0xc0000, [(16, 0x4)], false, [⟨8, 8, .rw, 0⟩, ⟨7, 7, .rw, 0⟩, ⟨4, 0, .rw, 0⟩]⟩

/-- TRG.IN (R305). LEVEL [15:0] -/
def TRG.IN : Row := ⟨true, 0xc0040, [], false, [⟨15, 0, .ro, 0⟩]⟩

/-- TRG.XBUS (R305). LEVEL [15:0] -/
def TRG.XBUS : Row := ⟨true, 0xc0044, [], false, [⟨15, 0, .ro, 0⟩]⟩

/-- CAPT.CTL (R306). FORCE [4]; DISARM [1]; ARM [0] -/
def CAPT.CTL : Row := ⟨false, 0x80000, [], false, [⟨4, 4, .wo, 0⟩, ⟨1, 1, .wo, 0⟩, ⟨0, 0, .wo, 0⟩]⟩

/-- CAPT.STAT (R306). ERR [31:28]; SEQ [9:8]; POST [7]; ARMED [6]; ACTIVE [5]; DONE [4]; SERR [3]; OVF [2]; REJ [1] -/
def CAPT.STAT : Row := ⟨false, 0x80004, [], false, [⟨31, 28, .ro, 0⟩, ⟨9, 8, .ro, 0⟩, ⟨7, 7, .ro, 0⟩, ⟨6, 6, .ro, 0⟩, ⟨5, 5, .ro, 0⟩, ⟨4, 4, .w1c, 0⟩, ⟨3, 3, .w1c, 0⟩, ⟨2, 2, .w1c, 0⟩, ⟨1, 1, .w1c, 0⟩]⟩

/-- CAPT.CFG (R306). RING [31]; NPROBE [9:0] -/
def CAPT.CFG : Row := ⟨false, 0x80008, [], false, [⟨31, 31, .rw, 0⟩, ⟨9, 0, .rw, 0⟩]⟩

/-- CAPT.PRE (R306). COUNT [19:0] -/
def CAPT.PRE : Row := ⟨false, 0x8000c, [], false, [⟨19, 0, .rw, 0⟩]⟩

/-- CAPT.POST (R306). COUNT [20:0] -/
def CAPT.POST : Row := ⟨false, 0x80010, [], false, [⟨20, 0, .rw, 0⟩]⟩

/-- CAPT.NSEG (R306). COUNT [16:0] -/
def CAPT.NSEG : Row := ⟨false, 0x80014, [], false, [⟨16, 0, .rw, 0⟩]⟩

/-- CAPT.DBASE (R306). LINE [31:0] -/
def CAPT.DBASE : Row := ⟨false, 0x80018, [], false, [⟨31, 0, .rw, 0⟩]⟩

/-- CAPT.HBASE (R306). LINE [31:0] -/
def CAPT.HBASE : Row := ⟨false, 0x8001c, [], false, [⟨31, 0, .rw, 0⟩]⟩

/-- CAPT.ABASE (R306). LINE [31:0] -/
def CAPT.ABASE : Row := ⟨false, 0x80034, [], false, [⟨31, 0, .rw, 0⟩]⟩

/-- CAPT.HOLDOFF (R306). UNIT [31]; SRC [30:26]; VALUE [25:0] -/
def CAPT.HOLDOFF : Row := ⟨false, 0x80020, [], false, [⟨31, 31, .rw, 0⟩, ⟨30, 26, .rw, 0⟩, ⟨25, 0, .rw, 0⟩]⟩

/-- CAPT.RECNO (R306). COUNT [31:0] -/
def CAPT.RECNO : Row := ⟨false, 0x80024, [], false, [⟨31, 0, .ro, 0⟩]⟩

/-- CAPT.DROPCNT (R306). COUNT [31:0] -/
def CAPT.DROPCNT : Row := ⟨false, 0x80028, [], false, [⟨31, 0, .rc, 0⟩]⟩

/-- CAPT.ABLK (R306). COUNT [31:0] -/
def CAPT.ABLK : Row := ⟨false, 0x8003c, [], false, [⟨31, 0, .ro, 0⟩]⟩

/-- CAPT.ACTCTL (R306). EN [31]; K [28:24]; NOTE [23:20]; ACOUNT [19:10]; AFIRST [8:0] -/
def CAPT.ACTCTL : Row := ⟨false, 0x80030, [], false, [⟨31, 31, .rw, 0⟩, ⟨28, 24, .rw, 0⟩, ⟨23, 20, .rw, 0⟩, ⟨19, 10, .rw, 0⟩, ⟨8, 0, .rw, 0⟩]⟩

/-- CAPT.ANB (R306). COUNT [16:0] -/
def CAPT.ANB : Row := ⟨false, 0x80038, [], false, [⟨16, 0, .rw, 0⟩]⟩

/-- CAPT.TOUT (R306). XMASK [7:0] -/
def CAPT.TOUT : Row := ⟨false, 0x80040, [], false, [⟨7, 0, .rw, 0⟩]⟩

/-- TIME.CTL (R320). AUTOSW [8]; DOMSEL [4]; MODE [0] -/
def TIME.CTL : Row := ⟨true, 0x40000, [], false, [⟨8, 8, .rw, 0⟩, ⟨4, 4, .rw, 0⟩, ⟨0, 0, .rw, 0⟩]⟩

/-- TIME.STAT (R320). SLEWING [7]; LOCKB [5]; LOCKA [4]; CURDOM [3]; STEP [2]; SWITCH [1] -/
def TIME.STAT : Row := ⟨true, 0x40004, [], false, [⟨7, 7, .ro, 0⟩, ⟨5, 5, .ro, 0⟩, ⟨4, 4, .ro, 0⟩, ⟨3, 3, .ro, 0⟩, ⟨2, 2, .w1c, 0⟩, ⟨1, 1, .w1c, 0⟩]⟩

/-- TIME.NOWF (R320). FRAC; NS[31:0]; WRAP ‖ NS[47:32] [31:0] -/
def TIME.NOWF : Row := ⟨true, 0x40010, [], false, [⟨31, 0, .ro, 0⟩]⟩

/-- TIME.NOWL (R320). FRAC; NS[31:0]; WRAP ‖ NS[47:32] [31:0] -/
def TIME.NOWL : Row := ⟨true, 0x40014, [], false, [⟨31, 0, .ro, 0⟩]⟩

/-- TIME.NOWH (R320). FRAC; NS[31:0]; WRAP ‖ NS[47:32] [31:0] -/
def TIME.NOWH : Row := ⟨true, 0x40018, [], false, [⟨31, 0, .ro, 0⟩]⟩

/-- TIME.SETF (R320). As NOW [31:0] -/
def TIME.SETF : Row := ⟨true, 0x40020, [], false, [⟨31, 0, .rw, 0⟩]⟩

/-- TIME.SETL (R320). As NOW [31:0] -/
def TIME.SETL : Row := ⟨true, 0x40024, [], false, [⟨31, 0, .rw, 0⟩]⟩

/-- TIME.SETH (R320). As NOW [31:0] -/
def TIME.SETH : Row := ⟨true, 0x40028, [], false, [⟨31, 0, .rw, 0⟩]⟩

/-- TIME.SETCMD (R320). ADD [1]; LOAD [0] -/
def TIME.SETCMD : Row := ⟨true, 0x4002c, [], false, [⟨1, 1, .wo, 0⟩, ⟨0, 0, .wo, 0⟩]⟩

/-- TIME.INC (R320). INC [39:0] -/
def TIME.INC : Row := ⟨true, 0x40030, [], true, [⟨39, 0, .rw, 0x400000000⟩]⟩

/-- TIME.CURINC (R320). INC [39:0] -/
def TIME.CURINC : Row := ⟨true, 0x40038, [], true, [⟨39, 0, .ro, 0x400000000⟩]⟩

/-- TIME.NOMINC (R320). INC [39:0] -/
def TIME.NOMINC : Row := ⟨true, 0x40040, [], true, [⟨39, 0, .rw, 0x400000000⟩]⟩

/-- TIME.SLEWLIM (R320). LIM [31:0] -/
def TIME.SLEWLIM : Row := ⟨true, 0x40048, [], false, [⟨31, 0, .rw, 0x346dc5⟩]⟩

/-- TIME.D.CFG (R320). SRC [31:30]; KP [29:24]; KI [23:18]; QUAD [17:12]; LANE [11:10]; TIMINT [9:6]; LOCKN [5:2] -/
def TIME.D.CFG : Row := ⟨true, 0x40100, [(2, 0x80)], false, [⟨31, 30, .rw, 0⟩, ⟨29, 24, .rw, 0x14⟩, ⟨23, 18, .rw, 0x1c⟩, ⟨17, 12, .rw, 0⟩, ⟨11, 10, .rw, 0⟩, ⟨9, 6, .rw, 4⟩, ⟨5, 2, .rw, 8⟩]⟩

/-- TIME.D.STEPTH (R320). NS [31:0] -/
def TIME.D.STEPTH : Row := ⟨true, 0x40104, [(2, 0x80)], false, [⟨31, 0, .rw, 0x3e8⟩]⟩

/-- TIME.D.LOCK (R320). TIMEOUT [31:16]; LOCKTH [15:0] -/
def TIME.D.LOCK : Row := ⟨true, 0x40108, [(2, 0x80)], false, [⟨31, 16, .rw, 0x3e8⟩, ⟨15, 0, .rw, 0x10⟩]⟩

/-- TIME.D.ASYM (R320). A [31:0] -/
def TIME.D.ASYM : Row := ⟨true, 0x4010c, [(2, 0x80)], false, [⟨31, 0, .rw, 0⟩]⟩

/-- TIME.D.OFFSET (R320). NS [63:16]; FR [15:0] -/
def TIME.D.OFFSET : Row := ⟨true, 0x40110, [(2, 0x80)], true, [⟨63, 16, .rw, 0⟩, ⟨15, 0, .rw, 0⟩]⟩

/-- TIME.D.MNS (R320). NS [47:0] -/
def TIME.D.MNS : Row := ⟨true, 0x40118, [(2, 0x80)], true, [⟨47, 0, .rw, 0⟩]⟩

/-- TIME.D.INTEG (R320). I [31:0] -/
def TIME.D.INTEG : Row := ⟨true, 0x40120, [(2, 0x80)], false, [⟨31, 0, .rw, 0⟩]⟩

/-- TIME.D.DELTA (R320). D [31:0] -/
def TIME.D.DELTA : Row := ⟨true, 0x40124, [(2, 0x80)], false, [⟨31, 0, .ro, 0⟩]⟩

/-- TIME.D.OFS (R320). NS [63:16]; FR [15:0] -/
def TIME.D.OFS : Row := ⟨true, 0x40128, [(2, 0x80)], true, [⟨63, 16, .ro, 0⟩, ⟨15, 0, .ro, 0⟩]⟩

/-- TIME.D.LASTE (R320). NS [63:16]; FR [15:0] -/
def TIME.D.LASTE : Row := ⟨true, 0x40130, [(2, 0x80)], true, [⟨63, 16, .ro, 0⟩, ⟨15, 0, .ro, 0⟩]⟩

/-- TIME.D.PATH (R320). D [31:0] -/
def TIME.D.PATH : Row := ⟨true, 0x40138, [(2, 0x80)], false, [⟨31, 0, .ro, 0⟩]⟩

/-- TIME.D.STAT (R320). LOCK [31]; HOLDOVER [30] -/
def TIME.D.STAT : Row := ⟨true, 0x4013c, [(2, 0x80)], false, [⟨31, 31, .ro, 0⟩, ⟨30, 30, .ro, 0⟩]⟩

/-- TIME.D.EPOCH (R320). SEC [47:0] -/
def TIME.D.EPOCH : Row := ⟨true, 0x40140, [(2, 0x80)], true, [⟨47, 0, .rw, 0⟩]⟩

/-- TIME.D.EPOCHNS (R320). NS [29:0] -/
def TIME.D.EPOCHNS : Row := ⟨true, 0x40148, [(2, 0x80)], false, [⟨29, 0, .rw, 0⟩]⟩

/-- TIME.D.CNT (R320). MISS [31:16]; DISC [15:0] -/
def TIME.D.CNT : Row := ⟨true, 0x4014c, [(2, 0x80)], false, [⟨31, 16, .rc, 0⟩, ⟨15, 0, .rc, 0⟩]⟩

/-- TIME.TGT (R323). NS [47:0] -/
def TIME.TGT : Row := ⟨true, 0x40200, [(4, 0x10)], true, [⟨47, 0, .rw, 0⟩]⟩

/-- TIME.ALCTL (R323). LATE [2]; FIRED [1]; ARM [0] -/
def TIME.ALCTL : Row := ⟨true, 0x40208, [(4, 0x10)], false, [⟨2, 2, .w1c, 0⟩, ⟨1, 1, .w1c, 0⟩, ⟨0, 0, .rw, 0⟩]⟩

/-- ETH.CTL (R326). EN [31]; PHY [1:0] -/
def ETH.CTL : Row := ⟨true, 0x50000, [(2, 0x10000)], false, [⟨31, 31, .rw, 0⟩, ⟨1, 0, .rw, 0⟩]⟩

/-- ETH.STAT (R326). LINK [0] -/
def ETH.STAT : Row := ⟨true, 0x50004, [(2, 0x10000)], false, [⟨0, 0, .ro, 0⟩]⟩

/-- ETH.MAC (R326). ADDR [47:0] -/
def ETH.MAC : Row := ⟨true, 0x50008, [(2, 0x10000)], true, [⟨47, 0, .rw, 0⟩]⟩

/-- ETH.ILAT (R326). LAT [31:0] -/
def ETH.ILAT : Row := ⟨true, 0x50010, [(2, 0x10000)], false, [⟨31, 0, .rw, 0⟩]⟩

/-- ETH.ELAT (R326). LAT [31:0] -/
def ETH.ELAT : Row := ⟨true, 0x50014, [(2, 0x10000)], false, [⟨31, 0, .rw, 0⟩]⟩

/-- ETH.ASYM (R326). A [31:0] -/
def ETH.ASYM : Row := ⟨true, 0x50018, [(2, 0x10000)], false, [⟨31, 0, .rw, 0⟩]⟩

/-- ETH.TSINFO (R326). VALID [31]; DIR [30]; MTYPE [27:24]; DOMAIN [23:16]; SEQID [15:0] -/
def ETH.TSINFO : Row := ⟨true, 0x50020, [(2, 0x10000)], false, [⟨31, 31, .rc, 0⟩, ⟨30, 30, .ro, 0⟩, ⟨27, 24, .ro, 0⟩, ⟨23, 16, .ro, 0⟩, ⟨15, 0, .ro, 0⟩]⟩

/-- ETH.TSF (R326). As TIME.NOW [31:0] -/
def ETH.TSF : Row := ⟨true, 0x50024, [(2, 0x10000)], false, [⟨31, 0, .ro, 0⟩]⟩

/-- ETH.TSL (R326). As TIME.NOW [31:0] -/
def ETH.TSL : Row := ⟨true, 0x50028, [(2, 0x10000)], false, [⟨31, 0, .ro, 0⟩]⟩

/-- ETH.TSH (R326). As TIME.NOW [31:0] -/
def ETH.TSH : Row := ⟨true, 0x5002c, [(2, 0x10000)], false, [⟨31, 0, .ro, 0⟩]⟩

/-- ETH.TSDROP (R326). COUNT [31:0] -/
def ETH.TSDROP : Row := ⟨true, 0x50030, [(2, 0x10000)], false, [⟨31, 0, .rc, 0⟩]⟩

/-- PG.CTL (R335). EN [31]; PER [30]; TPOEN [29]; INV [28]; BUSMASK [23:16]; PACEMASK [15:8] -/
def PG.CTL : Row := ⟨true, 0x40400, [(8, 0x40)], false, [⟨31, 31, .rw, 0⟩, ⟨30, 30, .rw, 0⟩, ⟨29, 29, .rw, 0⟩, ⟨28, 28, .rw, 0⟩, ⟨23, 16, .rw, 0⟩, ⟨15, 8, .rw, 0⟩]⟩

/-- PG.STARTF (R335). FRAC [31:0] -/
def PG.STARTF : Row := ⟨true, 0x40404, [(8, 0x40)], false, [⟨31, 0, .rw, 0⟩]⟩

/-- PG.STARTL (R335). FRAC [31:0] -/
def PG.STARTL : Row := ⟨true, 0x40408, [(8, 0x40)], false, [⟨31, 0, .rw, 0⟩]⟩

/-- PG.STARTH (R335). NS[47:32] [15:0] -/
def PG.STARTH : Row := ⟨true, 0x4040c, [(8, 0x40)], false, [⟨15, 0, .rw, 0⟩]⟩

/-- PG.PERF (R335). FRAC [31:0] -/
def PG.PERF : Row := ⟨true, 0x40410, [(8, 0x40)], false, [⟨31, 0, .rw, 0⟩]⟩

/-- PG.PERNS (R335). FRAC [31:0] -/
def PG.PERNS : Row := ⟨true, 0x40414, [(8, 0x40)], false, [⟨31, 0, .rw, 0⟩]⟩

/-- PG.WIDTH (R335). NS [31:0] -/
def PG.WIDTH : Row := ⟨true, 0x40418, [(8, 0x40)], false, [⟨31, 0, .rw, 0⟩]⟩

/-- PG.COUNT (R335). N [31:0] -/
def PG.COUNT : Row := ⟨true, 0x4041c, [(8, 0x40)], false, [⟨31, 0, .rw, 0⟩]⟩

/-- PG.STAT (R335). RUN [31]; REJ [2]; LATE [1]; DONE [0] -/
def PG.STAT : Row := ⟨true, 0x40420, [(8, 0x40)], false, [⟨31, 31, .ro, 0⟩, ⟨2, 2, .w1c, 0⟩, ⟨1, 1, .w1c, 0⟩, ⟨0, 0, .w1c, 0⟩]⟩

/-- PG.NEXT (R335). NS [31:0] -/
def PG.NEXT : Row := ⟨true, 0x40424, [(8, 0x40)], false, [⟨31, 0, .ro, 0⟩]⟩

/-- PG.SKIPCNT (R335). COUNT [31:0] -/
def PG.SKIPCNT : Row := ⟨true, 0x40428, [(8, 0x40)], false, [⟨31, 0, .rc, 0⟩]⟩

/-- LINKQ.MAP (R358). V [31]; BLANE [12:8]; WIDTH [7:6]; VC [3:0] -/
def LINKQ.MAP : Row := ⟨false, 0xa0040, [(46, 0x4)], false, [⟨31, 31, .rw, 0⟩, ⟨12, 8, .rw, 0⟩, ⟨7, 6, .rw, 0⟩, ⟨3, 0, .rw, 0⟩]⟩

/-- LINKQ.CRED (R358). WORDS [11:0] -/
def LINKQ.CRED : Row := ⟨false, 0xa0140, [(46, 0x4)], false, [⟨11, 0, .ro, 0⟩]⟩

/-- LINKQ.STAT (R358). REJ [0] -/
def LINKQ.STAT : Row := ⟨false, 0xa0200, [], false, [⟨0, 0, .w1c, 0⟩]⟩

/-- LANE.CTL (R369). TRAIN [31]; DISABLE [30]; LOOP [29:28]; TEST [27]; TIMROLE [26:25]; BWIDTH [24:23]; AUTO [22] -/
def LANE.CTL : Row := ⟨true, 0x100000, [(64, 0x10000), (4, 0x4000)], false, [⟨31, 31, .wo, 0⟩, ⟨30, 30, .wo, 0⟩, ⟨29, 28, .rw, 0⟩, ⟨27, 27, .rw, 0⟩, ⟨26, 25, .rw, 0⟩, ⟨24, 23, .rw, 0⟩, ⟨22, 22, .rw, 0⟩]⟩

/-- LANE.STAT (R369). STATE [31:28]; CAUSE [27:24]; MAJOR [23:16]; MINOR [15:8]; CFGERR [2]; REJ [1]; PLOCK [0] -/
def LANE.STAT : Row := ⟨true, 0x100004, [(64, 0x10000), (4, 0x4000)], false, [⟨31, 28, .ro, 0⟩, ⟨27, 24, .ro, 0⟩, ⟨23, 16, .ro, 0⟩, ⟨15, 8, .ro, 0⟩, ⟨2, 2, .ro, 0⟩, ⟨1, 1, .w1c, 0⟩, ⟨0, 0, .ro, 0⟩]⟩

/-- LANE.EQTX (R369). TXPOL [31]; LORD [29:28]; PRE [20:16]; MAIN [13:8]; POST [4:0] -/
def LANE.EQTX : Row := ⟨true, 0x100008, [(64, 0x10000), (4, 0x4000)], false, [⟨31, 31, .rw, 0⟩, ⟨29, 28, .rw, 0⟩, ⟨20, 16, .rw, 0⟩, ⟨13, 8, .rw, 0⟩, ⟨4, 0, .rw, 0⟩]⟩

/-- LANE.EQRX (R369). RXPOL [31]; CTLE [27:24]; DFE1 [23:18]; DFE2 [17:12]; DFE3 [11:6] -/
def LANE.EQRX : Row := ⟨true, 0x10000c, [(64, 0x10000), (4, 0x4000)], false, [⟨31, 31, .rw, 0⟩, ⟨27, 24, .rw, 0⟩, ⟨23, 18, .rw, 0⟩, ⟨17, 12, .rw, 0⟩, ⟨11, 6, .rw, 0⟩]⟩

/-- LANE.RTT (R369). NS [31:0] -/
def LANE.RTT : Row := ⟨true, 0x100010, [(64, 0x10000), (4, 0x4000)], false, [⟨31, 0, .ro, 0⟩]⟩

/-- LANE.FECCE (R369). COUNT [31:0] -/
def LANE.FECCE : Row := ⟨true, 0x100020, [(64, 0x10000), (4, 0x4000)], false, [⟨31, 0, .rc, 0⟩]⟩

/-- LANE.FECUE (R369). COUNT [31:0] -/
def LANE.FECUE : Row := ⟨true, 0x100024, [(64, 0x10000), (4, 0x4000)], false, [⟨31, 0, .rc, 0⟩]⟩

/-- LANE.CRCERR (R369). COUNT [31:0] -/
def LANE.CRCERR : Row := ⟨true, 0x100028, [(64, 0x10000), (4, 0x4000)], false, [⟨31, 0, .rc, 0⟩]⟩

/-- LANE.RETRY (R369). COUNT [31:0] -/
def LANE.RETRY : Row := ⟨true, 0x10002c, [(64, 0x10000), (4, 0x4000)], false, [⟨31, 0, .rc, 0⟩]⟩

/-- LANE.COMMAMISS (R369). COUNT [31:0] -/
def LANE.COMMAMISS : Row := ⟨true, 0x100030, [(64, 0x10000), (4, 0x4000)], false, [⟨31, 0, .rc, 0⟩]⟩

/-- LANE.DOWN (R369). COUNT [31:0] -/
def LANE.DOWN : Row := ⟨true, 0x100034, [(64, 0x10000), (4, 0x4000)], false, [⟨31, 0, .rc, 0⟩]⟩

/-- LANE.UNMAP (R369). COUNT [31:0] -/
def LANE.UNMAP : Row := ⟨true, 0x100038, [(64, 0x10000), (4, 0x4000)], false, [⟨31, 0, .rc, 0⟩]⟩

/-- LANE.LOST (R369). COUNT [31:0] -/
def LANE.LOST : Row := ⟨true, 0x10003c, [(64, 0x10000), (4, 0x4000)], false, [⟨31, 0, .rc, 0⟩]⟩

/-- LANE.PRBSCTL (R369). GEN [31]; CHK [30]; POLY [2:0] -/
def LANE.PRBSCTL : Row := ⟨true, 0x100040, [(64, 0x10000), (4, 0x4000)], false, [⟨31, 31, .rw, 0⟩, ⟨30, 30, .rw, 0⟩, ⟨2, 0, .rw, 0⟩]⟩

/-- LANE.PRBSERR (R369). COUNT [31:0] -/
def LANE.PRBSERR : Row := ⟨true, 0x100044, [(64, 0x10000), (4, 0x4000)], false, [⟨31, 0, .rc, 0⟩]⟩

/-- LANE.PRBSBITS (R369). COUNT [63:0] -/
def LANE.PRBSBITS : Row := ⟨true, 0x100048, [(64, 0x10000), (4, 0x4000)], true, [⟨63, 0, .ro, 0⟩]⟩

/-- LANE.INJ (R369). MODE [31:30]; GO [29]; BURST [15:8]; LOG2 [5:0] -/
def LANE.INJ : Row := ⟨true, 0x100050, [(64, 0x10000), (4, 0x4000)], false, [⟨31, 30, .rw, 0⟩, ⟨29, 29, .wo, 0⟩, ⟨15, 8, .rw, 0⟩, ⟨5, 0, .rw, 0⟩]⟩

/-- LANE.ESCTL (R369). START [31]; BUSY [30]; DONE [29]; EYE [28:27]; PHASE [26:21]; VOLT [20:14]; DWELL [5:0] -/
def LANE.ESCTL : Row := ⟨true, 0x100060, [(64, 0x10000), (4, 0x4000)], false, [⟨31, 31, .wo, 0⟩, ⟨30, 30, .ro, 0⟩, ⟨29, 29, .w1c, 0⟩, ⟨28, 27, .rw, 0⟩, ⟨26, 21, .rw, 0⟩, ⟨20, 14, .rw, 0⟩, ⟨5, 0, .rw, 0x14⟩]⟩

/-- LANE.ESERR (R369). COUNT [63:0] -/
def LANE.ESERR : Row := ⟨true, 0x100068, [(64, 0x10000), (4, 0x4000)], true, [⟨63, 0, .ro, 0⟩]⟩

/-- LANE.QCTL (R369). KEEP [31]; PLL [1]; RATE [0] -/
def LANE.QCTL : Row := ⟨true, 0x103f00, [(64, 0x10000)], false, [⟨31, 31, .rw, 0⟩, ⟨1, 1, .ro, 0⟩, ⟨0, 0, .rw, 0⟩]⟩

/-- SYS.CFG (R403). ROLE [31:30]; NODE [22:16]; NWORK [6:0] -/
def SYS.CFG : Row := ⟨true, 0xb0000, [], false, [⟨31, 30, .ro, 0⟩, ⟨22, 16, .ro, 0⟩, ⟨6, 0, .ro, 0⟩]⟩

/-- SYS.STAT (R403). STAGE [31:28]; HOPS [19:16]; COUNT [6:0] -/
def SYS.STAT : Row := ⟨true, 0xb0004, [], false, [⟨31, 28, .ro, 0⟩, ⟨19, 16, .ro, 0⟩, ⟨6, 0, .ro, 0⟩]⟩

/-- SYS.PARENT (R403). V [31]; QUAD [13:8]; LANE [1:0] -/
def SYS.PARENT : Row := ⟨true, 0xb0008, [], false, [⟨31, 31, .ro, 0⟩, ⟨13, 8, .ro, 0⟩, ⟨1, 0, .ro, 0⟩]⟩

/-- SYS.FWDDROP (R403). COUNT [31:0] -/
def SYS.FWDDROP : Row := ⟨true, 0xb000c, [], false, [⟨31, 0, .rc, 0⟩]⟩

/-- SYS.READYT (R403). NS [47:0] -/
def SYS.READYT : Row := ⟨true, 0xb0010, [], true, [⟨47, 0, .ro, 0⟩]⟩

/-- TWIN.CTL (R403). EN [31]; PRIMARY [30]; MSEC [18:16]; MLANE [4:0] -/
def TWIN.CTL : Row := ⟨true, 0xa0000, [], false, [⟨31, 31, .ro, 0⟩, ⟨30, 30, .ro, 0⟩, ⟨18, 16, .ro, 0⟩, ⟨4, 0, .ro, 0⟩]⟩

/-- TWIN.LAG (R403). LAGMAX [15:0] -/
def TWIN.LAG : Row := ⟨true, 0xa0004, [], false, [⟨15, 0, .rw, 0x100⟩]⟩

/-- TWIN.STAT (R403). STATE [31:28]; CAUSE [27:24]; ACTPRI [0] -/
def TWIN.STAT : Row := ⟨true, 0xa0008, [], false, [⟨31, 28, .ro, 0⟩, ⟨27, 24, .ro, 0⟩, ⟨0, 0, .ro, 0⟩]⟩

/-- TWIN.HBMISS (R403). COUNT [31:0] -/
def TWIN.HBMISS : Row := ⟨true, 0xa000c, [], false, [⟨31, 0, .rc, 0⟩]⟩

/-- TWIN.DIGCMP (R403). COUNT [31:0] -/
def TWIN.DIGCMP : Row := ⟨true, 0xa0010, [], false, [⟨31, 0, .rc, 0⟩]⟩

/-- TWIN.FOCNT (R403). COUNT [31:0] -/
def TWIN.FOCNT : Row := ⟨true, 0xa0014, [], false, [⟨31, 0, .rc, 0⟩]⟩

/-- TWIN.SDIG (R403). DIG [63:0] -/
def TWIN.SDIG : Row := ⟨true, 0xa0100, [(8, 0x8)], true, [⟨63, 0, .ro, 0⟩]⟩

/-- HQ.CTL (R418). OPEN [1]; EN [0] -/
def HQ.CTL : Row := ⟨true, 0x80000, [(9, 0x1000)], false, [⟨1, 1, .ro, 0⟩, ⟨0, 0, .rw, 0⟩]⟩

/-- HQ.STAT (R418). RINGERR [2]; REJ [1]; BUSY [0] -/
def HQ.STAT : Row := ⟨true, 0x80004, [(9, 0x1000)], false, [⟨2, 2, .w1c, 0⟩, ⟨1, 1, .w1c, 0⟩, ⟨0, 0, .ro, 0⟩]⟩

/-- HQ.CMDBASE (R418). ADDR [63:6] -/
def HQ.CMDBASE : Row := ⟨true, 0x80008, [(9, 0x1000)], true, [⟨63, 6, .rw, 0⟩]⟩

/-- HQ.CMDCFG (R418). LOG2N [3:0] -/
def HQ.CMDCFG : Row := ⟨true, 0x80010, [(9, 0x1000)], false, [⟨3, 0, .rw, 4⟩]⟩

/-- HQ.CMDTAIL (R418). IDX [11:0] -/
def HQ.CMDTAIL : Row := ⟨true, 0x80014, [(9, 0x1000)], false, [⟨11, 0, .rw, 0⟩]⟩

/-- HQ.CMDHEAD (R418). IDX [11:0] -/
def HQ.CMDHEAD : Row := ⟨true, 0x80018, [(9, 0x1000)], false, [⟨11, 0, .ro, 0⟩]⟩

/-- HQ.CPLBASE (R418). ADDR [63:6] -/
def HQ.CPLBASE : Row := ⟨true, 0x80020, [(9, 0x1000)], true, [⟨63, 6, .rw, 0⟩]⟩

/-- HQ.CPLCFG (R418). LOG2N [3:0] -/
def HQ.CPLCFG : Row := ⟨true, 0x80028, [(9, 0x1000)], false, [⟨3, 0, .rw, 4⟩]⟩

/-- HQ.CPLHEAD (R418). IDX [11:0] -/
def HQ.CPLHEAD : Row := ⟨true, 0x8002c, [(9, 0x1000)], false, [⟨11, 0, .rw, 0⟩]⟩

/-- HQ.CPLTAIL (R418). PHASE [16]; IDX [11:0] -/
def HQ.CPLTAIL : Row := ⟨true, 0x80030, [(9, 0x1000)], false, [⟨16, 16, .ro, 1⟩, ⟨11, 0, .ro, 0⟩]⟩

/-- HQ.IRQ (R418). COALT [31:24]; COALN [23:16]; NOTVEC [13:8]; CPLVEC [5:0] -/
def HQ.IRQ : Row := ⟨true, 0x80034, [(9, 0x1000)], false, [⟨31, 24, .rw, 0⟩, ⟨23, 16, .rw, 0⟩, ⟨13, 8, .rw, 0⟩, ⟨5, 0, .rw, 0⟩]⟩

/-- HQ.NLOST (R418). COUNT [31:0] -/
def HQ.NLOST : Row := ⟨true, 0x80038, [(9, 0x1000)], false, [⟨31, 0, .rc, 0⟩]⟩

/-- HQ.NCOPY (R418). MASK [7:0] -/
def HQ.NCOPY : Row := ⟨true, 0x8003c, [], false, [⟨7, 0, .rw, 0⟩]⟩

/-- HQ.BADACC (R418). COUNT [31:0] -/
def HQ.BADACC : Row := ⟨true, 0x80040, [(9, 0x1000)], false, [⟨31, 0, .rc, 0⟩]⟩

/-- SDMA.CTL (R439). GO [31]; HALT [30]; WDRAW [29]; DSPACE [8]; VEC [5:0] -/
def SDMA.CTL : Row := ⟨false, 0x30000, [(4, 0x1000)], false, [⟨31, 31, .wo, 0⟩, ⟨30, 30, .wo, 0⟩, ⟨29, 29, .wo, 0⟩, ⟨8, 8, .rw, 0⟩, ⟨5, 0, .rw, 0⟩]⟩

/-- HDMA.CTL (R439). GO [31]; HALT [30]; WDRAW [29]; DSPACE [8]; VEC [5:0] -/
def HDMA.CTL : Row := ⟨true, 0x90000, [(2, 0x1000)], false, [⟨31, 31, .wo, 0⟩, ⟨30, 30, .wo, 0⟩, ⟨29, 29, .wo, 0⟩, ⟨8, 8, .rw, 0⟩, ⟨5, 0, .rw, 0⟩]⟩

/-- SDMA.STAT (R439). STATE [31:28]; ERR [27:24]; DBPEND [2]; REJ [1] -/
def SDMA.STAT : Row := ⟨false, 0x30004, [(4, 0x1000)], false, [⟨31, 28, .ro, 0⟩, ⟨27, 24, .ro, 0⟩, ⟨2, 2, .ro, 0⟩, ⟨1, 1, .w1c, 0⟩]⟩

/-- HDMA.STAT (R439). STATE [31:28]; ERR [27:24]; DBPEND [2]; REJ [1] -/
def HDMA.STAT : Row := ⟨true, 0x90004, [(2, 0x1000)], false, [⟨31, 28, .ro, 0⟩, ⟨27, 24, .ro, 0⟩, ⟨2, 2, .ro, 0⟩, ⟨1, 1, .w1c, 0⟩]⟩

/-- SDMA.DESC (R439). ADDR [63:5] -/
def SDMA.DESC : Row := ⟨false, 0x30008, [(4, 0x1000)], true, [⟨63, 5, .rw, 0⟩]⟩

/-- HDMA.DESC (R439). ADDR [63:5] -/
def HDMA.DESC : Row := ⟨true, 0x90008, [(2, 0x1000)], true, [⟨63, 5, .rw, 0⟩]⟩

/-- SDMA.SKIP (R439). LINES [31:0] -/
def SDMA.SKIP : Row := ⟨false, 0x30010, [(4, 0x1000)], false, [⟨31, 0, .rw, 0⟩]⟩

/-- HDMA.SKIP (R439). LINES [31:0] -/
def HDMA.SKIP : Row := ⟨true, 0x90010, [(2, 0x1000)], false, [⟨31, 0, .rw, 0⟩]⟩

/-- SDMA.LINES (R439). COUNT [31:0] -/
def SDMA.LINES : Row := ⟨false, 0x30014, [(4, 0x1000)], false, [⟨31, 0, .ro, 0⟩]⟩

/-- HDMA.LINES (R439). COUNT [31:0] -/
def HDMA.LINES : Row := ⟨true, 0x90014, [(2, 0x1000)], false, [⟨31, 0, .ro, 0⟩]⟩

/-- SDMA.DONECNT (R439). COUNT [31:0] -/
def SDMA.DONECNT : Row := ⟨false, 0x30018, [(4, 0x1000)], false, [⟨31, 0, .ro, 0⟩]⟩

/-- HDMA.DONECNT (R439). COUNT [31:0] -/
def HDMA.DONECNT : Row := ⟨true, 0x90018, [(2, 0x1000)], false, [⟨31, 0, .ro, 0⟩]⟩

/-- SDMA.DOORBELL (R439).  -/
def SDMA.DOORBELL : Row := ⟨false, 0x30020, [(4, 0x1000)], false, []⟩

/-- HDMA.DOORBELL (R439).  -/
def HDMA.DOORBELL : Row := ⟨true, 0x90020, [(2, 0x1000)], false, []⟩

/-- SDMA.BYTES (R439). COUNT [63:0] -/
def SDMA.BYTES : Row := ⟨false, 0x30028, [(4, 0x1000)], true, [⟨63, 0, .ro, 0⟩]⟩

/-- HDMA.BYTES (R439). COUNT [63:0] -/
def HDMA.BYTES : Row := ⟨true, 0x90028, [(2, 0x1000)], true, [⟨63, 0, .ro, 0⟩]⟩

/-- SDMA.HWIN (R439). INDEX [5:0] -/
def SDMA.HWIN : Row := ⟨false, 0x38000, [], false, [⟨5, 0, .rw, 0⟩]⟩

/-- SNOC.FSTAT (R459). SECT [16]; BANK [15:0] -/
def SNOC.FSTAT : Row := ⟨false, 0x20000, [], false, [⟨16, 16, .ro, 0⟩, ⟨15, 0, .ro, 0⟩]⟩

/-- SNOC.PDROP (R459). COUNT [31:0] -/
def SNOC.PDROP : Row := ⟨false, 0x20008, [], false, [⟨31, 0, .rc, 0⟩]⟩

/-- SNOC.INTCNT (R459). COUNT [31:0] -/
def SNOC.INTCNT : Row := ⟨false, 0x2000c, [], false, [⟨31, 0, .rc, 0⟩]⟩

/-- SNOC.INTLOG (R459). VALID [31]; POINT [2:0] -/
def SNOC.INTLOG : Row := ⟨false, 0x20010, [], false, [⟨31, 31, .w1c, 0⟩, ⟨2, 0, .ro, 0⟩]⟩

/-- SNOC.INTADDR (R459). LINE [31:0] -/
def SNOC.INTADDR : Row := ⟨false, 0x20014, [], false, [⟨31, 0, .ro, 0⟩]⟩

/-- SNOC.RTSEL (R459). ROUTER [11:8]; TARGET [5:0] -/
def SNOC.RTSEL : Row := ⟨false, 0x20020, [], false, [⟨11, 8, .rw, 0⟩, ⟨5, 0, .rw, 0⟩]⟩

/-- SNOC.RTDATA (R459). ACTIVE [18:16]; SHADOW [2:0] -/
def SNOC.RTDATA : Row := ⟨false, 0x20024, [], false, [⟨18, 16, .ro, 0⟩, ⟨2, 0, .rw, 0⟩]⟩

/-- SNOC.RTCMD (R459). SWAP [31] -/
def SNOC.RTCMD : Row := ⟨false, 0x20028, [], false, [⟨31, 31, .wo, 0⟩]⟩

/-- SNOC.RTSTAT (R459). BUSY [31]; ABORT [30]; REJ [29] -/
def SNOC.RTSTAT : Row := ⟨false, 0x2002c, [], false, [⟨31, 31, .ro, 0⟩, ⟨30, 30, .w1c, 0⟩, ⟨29, 29, .w1c, 0⟩]⟩

/-- SNOC.RCCNT (R459). COUNT [31:0] -/
def SNOC.RCCNT : Row := ⟨false, 0x20030, [], false, [⟨31, 0, .rc, 0⟩]⟩

/-- SNOC.RCSTALL (R459). NS [31:0] -/
def SNOC.RCSTALL : Row := ⟨false, 0x20034, [], false, [⟨31, 0, .rc, 0⟩]⟩

/-- SNOC.RTPORTS (R459). PORTS [44:0] -/
def SNOC.RTPORTS : Row := ⟨false, 0x20038, [], true, [⟨44, 0, .rw, 0⟩]⟩

/-- SNOC.STCTL (R459). FREEZE [31]; CLR [30]; WSHIFT [3:0] -/
def SNOC.STCTL : Row := ⟨false, 0x20040, [], false, [⟨31, 31, .rw, 0⟩, ⟨30, 30, .wo, 0⟩, ⟨3, 0, .rw, 3⟩]⟩

/-- SNOC.URGCNT (R459). COUNT [31:0] -/
def SNOC.URGCNT : Row := ⟨false, 0x20100, [(16, 0x4)], false, [⟨31, 0, .rc, 0⟩]⟩

/-- SNOC.REQ (R459). COUNT [63:0] -/
def SNOC.REQ : Row := ⟨false, 0x21000, [(16, 0x80)], true, [⟨63, 0, .ro, 0⟩]⟩

/-- SNOC.BYTES (R459). COUNT [63:0] -/
def SNOC.BYTES : Row := ⟨false, 0x21008, [(16, 0x80)], true, [⟨63, 0, .ro, 0⟩]⟩

/-- SNOC.LATSUM (R459). CYC [63:0] -/
def SNOC.LATSUM : Row := ⟨false, 0x21010, [(16, 0x80)], true, [⟨63, 0, .ro, 0⟩]⟩

/-- SNOC.LATMIN (R459). CYC [31:0] -/
def SNOC.LATMIN : Row := ⟨false, 0x21018, [(16, 0x80)], false, [⟨31, 0, .ro, 0xffffffff⟩]⟩

/-- SNOC.LATMAX (R459). CYC [31:0] -/
def SNOC.LATMAX : Row := ⟨false, 0x2101c, [(16, 0x80)], false, [⟨31, 0, .ro, 0⟩]⟩

/-- SNOC.HIST (R459). COUNT [31:0] -/
def SNOC.HIST : Row := ⟨false, 0x21020, [(16, 0x80), (8, 0x4)], false, [⟨31, 0, .ro, 0⟩]⟩

/-- STRC.BCTL (R476). EN [31]; MODE [30]; CLR [29] -/
def STRC.BCTL : Row := ⟨false, 0x90000, [], false, [⟨31, 31, .rw, 0⟩, ⟨30, 30, .rw, 0⟩, ⟨29, 29, .wo, 0⟩]⟩

/-- HTRC.BCTL (R476). EN [31]; MODE [30]; CLR [29] -/
def HTRC.BCTL : Row := ⟨true, 0x800000, [], false, [⟨31, 31, .rw, 0⟩, ⟨30, 30, .rw, 0⟩, ⟨29, 29, .wo, 0⟩]⟩

/-- STRC.BSTAT (R476). FULL [31]; CLRBUSY [30]; WPTR [13:0] -/
def STRC.BSTAT : Row := ⟨false, 0x90004, [], false, [⟨31, 31, .ro, 0⟩, ⟨30, 30, .ro, 0⟩, ⟨13, 0, .ro, 0⟩]⟩

/-- HTRC.BSTAT (R476). FULL [31]; CLRBUSY [30]; WPTR [13:0] -/
def HTRC.BSTAT : Row := ⟨true, 0x800004, [], false, [⟨31, 31, .ro, 0⟩, ⟨30, 30, .ro, 0⟩, ⟨13, 0, .ro, 0⟩]⟩

/-- STRC.WRAPS (R476). COUNT [31:0] -/
def STRC.WRAPS : Row := ⟨false, 0x90008, [], false, [⟨31, 0, .ro, 0⟩]⟩

/-- HTRC.WRAPS (R476). COUNT [31:0] -/
def HTRC.WRAPS : Row := ⟨true, 0x800008, [], false, [⟨31, 0, .ro, 0⟩]⟩

/-- STRC.PAGE (R476). PAGE [2:0] -/
def STRC.PAGE : Row := ⟨false, 0x9000c, [], false, [⟨2, 0, .rw, 0⟩]⟩

/-- HTRC.PAGE (R476). PAGE [2:0] -/
def HTRC.PAGE : Row := ⟨true, 0x80000c, [], false, [⟨2, 0, .rw, 0⟩]⟩

/-- STRC.DLOST (R476). COUNT [31:0] -/
def STRC.DLOST : Row := ⟨false, 0x90010, [], false, [⟨31, 0, .rc, 0⟩]⟩

/-- HTRC.DLOST (R476). COUNT [31:0] -/
def HTRC.DLOST : Row := ⟨true, 0x800010, [], false, [⟨31, 0, .rc, 0⟩]⟩

/-- STRC.TCTL (R476). EN [31]; STALL [30]; INSN [29]; DATA [28:27] -/
def STRC.TCTL : Row := ⟨false, 0x91000, [(9, 0x200)], false, [⟨31, 31, .rw, 0⟩, ⟨30, 30, .rw, 0⟩, ⟨29, 29, .rw, 0⟩, ⟨28, 27, .rw, 0⟩]⟩

/-- HTRC.TCTL (R476). EN [31]; STALL [30]; INSN [29]; DATA [28:27] -/
def HTRC.TCTL : Row := ⟨true, 0x801000, [], false, [⟨31, 31, .rw, 0⟩, ⟨30, 30, .rw, 0⟩, ⟨29, 29, .rw, 0⟩, ⟨28, 27, .rw, 0⟩]⟩

/-- STRC.TSTAT (R476). ACTIVE [31]; SLEEP [30]; REJ [5]; LEVEL [4:0] -/
def STRC.TSTAT : Row := ⟨false, 0x91004, [(9, 0x200)], false, [⟨31, 31, .ro, 0⟩, ⟨30, 30, .ro, 0⟩, ⟨5, 5, .w1c, 0⟩, ⟨4, 0, .ro, 0⟩]⟩

/-- HTRC.TSTAT (R476). ACTIVE [31]; SLEEP [30]; REJ [5]; LEVEL [4:0] -/
def HTRC.TSTAT : Row := ⟨true, 0x801004, [], false, [⟨31, 31, .ro, 0⟩, ⟨30, 30, .ro, 0⟩, ⟨5, 5, .w1c, 0⟩, ⟨4, 0, .ro, 0⟩]⟩

/-- STRC.LOST (R476). COUNT [31:0] -/
def STRC.LOST : Row := ⟨false, 0x91008, [(9, 0x200)], false, [⟨31, 0, .rc, 0⟩]⟩

/-- HTRC.LOST (R476). COUNT [31:0] -/
def HTRC.LOST : Row := ⟨true, 0x801008, [], false, [⟨31, 0, .rc, 0⟩]⟩

/-- STRC.CMP.ADDR (R476). ADDR [39:0] -/
def STRC.CMP.ADDR : Row := ⟨false, 0x91020, [(9, 0x200), (8, 0x10)], true, [⟨39, 0, .rw, 0⟩]⟩

/-- HTRC.CMP.ADDR (R476). ADDR [39:0] -/
def HTRC.CMP.ADDR : Row := ⟨true, 0x801020, [(8, 0x10)], true, [⟨39, 0, .rw, 0⟩]⟩

/-- STRC.CMP.CFG (R476). TYPE [31:30]; ACTION [29:28] -/
def STRC.CMP.CFG : Row := ⟨false, 0x91028, [(9, 0x200), (8, 0x10)], false, [⟨31, 30, .rw, 0⟩, ⟨29, 28, .rw, 0⟩]⟩

/-- HTRC.CMP.CFG (R476). TYPE [31:30]; ACTION [29:28] -/
def HTRC.CMP.CFG : Row := ⟨true, 0x801028, [(8, 0x10)], false, [⟨31, 30, .rw, 0⟩, ⟨29, 28, .rw, 0⟩]⟩

/-- STRC.RNG.LO (R476). LO [39:0] -/
def STRC.RNG.LO : Row := ⟨false, 0x91100, [(9, 0x200), (4, 0x20)], true, [⟨39, 0, .rw, 0⟩]⟩

/-- HTRC.RNG.LO (R476). LO [39:0] -/
def HTRC.RNG.LO : Row := ⟨true, 0x801100, [(4, 0x20)], true, [⟨39, 0, .rw, 0⟩]⟩

/-- STRC.RNG.HI (R476). HI [39:0] -/
def STRC.RNG.HI : Row := ⟨false, 0x91108, [(9, 0x200), (4, 0x20)], true, [⟨39, 0, .rw, 0⟩]⟩

/-- HTRC.RNG.HI (R476). HI [39:0] -/
def HTRC.RNG.HI : Row := ⟨true, 0x801108, [(4, 0x20)], true, [⟨39, 0, .rw, 0⟩]⟩

/-- STRC.RNG.CFG (R476). TYPE [31:30] -/
def STRC.RNG.CFG : Row := ⟨false, 0x91110, [(9, 0x200), (4, 0x20)], false, [⟨31, 30, .rw, 0⟩]⟩

/-- HTRC.RNG.CFG (R476). TYPE [31:30] -/
def HTRC.RNG.CFG : Row := ⟨true, 0x801110, [(4, 0x20)], false, [⟨31, 30, .rw, 0⟩]⟩

/-- BOOT.STAT (R496). STAGE [31:28]; BACKUP [27]; MODE [25:24]; CAUSEB [23:16]; CAUSEA [15:8] -/
def BOOT.STAT : Row := ⟨true, 0x30000, [], false, [⟨31, 28, .ro, 0⟩, ⟨27, 27, .ro, 0⟩, ⟨25, 24, .ro, 0⟩, ⟨23, 16, .ro, 0⟩, ⟨15, 8, .ro, 0⟩]⟩

/-- BOOT.BOOTUS (R496). US [31:0] -/
def BOOT.BOOTUS : Row := ⟨true, 0x30004, [], false, [⟨31, 0, .ro, 0⟩]⟩

/-- BOOT.SECVER (R496). SECVER [31:0] -/
def BOOT.SECVER : Row := ⟨true, 0x30008, [], false, [⟨31, 0, .ro, 0⟩]⟩

/-- BOOT.CMD (R496). ADVANCE [0] -/
def BOOT.CMD : Row := ⟨true, 0x3000c, [], false, [⟨0, 0, .wo, 0⟩]⟩

/-- BOOT.OTPSTAT (R496). RVREF [24]; ROLLBACK [23:16]; IREVS [15:12]; IREVR [11:8]; REVS [7:4]; REVR [3:0] -/
def BOOT.OTPSTAT : Row := ⟨true, 0x30010, [], false, [⟨24, 24, .w1c, 0⟩, ⟨23, 16, .ro, 0⟩, ⟨15, 12, .ro, 0⟩, ⟨11, 8, .ro, 0⟩, ⟨7, 4, .ro, 0⟩, ⟨3, 0, .ro, 0⟩]⟩

/-- BOOT.OTPSLOT (R496). LOCK [8]; PROGS [7:4]; PROGR [3:0] -/
def BOOT.OTPSLOT : Row := ⟨true, 0x30014, [], false, [⟨8, 8, .ro, 0⟩, ⟨7, 4, .ro, 0⟩, ⟨3, 0, .ro, 0⟩]⟩

/-- BOOT.SERIAL (R496). SN [63:0] -/
def BOOT.SERIAL : Row := ⟨true, 0x30018, [], true, [⟨63, 0, .ro, 0⟩]⟩

/-- BOOT.FLADDR (R496). ADDR [31:0] -/
def BOOT.FLADDR : Row := ⟨true, 0x30020, [], false, [⟨31, 0, .rw, 0⟩]⟩

/-- BOOT.FLCMD (R496). GO [31]; BUSY [30]; ERR [29]; OP [3:0] -/
def BOOT.FLCMD : Row := ⟨true, 0x30024, [], false, [⟨31, 31, .wo, 0⟩, ⟨30, 30, .ro, 0⟩, ⟨29, 29, .w1c, 0⟩, ⟨3, 0, .rw, 0⟩]⟩

/-- BOOT.ASTAT (R496). STATUS [31:16]; STATE [2:0] -/
def BOOT.ASTAT : Row := ⟨true, 0x30028, [], false, [⟨31, 16, .ro, 0⟩, ⟨2, 0, .ro, 0⟩]⟩

/-- BOOT.OTPPROG (R496). GO [31]; BUSY [30]; ERR [29]; LOCK [8]; ALG [4]; SLOT [1:0] -/
def BOOT.OTPPROG : Row := ⟨true, 0x30030, [], false, [⟨31, 31, .wo, 0⟩, ⟨30, 30, .ro, 0⟩, ⟨29, 29, .w1c, 0⟩, ⟨8, 8, .rw, 0⟩, ⟨4, 4, .rw, 0⟩, ⟨1, 0, .rw, 0⟩]⟩

/-- BOOT.FLBUF (R496). DATA [31:0] -/
def BOOT.FLBUF : Row := ⟨true, 0x30100, [(64, 0x4)], false, [⟨31, 0, .rw, 0⟩]⟩

/-- BOOT.CERT (R496). DATA [31:0] -/
def BOOT.CERT : Row := ⟨true, 0x38000, [(8192, 0x4)], false, [⟨31, 0, .ro, 0⟩]⟩

/-- PWR.MON (R511). REC [2]; EPISODE [1]; WARN [0] -/
def PWR.MON : Row := ⟨true, 0x10000, [], false, [⟨2, 2, .ro, 0⟩, ⟨1, 1, .ro, 0⟩, ⟨0, 0, .ro, 0⟩]⟩

/-- PWR.BOCNT (R511). COUNT [31:0] -/
def PWR.BOCNT : Row := ⟨true, 0x10004, [], false, [⟨31, 0, .rc, 0⟩]⟩

/-- PWR.BOLAST (R511). NS [31:0] -/
def PWR.BOLAST : Row := ⟨true, 0x10008, [], false, [⟨31, 0, .ro, 0⟩]⟩

/-- PWR.RSTCAUSE (R511). CLOCK [5]; THERMAL [4]; OTHERSUP [3]; CORESUP [2]; SYS [1]; POR [0] -/
def PWR.RSTCAUSE : Row := ⟨true, 0x1000c, [], false, [⟨5, 5, .w1c, 0⟩, ⟨4, 4, .w1c, 0⟩, ⟨3, 3, .w1c, 0⟩, ⟨2, 2, .w1c, 0⟩, ⟨1, 1, .w1c, 0⟩, ⟨0, 0, .w1c, 1⟩]⟩

/-- PWR.THCTL (R511). EN [31]; DUTY [18:16]; HYST [15:8]; HI [7:0] -/
def PWR.THCTL : Row := ⟨true, 0x10010, [], false, [⟨31, 31, .rw, 1⟩, ⟨18, 16, .rw, 4⟩, ⟨15, 8, .rw, 5⟩, ⟨7, 0, .rw, 0x5f⟩]⟩

/-- PWR.THSTAT (R511). THROT [31]; HOT [3:0] -/
def PWR.THSTAT : Row := ⟨true, 0x10014, [], false, [⟨31, 31, .ro, 0⟩, ⟨3, 0, .ro, 0⟩]⟩

/-- PWR.TEMP (R511). DEGC [9:0] -/
def PWR.TEMP : Row := ⟨true, 0x10020, [(9, 0x4)], false, [⟨9, 0, .ro, 0⟩]⟩

/-- PWR.SECT.CTL (R511). SRST [1]; ON [0] -/
def PWR.SECT.CTL : Row := ⟨true, 0x10100, [(8, 0x10)], false, [⟨1, 1, .wo, 0⟩, ⟨0, 0, .rw, 0⟩]⟩

/-- PWR.SECT.STAT (R511). BUSY [31]; PSTATE [30:29]; STATE [2:0] -/
def PWR.SECT.STAT : Row := ⟨true, 0x10104, [(8, 0x10)], false, [⟨31, 31, .ro, 0⟩, ⟨30, 29, .ro, 0⟩, ⟨2, 0, .ro, 0⟩]⟩

/-- CLK.STAT (R511). HBMPLL [3]; CPLL [2]; REFOK [1] -/
def CLK.STAT : Row := ⟨true, 0x20000, [], false, [⟨3, 3, .ro, 0⟩, ⟨2, 2, .ro, 0⟩, ⟨1, 1, .ro, 0⟩]⟩

/-- CLK.REFPPM (R511). PPM [15:0] -/
def CLK.REFPPM : Row := ⟨true, 0x20004, [], false, [⟨15, 0, .ro, 0⟩]⟩

/-- DIO.CELL (R526). PARK [11:10]; STATE [9:8]; IN [7]; DRIVE [5:4]; SLEW [3]; PULL [1:0] -/
def DIO.CELL : Row := ⟨true, 0xd0000, [(96, 0x4)], false, [⟨11, 10, .ro, 0⟩, ⟨9, 8, .ro, 0⟩, ⟨7, 7, .ro, 0⟩, ⟨5, 4, .rw, 1⟩, ⟨3, 3, .rw, 0⟩, ⟨1, 0, .rw, 0⟩]⟩

/-- DIO.IN (R526). LEVEL [31:0] -/
def DIO.IN : Row := ⟨true, 0xd0200, [(3, 0x4)], false, [⟨31, 0, .ro, 0⟩]⟩

/-- DIO.BANK (R526). PGOOD [31]; LEVEL [30:28] -/
def DIO.BANK : Row := ⟨true, 0xd0300, [(4, 0x4)], false, [⟨31, 31, .ro, 0⟩, ⟨30, 28, .ro, 0⟩]⟩

/-- DEV.ACCERR (R542). VALID [31]; KIND [30:28]; SRC [27:24]; SECT [23:21] -/
def DEV.ACCERR : Row := ⟨true, 0x40, [], false, [⟨31, 31, .w1c, 0⟩, ⟨30, 28, .ro, 0⟩, ⟨27, 24, .ro, 0⟩, ⟨23, 21, .ro, 0⟩]⟩

/-- DEV.ACCADDR (R542). OFFSET [25:0] -/
def DEV.ACCADDR : Row := ⟨true, 0x44, [], false, [⟨25, 0, .ro, 0⟩]⟩

/-- DEV.ACCCNT (R542). COUNT [31:0] -/
def DEV.ACCCNT : Row := ⟨true, 0x48, [], false, [⟨31, 0, .rc, 0⟩]⟩

/-- DEV.IDENT (R544). STEPPING [31:24]; PART [15:0] -/
def DEV.IDENT : Row := ⟨true, 0x0, [], false, [⟨31, 24, .ro, 0xb0⟩, ⟨15, 0, .ro, 0x980⟩]⟩

/-- DEV.PCIID (R544). SECTID [31:16]; MGMTID [15:0] -/
def DEV.PCIID : Row := ⟨true, 0x4, [], false, [⟨31, 16, .ro, 0x99⟩, ⟨15, 0, .ro, 0x98⟩]⟩

/-- DEV.HINTCNT (R544). COUNT [31:0] -/
def DEV.HINTCNT : Row := ⟨true, 0x50, [], false, [⟨31, 0, .rc, 0⟩]⟩

/-- CAPT.DEC.CTL (R298). PROTO [31:29]; OP [28:26]; PARAM [25:0] -/
def CAPT.DEC.CTL : Row := ⟨false, 0x80300, [(4, 0x40)], false, [⟨31, 29, .rw, 0⟩, ⟨28, 26, .rw, 0⟩, ⟨25, 0, .rw, 0⟩]⟩

/-- CAPT.DEC.LINE01 (R298). L1 [28:16]; L0 [12:0] -/
def CAPT.DEC.LINE01 : Row := ⟨false, 0x80304, [(4, 0x40)], false, [⟨28, 16, .rw, 0⟩, ⟨12, 0, .rw, 0⟩]⟩

/-- CAPT.DEC.LINE2 (R298). L2 [12:0] -/
def CAPT.DEC.LINE2 : Row := ⟨false, 0x80308, [(4, 0x40)], false, [⟨12, 0, .rw, 0⟩]⟩

/-- CAPT.DEC.MASK (R298). MASK [31:0] -/
def CAPT.DEC.MASK : Row := ⟨false, 0x8030c, [(4, 0x40)], false, [⟨31, 0, .rw, 0⟩]⟩

/-- CAPT.DEC.VALUE (R298). VALUE [31:0] -/
def CAPT.DEC.VALUE : Row := ⟨false, 0x80310, [(4, 0x40)], false, [⟨31, 0, .rw, 0⟩]⟩

/-- CAPT.DEC.HI (R298). HI [31:0] -/
def CAPT.DEC.HI : Row := ⟨false, 0x80314, [(4, 0x40)], false, [⟨31, 0, .rw, 0⟩]⟩

/-- CAPT.DEC.SYNC (R298). SYNC [31:0] -/
def CAPT.DEC.SYNC : Row := ⟨false, 0x80318, [(4, 0x40)], false, [⟨31, 0, .rw, 0⟩]⟩

/-- CAPT.DEC.MATCHCNT (R298). COUNT [31:0] -/
def CAPT.DEC.MATCHCNT : Row := ⟨false, 0x8031c, [(4, 0x40)], false, [⟨31, 0, .rc, 0⟩]⟩

/-- CAPT.DEC.ERRCNT (R298). COUNT [31:0] -/
def CAPT.DEC.ERRCNT : Row := ⟨false, 0x80320, [(4, 0x40)], false, [⟨31, 0, .rc, 0⟩]⟩

/-- CAPT.DEC.LAST (R298). V [31:0] -/
def CAPT.DEC.LAST : Row := ⟨false, 0x80324, [(4, 0x40)], false, [⟨31, 0, .ro, 0⟩]⟩

/-- HQ.MSIXL (R412). ADDRL [31:2] -/
def HQ.MSIXL : Row := ⟨true, 0x80800, [(9, 0x1000), (64, 0x10)], false, [⟨31, 2, .rw, 0⟩]⟩

/-- HQ.MSIXH (R412). ADDRH [31:0] -/
def HQ.MSIXH : Row := ⟨true, 0x80804, [(9, 0x1000), (64, 0x10)], false, [⟨31, 0, .rw, 0⟩]⟩

/-- HQ.MSIXD (R412). DATA [31:0] -/
def HQ.MSIXD : Row := ⟨true, 0x80808, [(9, 0x1000), (64, 0x10)], false, [⟨31, 0, .rw, 0⟩]⟩

/-- HQ.MSIXV (R412). MASK [0] -/
def HQ.MSIXV : Row := ⟨true, 0x8080c, [(9, 0x1000), (64, 0x10)], false, [⟨0, 0, .rw, 1⟩]⟩

/-- HQ.PBA (R412). PEND [63:0] -/
def HQ.PBA : Row := ⟨true, 0x80c00, [(9, 0x1000)], true, [⟨63, 0, .ro, 0⟩]⟩

/-- HBMC.FREG.CTL (R203, R220). EN [31]; CIRC [30]; LOG2S [12:8]; WR [1]; RD [0] -/
def HBMC.FREG.CTL : Row := ⟨false, 0x60100, [(8, 0x10)], false, [⟨31, 31, .rw, 0⟩, ⟨30, 30, .rw, 0⟩, ⟨12, 8, .rw, 0⟩, ⟨1, 1, .rw, 0⟩, ⟨0, 0, .rw, 0⟩]⟩

/-- HBMC.FREG.BASE (R203, R220). LINE [31:0] -/
def HBMC.FREG.BASE : Row := ⟨false, 0x60104, [(8, 0x10)], false, [⟨31, 0, .rw, 0⟩]⟩

/-- HBMC.FREG.LIMIT (R203, R220). LINE [31:0] -/
def HBMC.FREG.LIMIT : Row := ⟨false, 0x60108, [(8, 0x10)], false, [⟨31, 0, .rw, 0⟩]⟩

end Reg

/-- The rows of block CODE. -/
def rowsCODE : List Row :=
  [Reg.CODE.SEL, Reg.CODE.STAT]

/-- The rows of block CLUS. -/
def rowsCLUS : List Row :=
  [Reg.CLUS.DSTORE, Reg.CLUS.DSSTAT, Reg.CLUS.DSCTL, Reg.CLUS.CSLOT, Reg.CLUS.GSLOTL, Reg.CLUS.GSLOTH, Reg.CLUS.SLSTAT, Reg.CLUS.CLKCTL] ++
  [Reg.CLUS.CLKSTAT, Reg.CLUS.RSTCTL, Reg.CLUS.WAIT, Reg.CLUS.WTSTAT]

/-- The rows of block SCTL. -/
def rowsSCTL : List Row :=
  [Reg.SCTL.BROPEN, Reg.SCTL.BRERR, Reg.SCTL.BRCNT, Reg.SCTL.STATE, Reg.SCTL.CMD, Reg.SCTL.CMDSTAT, Reg.SCTL.PERIOD, Reg.SCTL.DCYC] ++
  [Reg.SCTL.POS, Reg.SCTL.STEPK, Reg.SCTL.STIME, Reg.SCTL.STRIG, Reg.SCTL.HCNT, Reg.SCTL.HCTL, Reg.SCTL.HLIMIT, Reg.SCTL.HLAST] ++
  [Reg.SCTL.PACECTL, Reg.SCTL.PACEMISS, Reg.SCTL.PACELAG, Reg.SCTL.PACEPEND]

/-- The rows of block SFLT. -/
def rowsSFLT : List Row :=
  [Reg.SFLT.FSTAT, Reg.SFLT.FLOC, Reg.SFLT.FCYC, Reg.SFLT.FLATER, Reg.SFLT.FHALT]

/-- The rows of block SPAD. -/
def rowsSPAD : List Row :=
  [Reg.SPAD.REG.CTL, Reg.SPAD.REG.BASE, Reg.SPAD.REG.LIMIT, Reg.SPAD.BANKPWR, Reg.SPAD.BANKSTAT, Reg.SPAD.ECCCE, Reg.SPAD.ECCUE, Reg.SPAD.RVIOL] ++
  [Reg.SPAD.RVADDR, Reg.SPAD.RVCNT, Reg.SPAD.PQHOLD, Reg.SPAD.RSTAT, Reg.SPAD.NHCNT, Reg.SPAD.URGCNT]

/-- The rows of block HBMC. -/
def rowsHBMC : List Row :=
  [Reg.HBMC.STAT, Reg.HBMC.OUTST, Reg.HBMC.ERR, Reg.HBMC.UECNT, Reg.HBMC.FREG.CTL, Reg.HBMC.FREG.BASE, Reg.HBMC.FREG.LIMIT]

/-- The rows of block FERRY. -/
def rowsFERRY : List Row :=
  [Reg.FERRY.CTL, Reg.FERRY.STAT, Reg.FERRY.LEVEL, Reg.FERRY.PKTS, Reg.FERRY.RSTCNT, Reg.FERRY.PKTIN, Reg.FERRY.OVRCNT, Reg.FERRY.POISCNT] ++
  [Reg.FERRY.ECC, Reg.FERRY.WDATA]

/-- The rows of block CALL. -/
def rowsCALL : List Row :=
  [Reg.CALL.CLASS, Reg.CALL.CRPOOL, Reg.CALL.AGELIM, Reg.CALL.CORECTL, Reg.CALL.STAT, Reg.CALL.WDOG, Reg.CALL.TRCTL, Reg.CALL.OCC] ++
  [Reg.CALL.RORD, Reg.CALL.POSTCNT, Reg.CALL.DISPCNT, Reg.CALL.PROMCNT, Reg.CALL.URGCNT, Reg.CALL.REFCNT, Reg.CALL.ABORTCNT, Reg.CALL.CORESTAT]

/-- The rows of block CAPT. -/
def rowsCAPT : List Row :=
  [Reg.CAPT.PROBE, Reg.CAPT.SEQ.COND, Reg.CAPT.SEQ.ACT, Reg.CAPT.CMP.SEL, Reg.CAPT.CMP.MV, Reg.CAPT.CNTLIM, Reg.CAPT.CNT, Reg.CAPT.TCMP] ++
  [Reg.CAPT.EXTSEL, Reg.CAPT.CTL, Reg.CAPT.STAT, Reg.CAPT.CFG, Reg.CAPT.PRE, Reg.CAPT.POST, Reg.CAPT.NSEG, Reg.CAPT.DBASE] ++
  [Reg.CAPT.HBASE, Reg.CAPT.ABASE, Reg.CAPT.HOLDOFF, Reg.CAPT.RECNO, Reg.CAPT.DROPCNT, Reg.CAPT.ABLK, Reg.CAPT.ACTCTL, Reg.CAPT.ANB] ++
  [Reg.CAPT.TOUT, Reg.CAPT.DEC.CTL, Reg.CAPT.DEC.LINE01, Reg.CAPT.DEC.LINE2, Reg.CAPT.DEC.MASK, Reg.CAPT.DEC.VALUE, Reg.CAPT.DEC.HI, Reg.CAPT.DEC.SYNC] ++
  [Reg.CAPT.DEC.MATCHCNT, Reg.CAPT.DEC.ERRCNT, Reg.CAPT.DEC.LAST]

/-- The rows of block TRG. -/
def rowsTRG : List Row :=
  [Reg.TRG.PIN, Reg.TRG.IN, Reg.TRG.XBUS]

/-- The rows of block TIME. -/
def rowsTIME : List Row :=
  [Reg.TIME.CTL, Reg.TIME.STAT, Reg.TIME.NOWF, Reg.TIME.NOWL, Reg.TIME.NOWH, Reg.TIME.SETF, Reg.TIME.SETL, Reg.TIME.SETH] ++
  [Reg.TIME.SETCMD, Reg.TIME.INC, Reg.TIME.CURINC, Reg.TIME.NOMINC, Reg.TIME.SLEWLIM, Reg.TIME.D.CFG, Reg.TIME.D.STEPTH, Reg.TIME.D.LOCK] ++
  [Reg.TIME.D.ASYM, Reg.TIME.D.OFFSET, Reg.TIME.D.MNS, Reg.TIME.D.INTEG, Reg.TIME.D.DELTA, Reg.TIME.D.OFS, Reg.TIME.D.LASTE, Reg.TIME.D.PATH] ++
  [Reg.TIME.D.STAT, Reg.TIME.D.EPOCH, Reg.TIME.D.EPOCHNS, Reg.TIME.D.CNT, Reg.TIME.TGT, Reg.TIME.ALCTL]

/-- The rows of block ETH. -/
def rowsETH : List Row :=
  [Reg.ETH.CTL, Reg.ETH.STAT, Reg.ETH.MAC, Reg.ETH.ILAT, Reg.ETH.ELAT, Reg.ETH.ASYM, Reg.ETH.TSINFO, Reg.ETH.TSF] ++
  [Reg.ETH.TSL, Reg.ETH.TSH, Reg.ETH.TSDROP]

/-- The rows of block PG. -/
def rowsPG : List Row :=
  [Reg.PG.CTL, Reg.PG.STARTF, Reg.PG.STARTL, Reg.PG.STARTH, Reg.PG.PERF, Reg.PG.PERNS, Reg.PG.WIDTH, Reg.PG.COUNT] ++
  [Reg.PG.STAT, Reg.PG.NEXT, Reg.PG.SKIPCNT]

/-- The rows of block LINKQ. -/
def rowsLINKQ : List Row :=
  [Reg.LINKQ.MAP, Reg.LINKQ.CRED, Reg.LINKQ.STAT]

/-- The rows of block LANE. -/
def rowsLANE : List Row :=
  [Reg.LANE.CTL, Reg.LANE.STAT, Reg.LANE.EQTX, Reg.LANE.EQRX, Reg.LANE.RTT, Reg.LANE.FECCE, Reg.LANE.FECUE, Reg.LANE.CRCERR] ++
  [Reg.LANE.RETRY, Reg.LANE.COMMAMISS, Reg.LANE.DOWN, Reg.LANE.UNMAP, Reg.LANE.LOST, Reg.LANE.PRBSCTL, Reg.LANE.PRBSERR, Reg.LANE.PRBSBITS] ++
  [Reg.LANE.INJ, Reg.LANE.ESCTL, Reg.LANE.ESERR, Reg.LANE.QCTL]

/-- The rows of block SYS. -/
def rowsSYS : List Row :=
  [Reg.SYS.CFG, Reg.SYS.STAT, Reg.SYS.PARENT, Reg.SYS.FWDDROP, Reg.SYS.READYT]

/-- The rows of block TWIN. -/
def rowsTWIN : List Row :=
  [Reg.TWIN.CTL, Reg.TWIN.LAG, Reg.TWIN.STAT, Reg.TWIN.HBMISS, Reg.TWIN.DIGCMP, Reg.TWIN.FOCNT, Reg.TWIN.SDIG]

/-- The rows of block HQ. -/
def rowsHQ : List Row :=
  [Reg.HQ.CTL, Reg.HQ.STAT, Reg.HQ.CMDBASE, Reg.HQ.CMDCFG, Reg.HQ.CMDTAIL, Reg.HQ.CMDHEAD, Reg.HQ.CPLBASE, Reg.HQ.CPLCFG] ++
  [Reg.HQ.CPLHEAD, Reg.HQ.CPLTAIL, Reg.HQ.IRQ, Reg.HQ.NLOST, Reg.HQ.NCOPY, Reg.HQ.BADACC, Reg.HQ.MSIXL, Reg.HQ.MSIXH] ++
  [Reg.HQ.MSIXD, Reg.HQ.MSIXV, Reg.HQ.PBA]

/-- The rows of block SDMA. -/
def rowsSDMA : List Row :=
  [Reg.SDMA.CTL, Reg.SDMA.STAT, Reg.SDMA.DESC, Reg.SDMA.SKIP, Reg.SDMA.LINES, Reg.SDMA.DONECNT, Reg.SDMA.DOORBELL, Reg.SDMA.BYTES] ++
  [Reg.SDMA.HWIN]

/-- The rows of block HDMA. -/
def rowsHDMA : List Row :=
  [Reg.HDMA.CTL, Reg.HDMA.STAT, Reg.HDMA.DESC, Reg.HDMA.SKIP, Reg.HDMA.LINES, Reg.HDMA.DONECNT, Reg.HDMA.DOORBELL, Reg.HDMA.BYTES]

/-- The rows of block SNOC. -/
def rowsSNOC : List Row :=
  [Reg.SNOC.FSTAT, Reg.SNOC.PDROP, Reg.SNOC.INTCNT, Reg.SNOC.INTLOG, Reg.SNOC.INTADDR, Reg.SNOC.RTSEL, Reg.SNOC.RTDATA, Reg.SNOC.RTCMD] ++
  [Reg.SNOC.RTSTAT, Reg.SNOC.RCCNT, Reg.SNOC.RCSTALL, Reg.SNOC.RTPORTS, Reg.SNOC.STCTL, Reg.SNOC.URGCNT, Reg.SNOC.REQ, Reg.SNOC.BYTES] ++
  [Reg.SNOC.LATSUM, Reg.SNOC.LATMIN, Reg.SNOC.LATMAX, Reg.SNOC.HIST]

/-- The rows of block STRC. -/
def rowsSTRC : List Row :=
  [Reg.STRC.BCTL, Reg.STRC.BSTAT, Reg.STRC.WRAPS, Reg.STRC.PAGE, Reg.STRC.DLOST, Reg.STRC.TCTL, Reg.STRC.TSTAT, Reg.STRC.LOST] ++
  [Reg.STRC.CMP.ADDR, Reg.STRC.CMP.CFG, Reg.STRC.RNG.LO, Reg.STRC.RNG.HI, Reg.STRC.RNG.CFG]

/-- The rows of block HTRC. -/
def rowsHTRC : List Row :=
  [Reg.HTRC.BCTL, Reg.HTRC.BSTAT, Reg.HTRC.WRAPS, Reg.HTRC.PAGE, Reg.HTRC.DLOST, Reg.HTRC.TCTL, Reg.HTRC.TSTAT, Reg.HTRC.LOST] ++
  [Reg.HTRC.CMP.ADDR, Reg.HTRC.CMP.CFG, Reg.HTRC.RNG.LO, Reg.HTRC.RNG.HI, Reg.HTRC.RNG.CFG]

/-- The rows of block BOOT. -/
def rowsBOOT : List Row :=
  [Reg.BOOT.STAT, Reg.BOOT.BOOTUS, Reg.BOOT.SECVER, Reg.BOOT.CMD, Reg.BOOT.OTPSTAT, Reg.BOOT.OTPSLOT, Reg.BOOT.SERIAL, Reg.BOOT.FLADDR] ++
  [Reg.BOOT.FLCMD, Reg.BOOT.ASTAT, Reg.BOOT.OTPPROG, Reg.BOOT.FLBUF, Reg.BOOT.CERT]

/-- The rows of block PWR. -/
def rowsPWR : List Row :=
  [Reg.PWR.MON, Reg.PWR.BOCNT, Reg.PWR.BOLAST, Reg.PWR.RSTCAUSE, Reg.PWR.THCTL, Reg.PWR.THSTAT, Reg.PWR.TEMP, Reg.PWR.SECT.CTL] ++
  [Reg.PWR.SECT.STAT]

/-- The rows of block CLK. -/
def rowsCLK : List Row :=
  [Reg.CLK.STAT, Reg.CLK.REFPPM]

/-- The rows of block DIO. -/
def rowsDIO : List Row :=
  [Reg.DIO.CELL, Reg.DIO.IN, Reg.DIO.BANK]

/-- The rows of block DEV. -/
def rowsDEV : List Row :=
  [Reg.DEV.ACCERR, Reg.DEV.ACCADDR, Reg.DEV.ACCCNT, Reg.DEV.IDENT, Reg.DEV.PCIID, Reg.DEV.HINTCNT]

end Sys2Proof.Machine
end

