-- ==== Sys2Proof/Config.lean ====
section
/-! DEFINITION. What an implementation fixes and the manual leaves open. Every constant here has no body: nothing can
evaluate it or prove a value of it, so a statement that holds holds for every value it could have. -/

namespace Sys2Proof.Config

/-- Contents of an instruction store after the section comes out of OFF (R72): by section, power-up number and
instruction address. -/
opaque undefCode : Nat → Nat → Nat → BitVec 96

/-- Contents of a cluster slot table after the section comes out of OFF (R113). -/
opaque undefCslot : Nat → Nat → Nat → BitVec 32

/-- Contents of an export table after the section comes out of OFF (R113). -/
opaque undefGslot : Nat → Nat → Nat → BitVec 64

/-- Contents of a wait table after the section comes out of OFF (R148). -/
opaque undefWait : Nat → Nat → Nat → BitVec 32

/-- Contents of a trace buffer after PORST_N or a section power-down (R474). -/
opaque undefTrace : Nat → Nat → Nat → BitVec 128

/-- The level of a ball that nothing drives, or that is driven both ways, at the read of the given number (R523, R526). -/
opaque freeLevel : Nat → BitVec 1

/-- A fuse pattern that an interrupted programming leaves (R490), by the number of the read. -/
opaque freeFuse : Nat → BitVec 512

/-- SHA-384 of a byte string, a published standard the manual does not restate (R165, R480, R494). -/
opaque sha384 : List Nat → List Nat

/-- Whether a signature of a scheme over a digest verifies under a key (R170, R480): scheme, key bytes, digest, signature bytes. -/
opaque sigVerifies : Nat → List Nat → List Nat → List Nat → Bool

/-- A signature of a scheme that the device makes with its identity key over bytes (R495). -/
opaque sigMake : Nat → List Nat → List Nat

/-- The certificate bytes of the identity keys, fixed per device in OTP (R494). -/
opaque certByte : Nat → BitVec 8

/-- The serial number fused per device (R484). -/
opaque serial : BitVec 64

/-- Version of the device firmware reported by OPEN (R423). -/
opaque firmwareVersion : BitVec 32

/-- Highest HVX minor version of the loader (R169). -/
opaque loaderMinor : BitVec 8

/-- A value that an RV64 or RV32 core computes where the manual leaves the instruction set to the published standard. -/
opaque coreValue : Nat → BitVec 64

/-- Contents of the device controller's boot ROM (R274), by address. -/
opaque romByte : Nat → BitVec 8

/-- The vendor ID of every PCI Express function (R406), which the manual names without its value. -/
opaque vendorId : BitVec 16

/-- Words of the hub buffer of a MIR channel (R356), whose size the manual does not give. -/
opaque mirrorBuffer : BitVec 12

/-- Default routes of the service network (R446, R451), by router and target. -/
opaque defaultRoute : Nat → Nat → BitVec 3

/-- Any other value the manual leaves open, by the number of its use. -/
opaque freeValue : Nat → BitVec 64

end Sys2Proof.Config
end

