-- ==== Sys2Proof/Machine/StateHub.lean ====
section
/-! DEFINITION. The state of the hub's time engine, boot unit, loader and power control that is not registers (R163 to R189, R311 to R337,
R478 to R513). -/

namespace Sys2Proof.Machine

/-- A load (R176 to R179): the function and command that issued it, or the autostart; where the image and placement map lie; its stage;
the report of a rejected pass 1; the placement, the permutations and the physical clusters used by virtual section; and what
COMMIT and ATTEST need. -/
structure LoadSt where
  fn : Nat
  cid : Nat
  auto : Bool
  buf : Nat
  len : Nat
  buf2 : Nat
  stage : Nat
  rej : Option (List Nat)
  nv : Nat
  period : Nat
  place : List Nat
  perms : List (List Nat)
  masks : List Nat
  digest : List Nat
  imgid : List Nat
  secver : Nat
  hdrop : Nat
  wmax : Nat
deriving DecidableEq, Repr

/-- What COMMIT recorded of a section's image (R178, R495). -/
structure Committed where
  imgid : List Nat
  digest : List Nat
  secver : Nat
deriving DecidableEq, Repr

/-- What the booted HVBR copy leaves in use (R480 to R483, R495). -/
structure BootRec where
  digest : List Nat
  devfw : List Nat          -- SHA-384 of DEVFW and of SECFW
  secfw : List Nat
  devfwCode : List Nat      -- DEVFW and SECFW themselves (R271, R274)
  secfwCode : List Nat
  cfg : List Nat            -- SHA-384 of SYSCFG, TUNING, PARK, POLICY and AUTOSTART
  secver : Nat
  advance : Bool
  revoke : Nat
  slotR : Nat               -- boot-key slots that verified it
  slotS : Nat
  syscfg : List Nat
  tuning : List Nat
  park : List Nat
  policy : List Nat
  auto : List Nat           -- AUTOSTART, empty when absent
deriving DecidableEq, Repr

/-- The boot unit (R478 to R497). -/
structure BootSt where
  booted : Option BootRec
  flash : Sparse (BitVec 8)
  flOp : Option (Nat × Nat)              -- flash operation in progress: OP and address
  otpOp : Option (Bool × Nat × Nat)      -- fuse programming in progress: LOCK, ALG, SLOT
  releaseT : Nat                         -- clock of reset release
  causeDue : Bool                        -- RESET_CAUSE is to be sent at OPEN of PF0 (R512)
  backupDue : Bool                       -- BOOT_BACKUP is to be sent there (R496)
deriving DecidableEq, Repr

/-- A boot-key slot (R484): its 48 bytes of fuses, the first byte lowest, and its programmed bit. -/
structure KeySlot where
  fuses : BitVec 384
  prog : Bool
deriving DecidableEq, Repr

/-- Fuses (R484): boot-key slots, revoke bits, the rollback count and LOCK. -/
structure OtpSt where
  keysR : Vector KeySlot 4
  keysS : Vector KeySlot 4
  revR : BitVec 4
  revS : BitVec 4
  irevR : BitVec 4
  irevS : BitVec 4
  count : Nat
  lock : Bool
deriving DecidableEq, Repr

/-- Steps of a brownout episode (R501): request for ÷2, THR set, at ÷2, request for ÷1, THR cleared. -/
inductive BoPhase where
  | reqHalf | setting | half | reqFull | clearing
deriving DecidableEq, Repr

/-- Power, clocks and reset (R500 to R510). -/
structure PowSt where
  holdSup : Bool                         -- held in reset until the monitored supplies are above their thresholds (R500)
  holdClk : Bool                         -- held until REFCLK and the core PLL are back (R509)
  holdHot : Bool                         -- held until every sensor reads below 95 °C (R505)
  episode : Option (BoPhase × Nat)       -- phase and clock of the start
  lowest : Nat                           -- lowest VDD_CORE of the episode, mV
  recT : Option Nat                      -- clock at which the rise that runs the recovery timer was confirmed
  throtT : Option Nat                    -- clock at which thermal throttling started
  coolT : Option Nat                     -- clock since which every sensor reads below HI − HYST
  hotReq : Bool                          -- the throttle request of R504
  soft : BitVec 8                        -- sections in soft reset
  softHeld : BitVec 8                    -- soft resets held until PARKED (R508)
  hotStack : BitVec 2                    -- stacks whose sensor reports above 85 °C (R212)
deriving DecidableEq, Repr

/-- An armed alarm (R321, R323): target, whether it was past at arming, and whether a tick since then has found it reached. -/
structure AlarmSt where
  tgt : Nat
  past : Bool
  hit : Bool
deriving DecidableEq, Repr

/-- A pulse generator (R331, R332): index of the next rising edge, if one is due; pulses emitted; target of the falling edge due, in 2^-32 ns
modulo 2^80; whether its EN awaits the arming tick; and whether its next edge goes out at the present grid instant, because a step
crossed its target or its START was past. -/
structure PgSt where
  k : Option Nat
  count : Nat
  fall : Option Nat
  arming : Bool
  jumped : Bool
deriving DecidableEq, Repr

/-- A domain (R315 to R318): OFS in 2^-32 ns, consecutive measurements within and beyond LOCKTH, the clock of the last one, and the
exchange that is outstanding: SEQ, t1 and its clock (R329). -/
structure DomSt where
  ofs : Int
  good : Nat
  bad : Nat
  lastT : Nat
  seq : Nat
  outst : Option (Nat × TimeVal × Nat)
  reqT : Option Nat                      -- clock of the last interval boundary of its exchange (R329)
  missNew : Nat
  missT : Option Nat
deriving DecidableEq, Repr

/-- The Ethernet ports' stamp FIFOs (R326): TSINFO and the stamp. -/
structure StampRec where
  info : Nat
  time : TimeVal
deriving DecidableEq, Repr

/-- What device firmware keeps of a PTP port (R327, R328): whether it is in the master state, and the NS of the receive stamp of its last Sync. -/
structure PtpSt where
  master : Bool
  sync : Option Nat
deriving DecidableEq, Repr

/-- The time engine. -/
structure TimeSt where
  dom : Vector DomSt 2
  hist : List (Nat × Int × Int)          -- NS, OFS of A and of B, newest first, every 256 ns (R316)
  setDue : Option Bool                   -- LOAD (false) or ADD (true) at the next tick
  stepDue : Option (Nat × Int)           -- servo step at the next tick: domain, e
  switchDue : Bool                       -- a domain switch at the next tick (R317)
  sel : Nat                              -- domain that TIME follows
  servo : Bool                           -- MODE in effect
  slewT : Option Nat                     -- clock of the switch whose slew goes on
  alarms : Sparse AlarmSt
  pgs : Vector PgSt 8
  stamps : Vector (List StampRec) 2
  recent : List (Nat × Nat)              -- TIME and CURINC at the last ticks, the newest first, for stamps of flits that have passed (R324)
  ptp : Vector PtpSt 2
deriving DecidableEq, Repr

end Sys2Proof.Machine
end

