-- ==== Sys2Proof/Machine/StateIo.lean ====
section
/-! DEFINITION. The state of the host port, the DMA channels and the service network that is not registers. -/

namespace Sys2Proof.Machine

/-- A notice waiting to be written (R416, R420): code, UNIT, WRAP ‖ NS at the event, items, and byte 1 of a relayed notice (R400). -/
structure Notice where
  code : Nat
  unit : Nat
  time : Nat
  items : List Nat
  relay : Nat
deriving DecidableEq, Repr

/-- A command entry as fetched (R419). -/
structure HostCmd where
  opc : Nat
  cid : Nat
  sect : Nat
  buf : Nat
  blen : Nat
  buf2 : Nat
  arg : List Nat      -- 32 bytes
  clean : Bool        -- every reserved byte is 0
deriving DecidableEq, Repr

/-- The HHP state of one function (R412 to R428) beyond its HQ page. -/
structure HostFn where
  minor : Nat                    -- HHP minor version in use (R422)
  queued : List HostCmd          -- fetched, not begun, in ring order (R427)
  long : Option HostCmd          -- the long command that runs (R427)
  halted : Bool                  -- fetching has stopped with RINGERR (R414)
  waiting : List Notice          -- up to 64 notices (R416)
  lost : Bool                    -- the next notice carries LOST
  unsig : Sparse (Nat × Nat)     -- by vector: entries not yet signalled, clock of the first (R418)
deriving DecidableEq, Repr

/-- A fetched DMA descriptor (R429). -/
structure Desc where
  next : Nat
  last : Bool
  irq : Bool
  mode : Nat
  dir : Nat
  log2e : Nat
  len : Nat
  addrA : Nat
  addrB : Nat
  clean : Bool
deriving DecidableEq, Repr

/-- A DMA channel beyond its registers (R432 to R438). Its DESC register holds the address of the descriptor it works on. -/
structure DmaCh where
  desc : Option Desc    -- the descriptor fetched and checked, while its lines move
  moved : Nat           -- its lines already passed: moved, skipped or failed
  wrote : Nat           -- its lines written, those that SKIP passes included (R438, log 38)
  last : Option Nat     -- address of the last line written (R433)
  entry : Option (Nat × Nat)   -- the element in progress and its index entry (R430)
  reading : Bool        -- read-back of the last line in progress (R433)
  halt : Bool           -- HALT accepted
  wdraw : Bool          -- WDRAW accepted
  rereading : Bool      -- the NEXT word is to be read again (R433, R434, R439)
deriving DecidableEq, Repr

/-- The service network of a section beyond its registers (R446 to R452, R456). Routing entries that differ from the
default routes, keyed 64·router + target. -/
structure Noc where
  active : Sparse (BitVec 3)
  shadow : Sparse (BitVec 3)
  swapT : Option Nat             -- clock at which a swap began
  dropUnsent : Nat               -- drops since the last NOC_FENCE_DROP
  dropT : Option Nat
  dropFirst : Bool               -- no drop since PDROP was last read
  intUnsent : Nat
  intT : Option Nat
deriving DecidableEq, Repr

end Sys2Proof.Machine
end

