-- ==== Sys2Proof/Machine/StateLink.lean ====
section
/-! DEFINITION. The state of lanes, bundles, the system of devices and the twin pair that is not registers (R338 to R404). -/

namespace Sys2Proof.Machine

/-- A lane (R359 to R363), by its physical number 4·quad + lane. -/
structure Lane where
  txSeq : Nat                          -- sequence number of the next new flit
  rxSeq : Nat                          -- sequence number expected
  replay : List (Nat × BitVec 256)     -- flits not yet acknowledged, oldest first (R359)
  again : Option Nat                   -- sequence number at which a replay goes on (R360)
  dropping : Bool                      -- sequenced flits are discarded until the expected one arrives
  nakDue : Bool
  naks : Nat                           -- NAKs sent for the expected sequence number
  nakT : Nat                           -- clock of the last one
  prevGood : Bool                      -- the frame before was good (R347)
  commaRun : Nat                       -- consecutive comma matches in COMMA; consecutive misses under comma lock (R346)
  goodRun : Nat                        -- consecutive codewords without an uncorrectable error (R346)
  badRun : Nat                         -- consecutive uncorrectable codewords
  tail : Nat                           -- received bits of the flit that straddles into the next frame (R344, R347)
  txBits : Nat                         -- flit bits of the frame being sent (R344)
  txLen : Nat                          -- how many they are
  txFrame : Option Nat                 -- flit area of the last whole frame sent
  ctl : List (BitVec 256)              -- accepted CTL and TIM flits not yet handled
  seqd : List (BitVec 256)             -- accepted sequenced flits not yet delivered
  deliv : Nat                          -- sequenced flits delivered since CREDIT: the ACK names the last (R350)
  held : List (Nat × Nat)              -- delivered flits whose mirror copy is not acknowledged: number, mirror packet (R385)
  unacked : Nat                        -- sequenced flits received since an ACK was sent (R353)
  waitT : Option Nat                   -- clock since which credits or an ACK wait
  tlv : List Nat                       -- TLV bytes received in CAPS
  tlvSent : Nat                        -- TLV bytes sent in CAPS
  trainT : Option Nat                  -- clock of TRAIN while not ACTIVE (R361)
  failT : Option Nat                   -- clock of the last TRAIN_FAIL, for the return to CDR
  retryNew : Nat                       -- NAKs since the last LANE_RETRY notice
  retryT : Option Nat
  unmapNew : Nat                       -- discards since the last LANE_UNMAP notice
  unmapT : Option Nat
  prbsGen : Nat                        -- register of the PRBS generator; 0: not yet started (R366)
  prbsReg : Nat                        -- register of the PRBS checker
  prbsSeen : Nat                       -- bits from which it has been seeded
  prbsLen : Nat                        -- error-free bits of the PRBS checker
  sent : Option (BitVec 256)           -- the flit sent last, as it left the balls
  inject : Nat                         -- transmitted bits still to be inverted (R367)
  rateRun : Nat                        -- bits sent since INJ mode 3 inverted one
  timOut : List Nat                    -- payloads of TIM flits to be sent (R330)
deriving DecidableEq, Repr

/-- A packet handed to a bundle or received by its hub buffers: channel, words, tally and poison mark. -/
structure LinkPkt where
  chan : Nat
  words : List Nat
  tally : Nat
  poison : Bool
  mirror : Option Nat                  -- number of the mirrored inbound packet it carries (R385)
deriving DecidableEq, Repr

/-- A packet whose sending has begun and that is not fully acknowledged (R396): its queue, if it came from one, its words so far,
whether its end has been sent, and its unacknowledged flits by lane and sequence number. -/
structure SentPkt where
  pkt : LinkPkt
  queue : Option Nat
  ended : Bool
  flits : List (Nat × Nat)
deriving DecidableEq, Repr

/-- A bundle (R354 to R356), by 32·section + section lane index of its bundle lane 0. -/
structure Bundle where
  credit : Sparse Nat                  -- by CHAN: words the transmitter may send
  granted : Sparse Nat                 -- by CHAN: words granted and not yet arrived
  inOpen : Sparse (List Nat)           -- by CHAN: words of the open inbound packet of a hub buffer
  inBad : List Nat                     -- channels whose open inbound packet is to be poisoned (R352)
  inBusy : List (Nat × Nat)            -- channels with an open inbound FAB or STR packet, and its mirror number
  inPkts : List LinkPkt                -- complete SVC and MIR packets, in arrival order
  outPkts : List LinkPkt               -- SVC and MIR packets to be sent
  sent : List SentPkt
  txTurn : Nat                         -- sequenced flits sent, modulo the width (R355)
  rxTurn : Nat                         -- sequenced flits taken
  rr : Nat                             -- last channel served among FAB and STR (R353)
  classes : Nat                        -- classes in use (R363)
  peer : Nat                           -- value of the peer's NODE TLV
  peerHead : Nat                       -- value of its VERSION and BUNDLE TLVs
  initGrant : Bool                     -- the initial LINK flit has been sent
  gotLink : Bool                       -- a LINK flit has been received in CREDIT
  got : Sparse Nat                     -- by CHAN: complete packets received since the bundle became ACTIVE (R396)
  cutting : List Nat                   -- outbound queues whose open packet is still to be discarded up to its mark (R364)
deriving DecidableEq, Repr

/-- A lane in DISABLED. -/
def Lane.idle : Lane :=
  { txSeq := 0, rxSeq := 0, replay := [], again := none, dropping := false, nakDue := false, naks := 0, nakT := 0,
    prevGood := false, commaRun := 0, goodRun := 0, badRun := 0, tail := 0, txBits := 0, txLen := 0, txFrame := none, ctl := [], seqd := [], deliv := 0, held := [], unacked := 0, waitT := none, tlv := [], tlvSent := 0,
    trainT := none, failT := none, retryNew := 0, retryT := none, unmapNew := 0, unmapT := none, prbsGen := 0, prbsReg := 0, prbsSeen := 0,
    prbsLen := 0, sent := none, inject := 0, rateRun := 0, timOut := [] }

/-- A bundle that carries nothing. -/
def Bundle.idle : Bundle :=
  { credit := [], granted := [], inOpen := [], inBad := [], inBusy := [], inPkts := [], outPkts := [], sent := [],
    txTurn := 0, rxTurn := 0, rr := 0, classes := 0, peer := 0, peerHead := 0, initGrant := false, gotLink := false,
    got := [], cutting := [] }

/-- A node in the manager's registry (R400), and whether it has been reported lost (R380). -/
structure Node where
  serial : Nat
  sysStart : Bool
  lock : Bool
  depth : Nat
  twin : Nat
  bundle : Nat
  lost : Bool
deriving DecidableEq, Repr

/-- A neighbour as its NEIGHBOUR packet gives it (R400). -/
structure Neighbour where
  serial : Nat
  role : Nat
  node : Nat
  twin : Nat
  actPri : Bool
deriving DecidableEq, Repr

/-- A command that the manager relays (R376, R381): its tag, the function and CID it completes, if any, nodes that have not answered, nodes
that have done it, the first refusal with its STATUS, whether it is a system start on a section, and for SYSTEM_STATUS the address of its
registry buffer (0: none). -/
structure Relay where
  tag : Nat
  asker : Option (Nat × Nat)
  left : List Nat
  done : List Nat
  bad : Option (Nat × Nat)
  start : Option Nat
  registry : Option Nat
deriving DecidableEq, Repr

/-- The system of devices (R372 to R381). -/
structure SysSt where
  registry : Sparse Node               -- by node number
  routes : Sparse Nat                  -- by node number: bundle toward it (R376)
  neigh : Sparse Neighbour             -- by bundle
  manager : Option Nat                 -- serial number of the manager followed (R373)
  parent : Option Nat                  -- worker: bundle of the adopted parent (R378)
  parentT : Nat                        -- clock of the first CENSUS of the adoption (R378)
  parentDepth : Nat
  seen : Nat                           -- CSEQ of the last CENSUS flooded onward
  reported : Option Bool               -- worker: LOCK as last registered (R400)
  lostNodes : Sparse Nat               -- manager: clock since which a node is unreachable, by node
  censusSeq : Nat
  censusT : Nat
  readySent : Bool
  partialSent : Bool
  relays : List Relay
  nextTag : Nat
  dropUnsent : Nat                     -- FWD_DROP (R404)
  dropT : Option Nat
deriving DecidableEq, Repr

/-- A mirrored input pin sample that the secondary holds (R384, R402). -/
structure PinSample where
  sec : Nat
  stg : Nat
  step : Nat
  cycle : Nat
  data : Nat
deriving DecidableEq, Repr

/-- A digest of section, period and value (R391). -/
structure DigestRec where
  sec : Nat
  period : Nat
  value : Nat
deriving DecidableEq, Repr

/-- Who gave a run command: the host through a function, under a CID, or a manager's COMMAND: source node, CTAG and CID (R387, R400). -/
inductive Asker where
  | host (fn cid : Nat)
  | node (src ctag cid : Nat)
deriving DecidableEq, Repr

/-- A run command forwarded to the secondary and not yet acknowledged (R387, R401), and whom its acknowledgment answers. -/
structure FwdCmd where
  leader : Nat
  cmd : Nat
  asker : Option Asker
deriving DecidableEq, Repr

/-- The twin pair (R382 to R403). -/
structure TwinSt where
  pairT : Nat                          -- clock at which pairing began (R382)
  peerSerial : Option Nat
  hbSeq : Nat
  heard : Bool                         -- a heartbeat arrived in the present interval
  missRun : Nat                        -- consecutive misses
  peerState : Nat
  peerMask : Nat
  peerDcyc : List Nat
  own : List DigestRec
  other : List DigestRec
  pins : List PinSample                -- secondary: samples not yet used
  disposed : Sparse Nat                -- primary: packets disposed of, by 64·section + queue (R386)
  reported : Sparse Nat                -- secondary: the primary's last report
  took : Sparse Nat                    -- secondary: packets its twin logic has taken
  mirGot : Sparse Nat                  -- secondary: mirrored inbound packets, by 64·section + queue (R396)
  mirrorNext : Nat                     -- number of the next mirrored inbound packet
  fwd : List FwdCmd
  loadChk : Option (List Nat)          -- the secondary's LOADCHK words (R401)
  standby : List Nat                   -- bundles on which TAKEOVER went out
  moved : Sparse Nat                   -- peer: by standby bundle, the bundle whose channels it took over
  accepted : List Nat                  -- standby bundles whose peer has answered ACCEPT
  resumed : List Nat                   -- standby bundles whose RESUME has been handled
  takingT : Nat                        -- clock of TAKEOVER
  takingCause : Nat
  stepdownFrom : List Nat              -- peer: serial numbers of primaries whose STEPDOWN arrived (R395)
  mboxOpen : Sparse (List Nat)         -- primary: mailbox words of the open packet, by section (R402)
  stopped : Bool                       -- outputs stopped by R394, or never enabled (R397, R403)
  selfDue : List Nat                   -- causes of R400 of self-detected faults not yet acted on (R393)
deriving DecidableEq, Repr

end Sys2Proof.Machine
end

