-- ==== Sys2Proof/Machine/StatePin.lean ====
section
/-! DEFINITION. The state of the balls, the design I/O cells and the test port that is not registers (R514 to R529). -/

namespace Sys2Proof.Machine

/-- A PINMAP record of a section (R168), its course physical and its cell within the section. -/
structure PinRec where
  output : Bool
  cell : Nat
  cl : Nat
  crs : Nat
  word : Nat
  bit : Nat
  step : Nat
  stg : Nat
deriving DecidableEq, Repr

/-- The instruction in force at the JTAG port (R528). -/
inductive JtagIns where
  | bypass | idcode | sample | extest | pulse | train
deriving DecidableEq, Repr

/-- Balls and ports of the hub. Cells are DIO0 to DIO95; the boundary register has one bit per signal ball but DNC, with the
ball nearest TDO in bit 0. -/
structure PinSt where
  ext : Sparse Bool           -- what the board drives onto a design I/O ball; unlisted: nothing
  out : Sparse Bool           -- output registers loaded since COMMIT (R522, R524)
  ball : Sparse Bool          -- levels the output cells drive at their balls (R524)
  trg : Sparse Bool           -- what the board drives onto the TRG balls
  gens : Nat                  -- levels of the pulse generators (R331)
  xpulse : Nat                -- bus lines that capture engines pulse: bit 8·n + l, line l by that of section n (R303)
  ins : JtagIns
  shift : Nat                 -- data register selected by the instruction, as captured
  bsr : Nat                   -- boundary register, preloaded
  tcks : Nat                  -- TCK cycles in Run-Test/Idle under EXTEST_TRAIN, modulo 2
  smbAddr : Nat               -- SMB_ADDR2 to SMB_ADDR0 sensed at reset release (R529)
  smbReg : Nat                -- register address set by command 0x01
deriving DecidableEq, Repr

end Sys2Proof.Machine
end

