-- ==== Sys2Proof/Machine/StateSec.lean ====
section
/-! DEFINITION. The pieces of a section's state that are not registers: fabric, run control, memories, queues, calls,
cores, capture, DMA, service network and trace. Registers live in one store for the whole device (Machine/State.lean). -/

namespace Sys2Proof.Machine

/-- A table whose entries are undefined after OFF (R72, R113, R148): the entries written since, the clusters whose rows
below a count the loader has filled with zero (R72, R113, R148), and the number of the power-up. -/
structure Table (w : Nat) where
  ent : Sparse (BitVec w)
  filled : Sparse Nat
  epoch : Nat
deriving DecidableEq, Repr

/-- What a fault names (R157, R158). `opnd` and `bp` follow the codes of R158; `course` is a global course number. -/
structure FaultInfo where
  code : Nat
  opnd : Nat
  course : Nat
  bp : Nat
  step : Nat
  cycle : Nat
deriving DecidableEq, Repr

/-- Destination port of a slot transfer (R78). -/
inductive SlotPort where
  | cl0 | cl1 | gb0 | gb1
deriving DecidableEq, Repr

/-- A slot transfer in flight (R99 to R104), kept in the destination section. `left` counts the executed steps to its write;
`done` marks one already written or dropped in the step just executed. -/
structure Xfer where
  bridge : Bool
  global : Bool
  port : SlotPort
  srcSec : Nat
  srcCourse : Nat
  srcCl : Nat
  entry : Nat
  dcl : Nat
  dcrs : Nat
  dword : Nat
  word : BitVec 16
  readStep : Nat
  readPeriod : Nat
  left : Nat
  done : Bool
deriving DecidableEq, Repr

/-- The sources of a return on the RET port, in the order of R60. -/
inductive RetKind where
  | pin | home | qrd | nonhome
deriving DecidableEq, Repr

/-- A return on its way to a course's RET port (R59, R60): up to four words for consecutive import words. -/
structure Ret where
  kind : RetKind
  cl : Nat
  crs : Nat
  first : Nat
  words : List (Nat × Nat)   -- offset from the first word, data
  gen : Nat
  left : Nat
  done : Bool
  waiting : Bool             -- a HOME = 0 return that has arrived and waits for a free step (R60)
deriving DecidableEq, Repr

/-- A memory access of a cluster port after its issue (R63, R199, R200). `left` counts executed steps to a home-path access. -/
structure MemAcc where
  write : Bool
  home : Bool                -- HOME flag of the op
  path : Bool                -- true: home path; false: non-home queue
  cl : Nat
  crs : Nat
  port : Nat                 -- its window and the word in it, mapped when it is granted (R205, R208)
  w : Nat
  words : List Nat           -- data of an MWR
  count : Nat
  first : Nat                -- destination import word of an MRD
  gen : Nat
  step : Nat                 -- issue step, and the cycle it works for (R63, R158)
  cycle : Nat
  left : Nat
  urgent : Bool              -- it has lost 64 consecutive arbitrations (R198)
deriving DecidableEq, Repr

/-- Fabric state of a section. Keys: data store cl·65536 + crs·1024 + w; code ((cl·64 + crs)·12 + bp)·512 + a; cluster
slots cl·65536 + (64·s + x)·2 + p; export entries cl·8192 + 16·s + e; wait entries cl·256 + 8·f + e. -/
structure Fabric where
  store : Sparse (BitVec 16)           -- unlisted 0 (R77)
  code : Table 96
  codeLo : Option (Nat × BitVec 32)    -- staging of the CODE window (R70): instruction address and word
  codeMid : Option (Nat × BitVec 32)
  cslot : Table 32
  gslot : Table 64
  wait : Table 32
  clkNext : Sparse Nat                 -- CLKCTL values waiting for a change in progress (R128), by cluster
  xfers : List Xfer
  rets : List Ret
  row : Option Nat                     -- row whose source reads belong to the coming step (R100)
  rowDone : List Nat                   -- its entries already read: cluster·256 + 2·x + p, or 4096 + cluster·16 + e
  rowErr : List Nat                    -- those of them that an uncorrectable error has stopped (R114)
  issued : List (Nat × Bool)           -- BPs that issued in this step, (cl·64 + crs)·12 + bp, with their bits
  pinsDone : List Nat                  -- pin records already served in this step
  pinMap : List PinRec                 -- PINMAP records of the committed image
  ran : Nat                            -- clusters that have run since their last reset (R176)
  clearDue : Option Nat                -- stage 3 of a load waits for NHCNT = 0 to clear V and to reset these clusters (R84, R176)
deriving DecidableEq, Repr

/-- How an armed START or STEP waits (R140). -/
inductive ArmMode where
  | atTime | onTrigger
deriving DecidableEq, Repr

/-- A read of a DSTORE word through the tap port (R97, R278): the word, and the bytes of it that answer. -/
structure TapRead where
  cl : Nat
  crs : Nat
  w : Nat
  at_ : Nat
  size : Nat
deriving DecidableEq, Repr

/-- Run-control state beyond the SCTL registers. -/
structure RunSt where
  xstep : Nat                 -- executed steps since power-up
  inStep : Bool               -- a command of the coming step has begun it
  atEnd : Bool                -- the last step of a period has executed and PERIOD_END is due
  sample : Option Nat         -- causes unsatisfied at the last sample (bit c of R151), 0 when ready
  haltDue : Bool              -- a fault was raised in this fret or hold (R156)
  memberLeft : List Nat       -- members that have left the group, rising, for which it is still to halt (R122)
  lastStep : Nat              -- step executed last, and the period it stands in (R158)
  lastPeriod : Nat
  effectDue : Bool            -- a period has ended at which STEP k, PAUSE or STOP takes effect
  resampled : Bool            -- the present hold has been sampled at H8
  fretFaults : Nat            -- own faults of this fret (R162)
  faultStep : Nat             -- executed step of the recorded fault (R157)
  holdRun : Nat               -- consecutive held frets (R152)
  stallSent : Bool
  stepsLeft : Option Nat      -- periods left of STEP k
  armed : Option ArmMode
  armStep : Bool              -- the armed command is STEP
  trigSeen : Bool             -- the trigger of an armed command has arrived
  drain : Option Nat          -- drain steps executed (R103)
  restarting : Bool           -- RESTART accepted and not complete
  paceTimes : List Nat        -- targets of pace events not yet used, NS and FRAC as one number of 2^-32 ns (R154, R334)
  paceDue : List Nat          -- those of pace events on their way from their pulse generator
  paceUnsent : Nat            -- pace misses since the last PACE_MISS notice
  paceSent : Option Nat       -- clock of that notice
  late : Bool                 -- the TIME target of the armed command was past when it was accepted (R140)
  timeHit : Bool              -- a tick since then has found it reached (R321)
  reads : List TapRead        -- reads of DSTORE that wait for a step without a tap, oldest first (R278)
deriving DecidableEq, Repr

/-- A 64-byte line's sideband (R195, R454): a CRC-32C tally, or NONE, and the poison bit. -/
structure LineTag where
  tally : Option (BitVec 32)
  poison : Bool
deriving DecidableEq, Repr

/-- Section memory (R190 to R221). -/
structure SecMem where
  spad : Sparse (BitVec 8)        -- by SMA; unlisted 0 (R209)
  spadTag : Sparse LineTag        -- by line; unlisted: tally of an all-zero line
  hbm : Sparse (BitVec 8)         -- by offset in the HBM3 range
  hbmTag : Sparse LineTag         -- by line; unlisted: the tally of the line's bytes
  bankMove : Sparse (Nat × Nat)   -- banks in transition: state left and state to be reached (R209)
  acc : List MemAcc               -- accesses of cluster ports, in issue order
  urgent : List (Nat × Nat)       -- service masters with the bank at which a request of theirs waits and is urgent (R198)
deriving DecidableEq, Repr

/-- A queue word (R223) with its mark, the poison mark of its packet, whether that is of integrity class (R455) and, for a
word the fabric wrote, the course, step and cycle of its QWR (R219). -/
structure QWord where
  data : BitVec 12
  eop : Bool
  poison : Bool
  integ : Bool
  org : Option (Nat × Nat × Nat)
  tally : Option (BitVec 32)  -- the packet's tally, beside its marked word (R222, R242)
deriving DecidableEq, Repr

/-- Whether a packet spans the banks and the chain (R551): none, still open, or complete with words left in the banks. -/
inductive Span where
  | none | opened | complete
deriving DecidableEq, Repr

/-- A ferry queue (R222 to R233, R551). -/
structure Queue where
  fill : List QWord
  drain : List QWord
  drainIdx : Nat              -- STAT.DRAIN
  lead : List QWord           -- words of the chain that leave before any bank word (R178, R232)
  chain : List QWord          -- its other words, which leave after the bank words
  mode : Nat                  -- STAT.MODE codes of R231
  passed : Bool               -- in an episode: both banks have passed, new words enter the banks (R232)
  retired : Bool
  span : Span                 -- the packet that began in the banks and continues in the chain (R551)
  openLen : Nat               -- words of the open packet stored so far, those already taken included
  openCrc : BitVec 32         -- running tally over the stored words of the open packet
  prodCrc : BitVec 32         -- running tally over every word the producer has written since its last mark (R234)
  prodOpen : Bool             -- the producer has written words since its last mark
  bad : Bool                  -- a word of the open packet was dropped or discarded (R234, R239)
  long : Bool                 -- R224 applies to the words up to the producer's next mark
  taken : List QWord          -- words a service consumer has taken of a packet it has not all of yet
deriving DecidableEq, Repr

/-- A fabric request that holds a tag in the memory engine (R215 to R219): its request queue and what is left of its response. -/
structure EngReq where
  queue : Nat
  words : List Nat
  tally : Nat
  poison : Bool
  integ : Bool
deriving DecidableEq, Repr

/-- A ready-list entry (R64, R248). `seq` is its place in post order. -/
structure CallEnt where
  seq : Nat
  cycle : Nat
  course : Nat
  cls : Nat
  args : List Nat
  tag : Nat
  level : Nat
  postT : Nat
  levelT : Nat
  urgent : Bool
deriving DecidableEq, Repr

/-- A call core's place in the scheduler (R256, R257, R262) and the call CSRs of R270. -/
structure CallSlot where
  pref : Option CallEnt
  cur : Option CallEnt
  curT : Nat
  limit : Nat                 -- watchdog limit in ns, 0 none (R262)
  age : Nat                   -- hvcage
  rets : List (BitVec 12)     -- hvcret0 to hvcret15
  stat : Nat                  -- hvcstat
  hbmWin : Nat                -- hvhbmwin
  timeH : BitVec 32           -- hvtimeh latch
deriving DecidableEq, Repr

/-- A completed blocking return waiting for queue 62 (R260, R261). -/
structure CallRet where
  seq : Nat
  words : List Nat
deriving DecidableEq, Repr

/-- The call scheduler (R248 to R265). -/
structure CallUnit where
  ready : List CallEnt        -- all levels, in post order
  slots : Vector CallSlot 8
  rets : List CallRet
  nextSeq : Nat
  mirror : List (Nat × List Nat)   -- returns mirrored by the primary (R265): post number and words
deriving DecidableEq, Repr

/-- An on-chip core (R267 to R275): the architectural state the manual and the named instruction sets give it. -/
structure Core where
  pc : Nat
  regs : Vector (BitVec 64) 32
  csr : Sparse (BitVec 64)
  mem : Sparse (BitVec 8)     -- TCM of a call core, firmware SRAM of a controller
  user : Bool                 -- privilege mode of an RV64 core (R271, R274)
  sleeping : Bool
  event : Bool                -- an event has reached a controller as a machine external interrupt and none has been taken for it (R272, R323)
  resv : Option Nat           -- LR reservation of an RV64 core
  dirty : Sparse (List Nat)   -- dirty data-cache lines of a controller, by line (R271, R272)
  clean : List Nat            -- clean data-cache lines held
deriving DecidableEq, Repr

/-- A trace source: FIFO of 16 records, DELTA and NINST counts, records lost since the last LOSS (R461 to R470). -/
structure TraceSrc where
  fifo : List (BitVec 128)
  delta : Nat
  ninst : Nat
  lost : Nat
deriving DecidableEq, Repr

/-- A trace buffer and its sources (R469 to R474): 0 to 7 call cores, 8 section controller, 9 call scheduler; the hub has one. -/
structure TraceBuf where
  buf : Sparse (BitVec 128)
  zeroed : Bool               -- unlisted records read zero (R472) rather than undefined (R474)
  epoch : Nat
  srcs : Vector TraceSrc 10
  next : Nat                  -- source after the one taken last, round-robin (R469)
  unsent : Nat                -- records lost since the last TRACE_LOSS notice
  sentT : Option Nat
deriving DecidableEq, Repr

end Sys2Proof.Machine
end

