-- ==== Sys2Proof/Machine/StartValues.lean ====
section
/-! DEFINITION. What the parts of the state hold at their resets. -/

namespace Sys2Proof.Machine

/-- A table after OFF, of the given power-up. -/
def Table.start (w epoch : Nat) : Table w := { ent := [], filled := [], epoch := epoch }

/-- The fabric of a section after OFF: stores clear, tables undefined (R72, R77, R113, R148). -/
def Fabric.start (epoch : Nat) : Fabric :=
  { store := [], code := Table.start 96 epoch, codeLo := none, codeMid := none, cslot := Table.start 32 epoch,
    gslot := Table.start 64 epoch, wait := Table.start 32 epoch, clkNext := [], xfers := [], rets := [], row := none, rowDone := [],
    rowErr := [], issued := [], pinsDone := [], pinMap := [], ran := 0, clearDue := none }

/-- Run control at rest. -/
def RunSt.start : RunSt :=
  { xstep := 0, inStep := false, atEnd := false, sample := none, haltDue := false, memberLeft := [], lastStep := 0, lastPeriod := 0,
    effectDue := false, resampled := false, fretFaults := 0, faultStep := 0, holdRun := 0, stallSent := false, stepsLeft := none,
    armed := none, armStep := false, trigSeen := false, drain := none, restarting := false, paceTimes := [], paceDue := [],
    paceUnsent := 0, paceSent := none, late := false, timeHit := false, reads := [] }

/-- Section memory after power-on. -/
def SecMem.start : SecMem :=
  { spad := [], spadTag := [], hbm := [], hbmTag := [], bankMove := [], acc := [], urgent := [] }

/-- A trace unit and buffer with nothing recorded, of the given power-up. -/
def TraceSrc.start : TraceSrc := { fifo := [], delta := 0, ninst := 0, lost := 0 }
def TraceBuf.start (epoch : Nat) : TraceBuf :=
  { buf := [], zeroed := false, epoch := epoch, srcs := Vector.replicate 10 TraceSrc.start, next := 0, unsent := 0, sentT := none }

/-- A DMA channel that does nothing. -/
def DmaCh.start : DmaCh :=
  { desc := none, moved := 0, wrote := 0, last := none, entry := none, reading := false, halt := false, wdraw := false, rereading := false }

/-- The service network of a section at reset: default routes, nothing written over them (R446). -/
def Noc.start : Noc :=
  { active := [], shadow := [], swapT := none, dropUnsent := 0, dropT := none, dropFirst := true, intUnsent := 0, intT := none }

/-- A queue after section power-up or soft reset: start-up chain mode (R231, R243). -/
def Queue.start : Queue :=
  { fill := [], drain := [], drainIdx := 1, lead := [], chain := [], mode := 1, passed := false, retired := false, span := .none,
    openLen := 0, openCrc := BitVec.ofNat 32 crcStart, prodCrc := BitVec.ofNat 32 crcStart, prodOpen := false, bad := false, long := false,
    taken := [] }

/-- A call core's place in the scheduler with nothing in it. -/
def CallSlot.empty : CallSlot :=
  { pref := none, cur := none, curT := 0, limit := 0, age := 0, rets := List.replicate 16 0, stat := 0, hbmWin := 0, timeH := 0 }

/-- The call unit after a section soft reset. -/
def CallUnit.start : CallUnit := { ready := [], slots := Vector.replicate 8 CallSlot.empty, rets := [], nextSeq := 0, mirror := [] }

/-- An on-chip core after reset (R267, R271, R274): registers and memory as log 7 says. -/
def Core.start (vector : Nat) : Core :=
  { pc := vector, regs := Vector.replicate 32 0, csr := [], mem := [], user := false, sleeping := false, event := false, resv := none,
    dirty := [], clean := [] }

/-- A decoder before its first sample. -/
def DecSt.idle : DecSt := ⟨none, 0, 0, 0, 0, 0, 0⟩

/-- An engine after a section soft reset. -/
def CapSt.idle : CapSt :=
  { rows := [], ready := [], stamps := [], breaks := 0, missNow := false, r0 := none, noOvl := false, metas := [], last := [],
    trig := none, closeT := 0, deadNs := 0, deadCyc := 0, holdRows := 0, holdOff := 0, force := false, prev := none,
    dec := Vector.replicate 4 DecSt.idle, ext0 := false, ext1 := false, queue := [], ovfNew := 0, ovfT := none,
    actSkip := 0, act := none, actPrev := none }

/-- No ball driven, no test instruction. -/
def PinSt.idle : PinSt :=
  { ext := [], out := [], ball := [], trg := [], gens := 0, xpulse := 0, ins := .idcode, shift := 0, bsr := 0, tcks := 0, smbAddr := 0, smbReg := 0 }

/-- A pulse generator at rest, a domain at reset, and the time engine at reset (R312). -/
def PgSt.start : PgSt := { k := none, count := 0, fall := none, arming := false, jumped := false }
def DomSt.start (clk : Nat) : DomSt :=
  { ofs := 0, good := 0, bad := 0, lastT := clk, seq := 0, outst := none, reqT := none, missNew := 0, missT := none }
def TimeSt.start (clk : Nat) : TimeSt :=
  { dom := Vector.replicate 2 (DomSt.start clk), hist := [], setDue := none, stepDue := none, switchDue := false, sel := 0,
    servo := false, slewT := none, alarms := [], pgs := Vector.replicate 8 PgSt.start, stamps := Vector.replicate 2 [], recent := [],
    ptp := Vector.replicate 2 ⟨false, none⟩ }

/-- The system of devices at reset. -/
def SysSt.start : SysSt :=
  { registry := [], routes := [], neigh := [], manager := none, parent := none, parentT := 0, parentDepth := 0, seen := 0,
    reported := none, lostNodes := [], censusSeq := 0, censusT := 0, readySent := false, partialSent := false, relays := [],
    nextTag := 0, dropUnsent := 0, dropT := none }

/-- The twin pair at reset. -/
def TwinSt.start : TwinSt :=
  { pairT := 0, peerSerial := none, hbSeq := 0, heard := false, missRun := 0, peerState := 0, peerMask := 0,
    peerDcyc := List.replicate 8 0, own := [], other := [], pins := [], disposed := [], reported := [], took := [], mirGot := [],
    mirrorNext := 0, fwd := [], loadChk := none, standby := [], moved := [], accepted := [], resumed := [], takingT := 0,
    takingCause := 0, stepdownFrom := [], mboxOpen := [], stopped := false, selfDue := [] }

/-- The boot unit at reset release, over a flash; `due` says that RESET_CAUSE is to be sent. -/
def BootSt.start (flash : Sparse (BitVec 8)) (clk : Nat) (due : Bool) : BootSt :=
  { booted := none, flash := flash, flOp := none, otpOp := none, releaseT := clk, causeDue := due, backupDue := false }

/-- Power control with no request and no hold. -/
def PowSt.start : PowSt :=
  { holdSup := false, holdClk := false, holdHot := false, episode := none, lowest := 0, recT := none, throtT := none, coolT := none,
    hotReq := false, soft := 0, softHeld := 0, hotStack := 0 }

/-- The HHP state of a function at reset. -/
def HostFn.start : HostFn :=
  { minor := 0, queued := [], long := none, halted := false, waiting := [], lost := false, unsig := [] }

end Sys2Proof.Machine
end

