-- ==== Sys2Proof/Machine/State.lean ====
section
/-! DEFINITION. The state of the device: every register in one store, the sections, the hub and the queue of
commands. State.reset is the device right after PORST_N, as the manual's reset columns say. -/

namespace Sys2Proof.Machine

/-- A section (R13, R15) beyond its registers. -/
structure Sec where
  fab : Fabric
  run : RunSt
  mem : SecMem
  queues : Vector Queue 64
  eng : List EngReq
  calls : CallUnit
  cores : Vector Core 8
  ctl : Core
  trc : TraceBuf
  dma : Vector DmaCh 4
  noc : Noc
  cap : CapSt
deriving DecidableEq, Repr

/-- The device beyond the fuses: registers, sections and hub. Registers are keyed layout·2^32 + offset, where layout 0 to 7 is
section n's BAR0 (R537) and 8 is PF0's (R536); an unlisted register holds its reset value. -/
structure Dev where
  regs : Sparse (BitVec 32)
  latch : Sparse (BitVec 32)      -- R7 read latches, by the key of the low half
  staging : Sparse (BitVec 32)    -- R7 write staging, by the key of the low half
  rdata : List (BitVec 8)         -- the model's port: data of the last read a command returned
  rstat : Nat                     -- and how it completed: 0 normally, 1 poisoned (EP), 2 Completer Abort
  free : Nat                      -- the model's own: number of the next free value
  clk : Nat                       -- nanoseconds since power-on (R509)
  time : TimeVal
  secs : Vector Sec 8
  host : Vector HostFn 9
  hostMem : Sparse (BitVec 8)     -- host memory, outside the device
  hostEp : List Nat               -- its lines that the device last wrote with EP set (R432, R438)
  lanes : Sparse Lane             -- by 4·quad + lane; unlisted: Lane.idle
  bundles : Sparse Bundle         -- by 32·section + section lane index of bundle lane 0; unlisted: Bundle.idle
  sys : SysSt
  twin : TwinSt
  served : Nat                    -- the function whose packet the PCI Express endpoint served last (R25)
  hdma : Vector DmaCh 2
  htrc : TraceBuf
  ctl : Core                      -- device controller (R274)
  pins : PinSt
  tim : TimeSt
  boot : BootSt
  pow : PowSt
  loads : List LoadSt             -- in the order of their stage 1
  images : Sparse Committed       -- by section: the image COMMIT recorded
deriving DecidableEq, Repr

/-- The machine: the device, its fuses and the commands waiting, first in first out. -/
structure State where
  dev : Dev
  otp : OtpSt
  pending : List Instr
deriving DecidableEq, Repr

/-- A section that is OFF and has never been on. -/
def Sec.start : Sec :=
  { fab := Fabric.start 0, run := RunSt.start, mem := SecMem.start, queues := Vector.replicate 64 Queue.start, eng := [],
    calls := CallUnit.start, cores := Vector.replicate 8 (Core.start 0), ctl := Core.start 0, trc := TraceBuf.start 0,
    dma := Vector.replicate 4 DmaCh.start, noc := Noc.start, cap := CapSt.idle }

/-- The device as PORST_N releases it with its supplies and clock good: boot stage 0, every section OFF, its registers at their reset values,
flash erased, nothing connected. The sections show the run state OFF (R134, R510) in place of the value that their own reset gives. -/
def Dev.atReset : Dev :=
  { regs := (List.range 8).map (fun n => (n * 2 ^ 32 + Reg.SCTL.STATE.base, 0))
    latch := []
    staging := []
    rdata := []
    rstat := 0
    free := 0
    clk := 0
    time := ⟨0, 0, 0⟩
    secs := Vector.replicate 8 Sec.start
    host := Vector.replicate 9 HostFn.start
    hostMem := []
    hostEp := []
    lanes := []
    bundles := []
    sys := SysSt.start
    twin := TwinSt.start
    served := 8
    hdma := Vector.replicate 2 DmaCh.start
    htrc := TraceBuf.start 0
    ctl := Core.start 0
    pins := PinSt.idle
    tim := TimeSt.start 0
    boot := BootSt.start [] 0 false
    pow := PowSt.start
    loads := []
    images := [] }

/-- Fuses of a device as shipped: no boot key, nothing revoked, no rollback count, LOCK unblown (log 12). -/
def OtpSt.blank : OtpSt :=
  { keysR := Vector.replicate 4 ⟨0, false⟩
    keysS := Vector.replicate 4 ⟨0, false⟩
    revR := 0
    revS := 0
    irevR := 0
    irevS := 0
    count := 0
    lock := false }

/-- The machine right after reset, no command waiting. -/
def State.reset : State := { dev := Dev.atReset, otp := OtpSt.blank, pending := [] }

/-- Reasons a command stops the machine with a fault. The manual gives every command an effect, so none is raised. -/
inductive Fault where
  /-- Raised by no command. Safe: it never occurs. -/
  | none
deriving DecidableEq, Repr

/-- Reasons a command is refused. -/
inductive Refusal where
  /-- A command whose meaning is not written; raised by exec's arm of that name. Safe. -/
  | notModelled (mnemonic : String)
deriving DecidableEq, Repr

end Sys2Proof.Machine
end

