-- ==== Sys2Proof/Machine/Ops.lean ====
section
/-! DEFINITION. The named operations over the device: registers, sections, free values, time. Every meaning is a
function from device to device made of these, and a command that has taken effect answers the next state. -/

namespace Sys2Proof.Machine

abbrev Out := Host.Outcome State Fault Refusal

/-- The next state of a command whose effect on the device is `f`. -/
def State.act (s : State) (f : Dev → Dev) : Out := .next { s with dev := f s.dev }

/-! ### Vectors and sparse defaults -/

/-- Element i of a vector; `d` beyond its end. -/
def vget {α : Type} {n : Nat} (v : Vector α n) (i : Nat) (d : α) : α := v.toList.getD i d

/-- The vector with element i changed by `f`. -/
def vmod {α : Type} {n : Nat} (v : Vector α n) (i : Nat) (f : α → α) : Vector α n :=
  if h : i < n then v.set i (f v[i]) else v

/-! ### Registers -/

/-- A register: its key in the store and its reset value. -/
structure Loc where
  key : Nat
  reset : Nat
deriving DecidableEq, Repr

/-- Byte offset that the indices of a row add. -/
def idxOff : List (Nat × Nat) → List Nat → Nat
  | (_, st) :: ds, i :: is => i * st + idxOff ds is
  | _, _ => 0

/-- Reset value of a row over its 32 or 64 bits. -/
def Row.resetVal (r : Row) : Nat := r.fields.foldl (fun a f => a + f.reset * 2 ^ f.lo) 0

/-- The layout number that a row lies in, for section n. -/
def Row.dom (r : Row) (n : Nat) : Nat := if r.hub then 8 else n

/-- The register of a section row at the given indices (low half of a wide row). -/
def Row.of (r : Row) (n : Nat) (ix : List Nat := []) : Loc :=
  ⟨r.dom n * 2 ^ 32 + r.base + idxOff r.dims ix, r.resetVal % 2 ^ 32⟩

/-- The register of a hub row at the given indices. -/
def Row.hubAt (r : Row) (ix : List Nat := []) : Loc := r.of 8 ix

/-- The high half of a wide row (R7). -/
def Row.ofHi (r : Row) (n : Nat) (ix : List Nat := []) : Loc :=
  ⟨r.dom n * 2 ^ 32 + r.base + idxOff r.dims ix + 4, r.resetVal / 2 ^ 32⟩

namespace Dev

/-- The value a register holds. -/
def rd (d : Dev) (l : Loc) : Nat := (Sparse.get (fun _ => BitVec.ofNat 32 l.reset) d.regs l.key).toNat

/-- The device with a register set to the low 32 bits of `v`. -/
def wr (d : Dev) (l : Loc) (v : Nat) : Dev :=
  { d with regs := Sparse.set (fun _ => BitVec.ofNat 32 l.reset) d.regs l.key (BitVec.ofNat 32 v) }

/-- Field [hi:lo] of a register. -/
def fd (d : Dev) (l : Loc) (hi lo : Nat) : Nat := bits (d.rd l) hi lo

/-- One bit of a register. -/
def fb (d : Dev) (l : Loc) (n : Nat) : Bool := (d.rd l).testBit n

/-- The device with field [hi:lo] of a register set. -/
def wf (d : Dev) (l : Loc) (hi lo v : Nat) : Dev := d.wr l (setBits (d.rd l) hi lo v)

/-- The device with one bit of a register set or cleared. -/
def wb (d : Dev) (l : Loc) (n : Nat) (b : Bool) : Dev := d.wf l n n (b2n b)

/-- The device with a saturating 32-bit counter raised by `k`. -/
def bump (d : Dev) (l : Loc) (k : Nat := 1) : Dev := d.wr l (satAdd 32 (d.rd l) k)

/-- The 64-bit value of a wide row (R7). -/
def rd64 (d : Dev) (r : Row) (n : Nat) (ix : List Nat := []) : Nat :=
  d.rd (r.of n ix) + 2 ^ 32 * d.rd (r.ofHi n ix)

/-- The device with a 64-bit value stored in a wide row. -/
def wr64 (d : Dev) (r : Row) (n : Nat) (ix : List Nat) (v : Nat) : Dev :=
  (d.wr (r.of n ix) (v % 2 ^ 32)).wr (r.ofHi n ix) (v / 2 ^ 32)

/-- The device with a saturating 64-bit counter raised by `k`. -/
def bump64 (d : Dev) (r : Row) (n : Nat) (ix : List Nat) (k : Nat := 1) : Dev :=
  d.wr64 r n ix (satAdd 64 (d.rd64 r n ix) k)

/-- `f` where the condition holds, the device as it stands otherwise. -/
def when (d : Dev) (c : Bool) (f : Dev → Dev) : Dev := if c then f d else d

/-- A change for each element of a list, in order. -/
def each {α : Type} (d : Dev) (l : List α) (f : α → Dev → Dev) : Dev := l.foldl (fun d x => f x d) d

/-! ### Sections -/

/-- The registers of layout `dom` whose offsets satisfy `p` hold their reset values again, by a clear that is no reset of their block: read latches
and staged halves stay (R7). -/
def clearRegs (d : Dev) (dom : Nat) (p : Nat → Bool) : Dev :=
  { d with regs := Sparse.keep (fun k => !(k / 2 ^ 32 == dom && p (k % 2 ^ 32))) d.regs }

/-- The registers of layout `dom` whose offsets satisfy `p` are reset: their read latches and staged halves go with them (R7). -/
def resetRegs (d : Dev) (dom : Nat) (p : Nat → Bool) : Dev :=
  { d with
    regs := Sparse.keep (fun k => !(k / 2 ^ 32 == dom && p (k % 2 ^ 32))) d.regs
    latch := Sparse.keep (fun k => !(k / 2 ^ 32 == dom && p (k % 2 ^ 32))) d.latch
    staging := Sparse.keep (fun k => !(k / 2 ^ 32 == dom && p (k % 2 ^ 32))) d.staging }

/-- A change of section n. -/
def sec (d : Dev) (n : Nat) (f : Sec → Sec) : Dev := { d with secs := vmod d.secs n f }

/-- A part of section n; `z` where there is no such section. -/
def getSec {α : Type} (d : Dev) (n : Nat) (z : α) (f : Sec → α) : α :=
  match d.secs.toList[n]? with
  | some s => f s
  | none => z

def fab (d : Dev) (n : Nat) (f : Fabric → Fabric) : Dev := d.sec n (fun s => { s with fab := f s.fab })
def run (d : Dev) (n : Nat) (f : RunSt → RunSt) : Dev := d.sec n (fun s => { s with run := f s.run })
def mem (d : Dev) (n : Nat) (f : SecMem → SecMem) : Dev := d.sec n (fun s => { s with mem := f s.mem })
def calls (d : Dev) (n : Nat) (f : CallUnit → CallUnit) : Dev := d.sec n (fun s => { s with calls := f s.calls })
def noc (d : Dev) (n : Nat) (f : Noc → Noc) : Dev := d.sec n (fun s => { s with noc := f s.noc })
def queue (d : Dev) (n q : Nat) (f : Queue → Queue) : Dev :=
  d.sec n (fun s => { s with queues := vmod s.queues q f })

/-! ### Free values and time -/

/-- The next free value, of `w` bits, handed to a change, and the counter advanced. -/
def fresh (d : Dev) (w : Nat) (f : Nat → Dev → Dev) : Dev :=
  f ((Config.freeValue d.free).toNat % 2 ^ w) { d with free := d.free + 1 }

/-- The device is held in reset (R500, R505, R509). -/
def held (d : Dev) : Bool := d.pow.holdSup || d.pow.holdClk || d.pow.holdHot

/-- WRAP ‖ NS, the 64-bit time of notices and hvtime (R420, R270). -/
def wrapNs (d : Dev) : Nat := d.time.wrap * 2 ^ 48 + d.time.ns

end Dev

/-- The run state code of section n (R134). -/
def Dev.runState (d : Dev) (n : Nat) : Nat := d.fd (Reg.SCTL.STATE.of n) 2 0

/-- The sections of the run group of section n, rising (R19, R141); the section alone where it belongs to none. -/
def Dev.group (d : Dev) (n : Nat) : List Nat :=
  let g := onesOf 8 (d.fd (Reg.SCTL.STATE.of n) 23 16)
  if g.isEmpty then [n] else g

/-- The leader of the run group of section n (R136). -/
def Dev.leader (d : Dev) (n : Nat) : Nat := d.fd (Reg.SCTL.STATE.of n) 26 24

/-- The period P of the committed image (R141). -/
def Dev.period (d : Dev) (n : Nat) : Nat := d.fd (Reg.SCTL.PERIOD.of n) 9 0

/-- DCYC (R85). -/
def Dev.dcyc (d : Dev) (n : Nat) : Nat := d.rd64 Reg.SCTL.DCYC n

/-- POS.STEP (R141). -/
def Dev.posStep (d : Dev) (n : Nat) : Nat := d.fd (Reg.SCTL.POS.of n) 8 0

/-- HOLDING (R134). -/
def Dev.holding (d : Dev) (n : Nat) : Bool := d.fb (Reg.SCTL.STATE.of n) 3

/-- Whether cluster c belongs to the image (R127). -/
def Dev.used (d : Dev) (n c : Nat) : Bool := d.fb (Reg.CLUS.CLKCTL.of n [c]) 4

/-- The used clusters of section n, rising (R105). -/
def Dev.usedClusters (d : Dev) (n : Nat) : List Nat := (List.range 16).filter (d.used n)

/-! ### The twin pair (R403) -/

namespace Dev

/-- TWIN.STAT.STATE. -/
def twinState (d : Dev) : Nat := d.fd Reg.TWIN.STAT.hubAt 31 28

/-- A paired secondary, taking over or not, or halted by a mismatch: it receives its inputs from the mirror alone (R384). -/
def secondary (d : Dev) : Bool :=
  (d.twinState == 2 || d.twinState == 4 || d.twinState == 5) && !(d.fb Reg.TWIN.STAT.hubAt 0) && d.fb Reg.TWIN.CTL.hubAt 31

/-- A paired primary: it mirrors its inputs (R385). -/
def pairedPrimary (d : Dev) : Bool := d.twinState == 2 && d.fb Reg.TWIN.STAT.hubAt 0

/-- A self-detected fault with its cause of R400 has arisen in a paired twin (R393). -/
def selfDetected (d : Dev) (cause : Nat) : Dev :=
  if d.twinState = 2 ∧ !(d.twin.selfDue.contains cause) then { d with twin := { d.twin with selfDue := d.twin.selfDue ++ [cause] } } else d

/-- Key of the MIR bundle (R382). -/
def mirKey (d : Dev) : Nat := 32 * d.fd Reg.TWIN.CTL.hubAt 18 16 + d.fd Reg.TWIN.CTL.hubAt 4 0

def bundle (d : Dev) (k : Nat) (f : Bundle → Bundle) : Dev :=
  { d with bundles := Sparse.set (fun _ => Bundle.idle) d.bundles k (f (Sparse.get (fun _ => Bundle.idle) d.bundles k)) }

def getBundle (d : Dev) (k : Nat) : Bundle := Sparse.get (fun _ => Bundle.idle) d.bundles k

def lane (d : Dev) (l : Nat) (f : Lane → Lane) : Dev :=
  { d with lanes := Sparse.set (fun _ => Lane.idle) d.lanes l (f (Sparse.get (fun _ => Lane.idle) d.lanes l)) }

def getLane (d : Dev) (l : Nat) : Lane := Sparse.get (fun _ => Lane.idle) d.lanes l

def twn (d : Dev) (f : TwinSt → TwinSt) : Dev := { d with twin := f d.twin }

/-- A packet handed to a bundle on an SVC or MIR channel, with its tally (R240, R351). -/
def sendPkt (d : Dev) (k chan : Nat) (words : List Nat) : Dev :=
  d.bundle k (fun b => { b with outPkts := b.outPkts ++ [⟨chan, words, crcEnd (words.foldl crcWord crcStart), false, none⟩] })

/-- A message on MIR virtual channel vc (R383). -/
def sendMir (d : Dev) (vc : Nat) (words : List Nat) : Dev := d.sendPkt d.mirKey (30 + vc) words

/-- Free words of the mirror buffer of MIR virtual channel vc (R385). -/
def mirrorRoom (d : Dev) (vc : Nat) : Nat :=
  Config.mirrorBuffer.toNat % 4096 -
    ((d.getBundle d.mirKey).outPkts.filter (fun p => p.chan == 30 + vc)).foldl (fun a p => a + p.words.length) 0

/-- `n` words of 12 bits, lowest first (R400). -/
def words12 (n v : Nat) : List Nat := (List.range n).map (fun i => v / 2 ^ (12 * i) % 4096)

/-- The value of words of 12 bits, lowest first. -/
def ofWords12 (ws : List Nat) : Nat := ws.zipIdx.foldl (fun a p => a + p.1 % 4096 * 2 ^ (12 * p.2)) 0

end Dev

end Sys2Proof.Machine
end

