-- ==== Sys2Proof/Machine/HostRing.lean ====
section
/-! DEFINITION. Completion rings, notices and MSI-X (R412 to R421), the shared way every unit speaks to host software. -/

namespace Sys2Proof.Machine

/-- The byte an unlisted address of host memory reads as. DESIGN CHOICE (log 10): the manual says nothing of host memory. -/
def hostDefault (_ : Nat) : BitVec 8 := 0

namespace Dev

/-- A byte of host memory. -/
def hostByte (d : Dev) (a : Nat) : Nat := (Sparse.get hostDefault d.hostMem (a % 2 ^ 64)).toNat

/-- `n` bytes of host memory from an address on. -/
def hostRead (d : Dev) (a n : Nat) : List Nat := (List.range n).map (fun i => d.hostByte (a + i))

/-- Host memory with a byte string stored from an address on, in packets without EP. -/
def hostWrite (d : Dev) (a : Nat) (bs : List Nat) : Dev :=
  let put := fun m p => Sparse.set hostDefault m ((a + p.2) % 2 ^ 64) (BitVec.ofNat 8 p.1)
  { d with
    hostMem := bs.zipIdx.foldl put d.hostMem
    hostEp := d.hostEp.filter (fun l => !(decide (a / 64 ≤ l ∧ l * 64 < a + bs.length))) }

/-- A whole line of host memory written, with EP set where `ep` says so (R405, R438). -/
def hostLine (d : Dev) (a : Nat) (bs : List Nat) (ep : Bool) : Dev :=
  let d := d.hostWrite a bs
  if ep then { d with hostEp := (a / 64) :: d.hostEp } else d

/-- The host state of function f. -/
def fn (d : Dev) (f : Nat) (g : HostFn → HostFn) : Dev := { d with host := vmod d.host f g }

/-- A part of function f's host state. -/
def getFn {α : Type} (d : Dev) (f : Nat) (z : α) (g : HostFn → α) : α :=
  match d.host.toList[f]? with
  | some h => g h
  | none => z

/-- LOG2N of a ring: values outside 4 to 12 act as 4 (R413). -/
def ringLog (v : Nat) : Nat := if 4 ≤ v ∧ v ≤ 12 then v else 4

/-- Entries of the completion ring of function f. -/
def cplSize (d : Dev) (f : Nat) : Nat := 2 ^ ringLog (d.fd (Reg.HQ.CPLCFG.hubAt [f]) 3 0)

/-- Entries of the command ring of function f. -/
def cmdSize (d : Dev) (f : Nat) : Nat := 2 ^ ringLog (d.fd (Reg.HQ.CMDCFG.hubAt [f]) 3 0)

/-- Whether HQ.CTL.EN enables the rings of function f (R413). -/
def ringsOn (d : Dev) (f : Nat) : Bool := d.fb (Reg.HQ.CTL.hubAt [f]) 0

/-- Whether function f has an open session (R422). -/
def sessionOpen (d : Dev) (f : Nat) : Bool := d.fb (Reg.HQ.CTL.hubAt [f]) 1

/-- Commands of function f that are fetched and not completed (R414). -/
def outstanding (d : Dev) (f : Nat) : Nat :=
  d.getFn f 0 (fun h => h.queued.length + (if h.long.isSome then 1 else 0))

/-- Completion entries not yet written since host software freed them (R415). -/
def freeEntries (d : Dev) (f : Nat) : Nat :=
  let n := d.cplSize f
  let used := (d.fd (Reg.HQ.CPLTAIL.hubAt [f]) 11 0 + n - d.fd (Reg.HQ.CPLHEAD.hubAt [f]) 11 0 % n) % n
  n - 1 - used

/-- STAT.BUSY shows outstanding commands. -/
def showBusy (d : Dev) (f : Nat) : Dev :=
  d.wb (Reg.HQ.STAT.hubAt [f]) 0 (decide (0 < d.outstanding f))

/-- The MSI-X message of a vector: a write of the table's data to the table's address, or the pending bit when the vector is
masked (R418). MSI-X enable and the function mask lie in configuration space; PRESUMED on and clear (log 9). -/
def msix (d : Dev) (f v : Nat) : Dev :=
  if d.fb (Reg.HQ.MSIXV.hubAt [f, v]) 0 then
    d.wr64 Reg.HQ.PBA 8 [f] (d.rd64 Reg.HQ.PBA 8 [f] ||| 2 ^ v)
  else
    d.hostWrite (d.rd (Reg.HQ.MSIXL.hubAt [f, v]) + 2 ^ 32 * d.rd (Reg.HQ.MSIXH.hubAt [f, v]))
      (toBytes 4 (d.rd (Reg.HQ.MSIXD.hubAt [f, v])))

/-- An entry of vector v has been written: the message follows at once, or the entry joins those waiting for COALN
entries or COALT µs (R418). DEDUCED (log 17): either limit at 0 is met by the first entry. -/
def signal (d : Dev) (f v : Nat) : Dev :=
  let irq := Reg.HQ.IRQ.hubAt [f]
  let n := d.getFn f 0 (fun h => (Sparse.get (fun _ => (0, 0)) h.unsig v).1)
  let t := d.getFn f 0 (fun h => (Sparse.get (fun _ => (0, d.clk)) h.unsig v).2)
  if d.fd irq 31 24 = 0 ∨ d.fd irq 23 16 ≤ n + 1 then
    (d.fn f (fun h => { h with unsig := Sparse.drop v h.unsig })).msix f v
  else
    d.fn f (fun h => { h with unsig := Sparse.put v (n + 1, if n = 0 then d.clk else t) h.unsig })

/-- Writes one 64-byte entry, its byte 0 without PHASE given, at CPLTAIL and advances it (R415). -/
def writeEntry (d : Dev) (f : Nat) (byte0 : Nat) (rest : List Nat) : Dev :=
  let tail := Reg.HQ.CPLTAIL.hubAt [f]
  let i := d.fd tail 11 0
  let ph := d.fd tail 16 16
  let base := d.rd64 Reg.HQ.CPLBASE 8 [f]
  let d := d.hostWrite (base + 64 * i) ((byte0 + ph) :: rest)
  if i + 1 = d.cplSize f then (d.wf tail 11 0 0).wf tail 16 16 (1 - ph) else d.wf tail 11 0 (i + 1)

/-- The bytes of a notice entry from byte 1 on (R420). -/
def noticeBytes (n : Notice) : List Nat :=
  n.relay :: toBytes 2 n.code ++ toBytes 2 n.unit ++ [0, 0] ++ toBytes 8 n.time ++
    ((List.range 6).map (fun i => toBytes 8 (n.items.getD i 0))).flatten

/-- Writes a notice entry: NOTICE, LOST when notices were discarded since the last, then the message (R416, R418). -/
def putNotice (d : Dev) (f : Nat) (n : Notice) : Dev :=
  let lost := d.getFn f false (fun h => h.lost)
  let d := d.writeEntry f (2 + if lost then 4 else 0) (noticeBytes n)
  (d.fn f (fun h => { h with lost := false })).signal f (d.fd (Reg.HQ.IRQ.hubAt [f]) 13 8)

/-- Writes waiting notices while free unreserved entries last (R415, R416); `fuel` bounds the loop. -/
def drainNotices : Nat → Dev → Nat → Dev
  | 0, d, _ => d
  | k + 1, d, f =>
    match d.getFn f [] (fun h => h.waiting) with
    | [] => d
    | n :: rest =>
      if d.ringsOn f ∧ d.outstanding f < d.freeEntries f then
        drainNotices k ((d.fn f (fun h => { h with waiting := rest })).putNotice f n) f
      else d

/-- A worker's NOTICE to its manager, for a notice that arises for its PF0 (R400). Without a parent there is nowhere to send it. -/
def relayNotice (d : Dev) (n : Notice) : Dev :=
  match d.sys.parent with
  | none => d
  | some k => d.sendPkt k 27 ([0, d.fd Reg.SYS.CFG.hubAt 22 16 * 32, 0, 6] ++ (2 :: noticeBytes n))

/-- A notice for function f: discarded without counting before OPEN, written in order behind those waiting, buffered up to
64, and discarded with NLOST beyond (R416, R417). -/
def sendTo (d : Dev) (f : Nat) (n : Notice) : Dev :=
  let d := d.when (f == 0 && n.relay == 0 && d.fd Reg.SYS.CFG.hubAt 31 30 == 2) (fun d => d.relayNotice n)
  if !d.sessionOpen f then d
  else if (d.getFn f [] (fun h => h.waiting)).length < 64 then
    drainNotices 65 (d.fn f (fun h => { h with waiting := h.waiting ++ [n] })) f
  else
    (d.fn f (fun h => { h with lost := true })).bump (Reg.HQ.NLOST.hubAt [f])

/-- A notice of section n's units goes to PF(n+1), and to PF0 as well where NCOPY says so (R417). The event reaches the section controller too (R272,
log 86). -/
def notice (d : Dev) (n code : Nat) (items : List Nat) : Dev :=
  let x : Notice := ⟨code, n, d.wrapNs, items, 0⟩
  let d := (d.sec n (fun s => { s with ctl := { s.ctl with event := true } })).sendTo (n + 1) x
  if d.fb (Reg.HQ.NCOPY.hubAt [0]) n then d.sendTo 0 x else d

/-- A notice of lanes and hub units goes to PF0 with UNIT 0xF (R417, R420). -/
def hubNotice (d : Dev) (code : Nat) (items : List Nat) : Dev :=
  d.sendTo 0 ⟨code, 0xF, d.wrapNs, items, 0⟩

/-- A completion entry: CID, STATUS and up to 56 bytes of DATA (R420), then the message on CPLVEC. With the rings disabled it has nowhere to
go. -/
def complete (d : Dev) (f cid status : Nat) (data : List Nat) : Dev :=
  if !d.ringsOn f then d.showBusy f
  else
  let d := d.writeEntry f 0 (0 :: toBytes 2 cid ++ toBytes 2 status ++ [0, 0] ++
    ((data ++ List.replicate 56 0).take 56))
  (drainNotices 65 (d.signal f (d.fd (Reg.HQ.IRQ.hubAt [f]) 5 0)) f).showBusy f

end Dev

end Sys2Proof.Machine
end

