-- ==== Sys2Proof/Machine/Faults.lean ====
section
/-! DEFINITION. Run states, the fault record and the halt of a run group (R134, R135, R156 to R162, R104, R122). -/

namespace Sys2Proof.Machine

/-- Run state codes of R134. -/
abbrev stOFF : Nat := 0
abbrev stPARKED : Nat := 1
abbrev stSLIPWAY : Nat := 2
abbrev stLOADED : Nat := 3
abbrev stRUNNING : Nat := 4
abbrev stPAUSED : Nat := 5
abbrev stHALTED : Nat := 6

/-- Fault codes of R160. -/
abbrev fPARITY : Nat := 0x0201
abbrev fILLEGAL_OP : Nat := 0x0202
abbrev fILLEGAL_OPERAND : Nat := 0x0203
abbrev fUNINIT_READ : Nat := 0x0204
abbrev fGEN_MISMATCH : Nat := 0x0205
abbrev fSLOT_COLLISION : Nat := 0x0206
abbrev fMEM_RANGE : Nat := 0x0207
abbrev fBANK_OFF : Nat := 0x0208
abbrev fPOISONED : Nat := 0x0209
abbrev fINTEGRITY : Nat := 0x020A
abbrev fDOMAIN_OFF : Nat := 0x020B

/-- The global course number of a course of a cluster of section n (R12). -/
def globalCourse (n cl crs : Nat) : Nat := 1024 * n + 64 * cl + crs

namespace Dev

def clkctl (n c : Nat) : Loc := Reg.CLUS.CLKCTL.of n [c]
def clkstat (n c : Nat) : Loc := Reg.CLUS.CLKSTAT.of n [c]

/-- CLKSTAT shows a clock of SRC, DIV and GATE, with the brownout override to ÷2 (R127, R131). A cluster in reset is not gated (R132). -/
def showClock (d : Dev) (n c : Nat) : Dev :=
  let v := d.rd (clkctl n c)
  let s := clkstat n c
  let div := if d.fb s 6 then 1 else bits v 1 0
  let gated := if d.fb s 5 then 0 else bits v 3 3
  ((d.wf s 3 3 gated).wf s 2 2 (bits v 2 2)).wf s 1 0 div

/-- The ÷2 of a brownout episode ends in section n, which no longer runs (R502). -/
def thrOff (d : Dev) (n : Nat) : Dev :=
  d.each ((List.range 16).filter (fun c => d.fb (clkstat n c) 6)) (fun c d =>
    ((d.wb (clkstat n c) 6 false).wb (clkstat n c) 4 false).showClock n c)

/-- Sets the run state code of section n. -/
def setState (d : Dev) (n st : Nat) : Dev :=
  (d.wf (Reg.SCTL.STATE.of n) 2 0 st).when (st != stRUNNING) (fun d => d.thrOff n)

/-- Whether the sections of a run group execute steps: RUNNING, holding or not (R134). -/
def running (d : Dev) (n : Nat) : Bool := d.runState n == stRUNNING

/-- The fault record of section n cleared (R159). -/
def clearFault (d : Dev) (n : Nat) : Dev :=
  (d.clearRegs n (fun o => decide (0x10000 ≤ o ∧ o < 0x20000))).run n (fun r => { r with fretFaults := 0, haltDue := false })

/-- The fields of the fault record of section n set from a fault of its own (R158). -/
def recordOwn (d : Dev) (n : Nat) (f : FaultInfo) : Dev :=
  let d := d.wr (Reg.SFLT.FSTAT.of n) (2 ^ 31 + n * 2 ^ 27 + f.code)
  let d := d.wr (Reg.SFLT.FLOC.of n) (f.opnd * 2 ^ 29 + f.course * 2 ^ 16 + f.bp * 2 ^ 12 + f.step)
  (d.wr64 Reg.SFLT.FCYC n [] f.cycle).run n (fun r => { r with faultStep := r.xstep })

/-- Whether a fault ranks before the recorded one within the same executed step (R68, R157). -/
def ranksFirst (d : Dev) (n : Nat) (f : FaultInfo) : Bool :=
  let loc := Reg.SFLT.FLOC.of n
  !(d.fb (Reg.SFLT.FSTAT.of n) 30) &&
  d.getSec n false (fun s => s.run.faultStep == s.run.xstep && s.run.fretFaults != 0) &&
  decide (f.course * 16 + f.bp < d.fd loc 28 16 * 16 + d.fd loc 15 12)

/-- The fault notice of section n from its record (R159). -/
def faultNotice (d : Dev) (n : Nat) : Dev :=
  let st := Reg.SFLT.FSTAT.of n
  let loc := Reg.SFLT.FLOC.of n
  let src := d.fd st 29 27 + 8 * d.fd st 30 30
  let items := if d.fb st 30 then [0, 0, 0, 0, 0, src]
    else [d.fd loc 28 16, d.fd loc 15 12, d.fd loc 8 0, d.rd64 Reg.SFLT.FCYC n, d.fd loc 31 29, src]
  d.notice n (d.fd st 15 0) items

/-- Discards what HALTED and RESTART discard in section n: slot transfers, scheduled returns, returns of HOME = 0 that have arrived and wait for a
free step, and home-path accesses of ops with HOME = 1 (R84, R104). Accesses with HOME = 0 go on to their banks, and a return of theirs that is on its
way is discarded when it arrives. -/
def discardFlight (d : Dev) (n : Nat) : Dev :=
  (d.fab n (fun f => { f with
    xfers := []
    rets := f.rets.filter (fun r => r.kind == .nonhome && !r.waiting && !r.done)
    row := none, rowDone := [], rowErr := [], issued := [], pinsDone := [] })).mem n
    (fun m => { m with acc := m.acc.filter (fun a => !a.home) })

/-- Section m enters HALTED at the end of fret `fret`: its record, the other members' faults of the fret and departed
members (R156 to R159, R162), flags cleared, flight discarded, its fault notice sent. `others` are the other members with their
fault counts and first codes, lowest section first. A RESTART that was accepted before goes on from HALTED (log 68). -/
def haltOne (d : Dev) (fret : Nat) (others : List (Nat × Nat × Nat)) (m : Nat) : Dev :=
  let mine := others.filter (fun o => o.1 != m)
  let total := mine.foldl (fun a o => a + o.2.1) 0
  let own := d.getSec m 0 (fun s => s.run.fretFaults)
  let d := match d.fb (Reg.SFLT.FSTAT.of m) 31, mine with
    | false, o :: _ =>
      (d.wr (Reg.SFLT.FSTAT.of m) (2 ^ 31 + 2 ^ 30 + o.1 * 2 ^ 27 + o.2.2)).bump (Reg.SFLT.FLATER.of m) (total - 1)
    | _, _ => d.bump (Reg.SFLT.FLATER.of m) total
  let d := d.wr (Reg.SFLT.FHALT.of m) (fret % 32)
  let keep := d.rd (Reg.SCTL.STATE.of m) / 2 ^ 16 * 2 ^ 16
  let d := (d.wr (Reg.SCTL.STATE.of m) (keep + stHALTED)).thrOff m
  let d := d.when (!(d.getSec m false (fun s => s.run.restarting))) (fun d => d.wb (Reg.SCTL.CMDSTAT.of m) 31 false)
  let d := d.run m (fun r => { r with
    haltDue := false, memberLeft := [], fretFaults := 0, sample := none, stepsLeft := none,
    armed := none, drain := none, atEnd := false, effectDue := false, resampled := false, inStep := false })
  (d.discardFlight m).when (decide (0 < own + total)) (fun d => d.faultNotice m)

/-- Every member of the run group of section n halts at the end of fret `fret` (R22, R122, R156). -/
def haltGroup (d : Dev) (n fret : Nat) : Dev :=
  let g := d.group n
  let faulty := g.filterMap (fun m =>
    let c := d.getSec m 0 (fun s => s.run.fretFaults)
    if c = 0 then none else some (m, c, d.fd (Reg.SFLT.FSTAT.of m) 15 0))
  let left := d.getSec n [] (fun s => s.run.memberLeft)
  let all := (List.range 8).filterMap (fun m =>
    if left.contains m then some (m, 1, fDOMAIN_OFF) else faulty.find? (fun y => y.1 == m))
  d.each g (fun m d => d.haltOne fret all m)

/-- A fault of section n: recorded or counted under R157, discarded outside a committed image, and halting a PAUSED or
LOADED group at once (R156). PARITY and INTEGRITY are self-detected faults of a twin (R393). -/
def raise (d : Dev) (n : Nat) (f : FaultInfo) : Dev :=
  let st := d.runState n
  let d := if st ≤ stSLIPWAY then d
    else (d.when (f.code == fPARITY) (fun d => d.selfDetected 0x01)).when (f.code == fINTEGRITY) (fun d => d.selfDetected 0x0A)
  if st ≤ stSLIPWAY then d
  else if st = stHALTED then d.bump (Reg.SFLT.FLATER.of n)
  else
    let first := !(d.fb (Reg.SFLT.FSTAT.of n) 31)
    let d :=
      if first then d.recordOwn n f
      else if d.ranksFirst n f then (d.recordOwn n f).bump (Reg.SFLT.FLATER.of n)
      else d.bump (Reg.SFLT.FLATER.of n)
    let d := d.run n (fun r => { r with haltDue := true, fretFaults := r.fretFaults + 1 })
    if st = stRUNNING then d
    else d.haltGroup n (d.fd (Reg.SCTL.POS.of n) 20 16)

/-- Every listed fault, in order. -/
def raiseAll (d : Dev) (n : Nat) (fs : List FaultInfo) : Dev := d.each fs (fun f d => d.raise n f)

/-- Whether a halt of the group of section n is due: a member has faulted or left (R22, R122, R156). -/
def haltDue (d : Dev) (n : Nat) : Bool :=
  (d.group n).any (fun m => d.getSec m false (fun s => s.run.haltDue || !s.run.memberLeft.isEmpty))

end Dev

end Sys2Proof.Machine
end

