-- ==== Sys2Proof/Machine/TraceUnit.lean ====
section
/-! DEFINITION. Trace records and the FIFOs they enter (R461 to R472): the shared operations of the trace units. Trace
n = 0 to 7 is section n's, 8 the hub's. -/

namespace Sys2Proof.Machine

/-- An idle trace source. -/
def TraceSrc.idle : TraceSrc := ⟨[], 0, 0, 0⟩

namespace Dev

/-- The trace buffer of section n, or of the hub for n = 8. -/
def trc (d : Dev) (n : Nat) (f : TraceBuf → TraceBuf) : Dev :=
  if n = 8 then { d with htrc := f d.htrc } else d.sec n (fun s => { s with trc := f s.trc })

def getTrc {α : Type} (d : Dev) (n : Nat) (z : α) (f : TraceBuf → α) : α :=
  if n = 8 then f d.htrc else d.getSec n z (fun s => f s.trc)

/-- A part of a trace source. -/
def getSrc {α : Type} (d : Dev) (n x : Nat) (z : α) (f : TraceSrc → α) : α :=
  d.getTrc n z (fun t => f (vget t.srcs x TraceSrc.idle))

def src (d : Dev) (n x : Nat) (f : TraceSrc → TraceSrc) : Dev :=
  d.trc n (fun t => { t with srcs := vmod t.srcs x f })

/-- The registers of a trace block: the section's, or the hub's. -/
def trcLoc (n : Nat) (sr hr : Row) (ix : List Nat) : Loc := if n = 8 then hr.hubAt (ix.drop 1) else sr.of n ix

/-- TCTL of source x. -/
def tctl (n x : Nat) : Loc := trcLoc n Reg.STRC.TCTL Reg.HTRC.TCTL [x]
def tstat (n x : Nat) : Loc := trcLoc n Reg.STRC.TSTAT Reg.HTRC.TSTAT [x]
def tlost (n x : Nat) : Loc := trcLoc n Reg.STRC.LOST Reg.HTRC.LOST [x]
def bctl (n : Nat) : Loc := trcLoc n Reg.STRC.BCTL Reg.HTRC.BCTL []
def bstat (n : Nat) : Loc := trcLoc n Reg.STRC.BSTAT Reg.HTRC.BSTAT []

/-- A notice of a section's or the hub's trace unit. -/
def trcNotice (d : Dev) (n code : Nat) (items : List Nat) : Dev :=
  if n = 8 then d.hubNotice code items else d.notice n code items

/-- TSTAT.LEVEL shows the records in the FIFO; the scheduler has no core block (R476). -/
def showLevel (d : Dev) (n x : Nat) : Dev :=
  if x = 9 then d else d.wf (tstat n x) 4 0 (d.getSrc n x 0 (fun t => t.fifo.length))

/-- A record was lost: LOST or DLOST, and TRACE_LOSS at the first loss after BCTL.EN was set and then at most once per
millisecond (R470, R475). -/
def countLoss (d : Dev) (n x : Nat) : Dev :=
  let d := if x = 9 then d.bump (Reg.STRC.DLOST.of n) else d.bump (tlost n x)
  let due := d.getTrc n true (fun t => match t.sentT with | none => true | some t0 => decide (t0 + 1000000 ≤ d.clk))
  if due then
    (d.trcNotice n 0x0B11 [d.getTrc n 0 (fun t => t.unsent) + 1]).trc n
      (fun t => { t with unsent := 0, sentT := some d.clk })
  else d.trc n (fun t => { t with unsent := t.unsent + 1 })

/-- A record enters its source's FIFO; with the buffer disabled it is dropped without counting, and with the FIFO full it
is dropped and counted (R469, R470, R472). -/
def emit (d : Dev) (n x rec : Nat) : Dev :=
  if !(d.fb (bctl n) 31) then d
  else if 16 ≤ d.getSrc n x 0 (fun t => t.fifo.length) then
    (d.src n x (fun t => { t with lost := t.lost + 1 })).countLoss n x
  else (d.src n x (fun t => { t with fifo := t.fifo ++ [BitVec.ofNat 128 rec] })).showLevel n x

/-- P[63:0] of a TIME-carrying record (R461). -/
def timeP (d : Dev) : Nat := d.time.ns + d.time.wrap * 2 ^ 48

/-- A record of R461: KIND, SRC, XB, DELTA and the payload. -/
def mkRec (kind src xb delta p : Nat) : Nat :=
  kind * 2 ^ 28 + src * 2 ^ 24 + xb * 2 ^ 14 + min delta 16383 + p * 2 ^ 32

/-- SRC of source x of trace n (R461). -/
def srcCode (n x : Nat) : Nat := if n = 8 then 0xF else x

/-- A TIME-carrying record with the word P[95:64] given (R461, R463): LOSS, WAKE and RESET carry DELTA 0; NINST restarts at
BRANCH, EXCEPT, SYNC and WAKE (R462). -/
def emitTime (d : Dev) (n x kind xb : Nat) (delta0 : Bool) (hi : Nat) : Dev :=
  let dl := if delta0 then 0 else d.getSrc n x 0 (fun t => t.delta)
  let d := d.emit n x (mkRec kind (srcCode n x) xb dl (d.timeP + min hi (2 ^ 32 - 1) * 2 ^ 64))
  d.src n x (fun t => { t with delta := 0, ninst := if kind = 6 ∨ kind = 7 then 0 else t.ninst })

/-- Whether the trace of source x is ACTIVE (R467). -/
def traceActive (d : Dev) (n x : Nat) : Bool := d.fb (tstat n x) 31

/-- Whether a comparator of source x has ACTION START (R467). -/
def hasStart (d : Dev) (n x : Nat) : Bool :=
  (List.range 8).any (fun k =>
    let c := trcLoc n Reg.STRC.CMP.CFG Reg.HTRC.CMP.CFG [x, k]
    (d.fd c 31 30 == 1 || d.fd c 31 30 == 2) && d.fd c 29 28 == 1)

/-- The start of an ACTIVE trace: SYNC with REASON 1, NINST 0 and DELTA 0 (R467). -/
def traceStart (d : Dev) (n x : Nat) : Dev :=
  let d := (d.wb (tstat n x) 31 true).src n x (fun t => { t with delta := 0, ninst := 0 })
  d.emitTime n x 7 (1 * 2 ^ 6) true 0

/-- A reset of a traced core: RESET with the NINST reached, and the trace waits for a START match where a comparator has that
action (R465, R467). -/
def traceCoreReset (d : Dev) (n x : Nat) : Dev :=
  if !(d.traceActive n x) then d
  else
    let d := d.emitTime n x 0xA 0 true (d.getSrc n x 0 (fun t => t.ninst))
    let d := d.src n x (fun t => { t with ninst := 0 })
    if d.hasStart n x then d.wb (tstat n x) 31 false else d

end Dev

end Sys2Proof.Machine
end

