-- ==== Sys2Proof/Machine/Memory.lean ====
section
/-! DEFINITION. Section memory: addresses, bytes and line tags, banks, regions and windows, service accesses, and the
accesses of cluster ports (R190 to R214, R220, R452 to R456). -/

namespace Sys2Proof.Machine

/-- Responses of the service network (R442). -/
inductive Resp where
  | ok | range | domainOff | uncorr
deriving DecidableEq, Repr

/-- STATUS codes of HBMC.ERR for a response (R217): DOMAIN_OFF cannot arise at the stack. -/
def Resp.isOk : Resp → Bool
  | .ok => true
  | _ => false

/-- Status codes of a response of the memory engine (R217). -/
abbrev rOK : Nat := 0
abbrev rRANGE : Nat := 1
abbrev rPERM : Nat := 2
abbrev rUNCORR : Nat := 3
abbrev rMALFORMED : Nat := 4

/-- Base of the HBM3 range (R190). -/
def hbmBase : Nat := 0x0100000000

/-- Bytes of the HBM3 usable space (R190). -/
def hbmSize : Nat := 0xF0000000

/-- Whether an SMA lies in the scratchpad (R190). -/
def inSpad (a : Nat) : Bool := decide (a < 0x800000)

/-- Whether an SMA lies in the HBM3 usable space (R190). -/
def inHbm (a : Nat) : Bool := decide (hbmBase ≤ a ∧ a < hbmBase + hbmSize)

/-- The channel of section n that holds the line of an HBM3 address: 256-byte granules rotate over its four channels (R213). -/
def hbmChannel (n a : Nat) : Nat := 4 * n + (a - hbmBase) / 64 / 4 % 4

/-- What an unlisted byte of section memory reads as: 0 after the scrub of R209; DESIGN CHOICE for HBM3 (log 6). -/
def memDefault (_ : Nat) : BitVec 8 := 0

/-- The tally of an all-zero line (R209). -/
def zeroTally : BitVec 32 := BitVec.ofNat 32 (crc32c (List.replicate 64 0))

/-- The tag of a scratchpad line after the scrub (R209). -/
def zeroTag (_ : Nat) : LineTag := ⟨some zeroTally, false⟩

/-- The state of an HBM3 line's shadow when nothing is listed: the line's own tally and no poison (R220). `tally = none` here
stands for the matching tally; a listed tally is one that was stored with the line. -/
def goodTag (_ : Nat) : LineTag := ⟨none, false⟩

/-- The initiator number of the network statistics for a master (R447). -/
def initiatorOf (m : Nat) : Option Nat :=
  if m = 16 then some 15 else if m = 21 then some 1
  else if 17 ≤ m ∧ m ≤ 20 then some (m - 15)
  else if 22 ≤ m ∧ m ≤ 30 then some (m - 16) else none

/-- The canonical form of a section's memory: addresses strictly rising, and no byte listed that reads as it would unlisted. -/
def Memory.wf (m : SecMem) : Bool := Sparse.wf memDefault m.spad && Sparse.wf memDefault m.hbm

namespace Dev

/-- The memory of every section is in canonical form. -/
def memWf (d : Dev) : Bool := d.secs.toList.all (fun s => Memory.wf s.mem)

/-! ### Bytes and line tags -/

/-- A byte of section memory as stored. -/
def memByte (d : Dev) (n a : Nat) : Nat :=
  d.getSec n 0 (fun s =>
    if inSpad a then (Sparse.get memDefault s.mem.spad a).toNat
    else (Sparse.get memDefault s.mem.hbm (a - hbmBase)).toNat)

/-- Section memory with one byte stored. -/
def setByte (d : Dev) (n a v : Nat) : Dev :=
  d.mem n (fun m =>
    if inSpad a then { m with spad := Sparse.set memDefault m.spad a (BitVec.ofNat 8 v) }
    else { m with hbm := Sparse.set memDefault m.hbm (a - hbmBase) (BitVec.ofNat 8 v) })

/-- `k` bytes from an SMA on, as stored. -/
def memBytes (d : Dev) (n a k : Nat) : List Nat := (List.range k).map (fun i => d.memByte n (a + i))

/-- The bytes stored from an SMA on. -/
def setBytes (d : Dev) (n a : Nat) (bs : List Nat) : Dev :=
  d.each bs.zipIdx (fun p d => d.setByte n (a + p.2) p.1)

/-- CRC-32C of a line as stored. -/
def lineCrc (d : Dev) (n line : Nat) : Nat := crc32c (d.memBytes n (64 * line) 64)

/-- The tag of a line, by SMA / 64 (R454). -/
def lineTag (d : Dev) (n line : Nat) : LineTag :=
  d.getSec n (goodTag 0) (fun s =>
    if inSpad (64 * line) then Sparse.get zeroTag s.mem.spadTag line
    else Sparse.get goodTag s.mem.hbmTag line)

def setTag (d : Dev) (n line : Nat) (t : LineTag) : Dev :=
  d.mem n (fun m =>
    if inSpad (64 * line) then { m with spadTag := Sparse.set zeroTag m.spadTag line t }
    else { m with hbmTag := Sparse.set goodTag m.hbmTag line t })

/-- A line poisoned by an uncorrectable error of its halfwords or of the stack (R454). -/
def poisonLine (d : Dev) (n line : Nat) : Dev := d.setTag n line { d.lineTag n line with poison := true }

/-- Whether the check of a line fails: its poison bit, or a tally that does not match (R455). A scratchpad line marked NONE and
an HBM3 line with its own tally pass. -/
def lineBad (d : Dev) (n line : Nat) : Bool :=
  let t := d.lineTag n line
  t.poison || (match t.tally with
    | some c => c.toNat != d.lineCrc n line
    | none => false)

/-- A write of bytes lying in one line (R195, R220, R454). `tag` is the sideband that a whole-line write carries. A partial
scratchpad write sets NONE and leaves poison; a partial HBM3 write is merged and keeps the line poisoned where its check
failed; a whole HBM3 line without a tally takes a fresh one. -/
def writeLine (d : Dev) (n a : Nat) (bs : List Nat) (tag : Option LineTag) : Dev :=
  let line := a / 64
  let whole := bs.length == 64 && a % 64 == 0
  let bad := d.lineBad n line
  let old := d.lineTag n line
  let d := d.setBytes n a bs
  if inSpad a then
    match whole, tag with
    | true, some t => d.setTag n line t
    | _, _ => d.setTag n line ⟨none, old.poison⟩
  else
    match whole, tag with
    | true, some t => d.setTag n line (if t.poison then ⟨none, true⟩ else ⟨t.tally, false⟩)
    | true, none => d.setTag n line ⟨none, false⟩
    | false, _ => d.setTag n line ⟨none, bad⟩

/-! ### Banks -/

/-- Bank of a scratchpad address (R193). -/
def bankOf (a : Nat) : Nat := a / 0x80000

/-- Whether bank b performs accesses: BANKSTAT shows ON (R210). -/
def bankOn (d : Dev) (n b : Nat) : Bool := d.fd (Reg.SPAD.BANKSTAT.of n) (2 * b + 1) (2 * b) == 0

/-- Whether the memory at an address can be accessed at all now. -/
def reachable (d : Dev) (n a : Nat) : Bool := !(inSpad a) || d.bankOn n (bankOf a)

/-- A halfword error found at a scratchpad access (R194): 1 corrected, 2 uncorrectable. -/
def countEcc (d : Dev) (n ecc : Nat) : Dev :=
  if ecc = 1 then d.bump (Reg.SPAD.ECCCE.of n)
  else if ecc = 2 then d.bump (Reg.SPAD.ECCUE.of n) else d

/-! ### Regions and windows -/

/-- The place of a region of the address `a` under R204, given its CTL, BASE and LIMIT: the mapped address if it covers `a`.
`circ` says whether the region may be circular (k below 4). -/
def mapRegion (ctl base limit : Nat) (circ : Bool) (a : Nat) : Option Nat :=
  let s := bits ctl 12 8
  let round := circ && ctl.testBit 30
  let b := if round then base * 64 / 2 ^ s * 2 ^ s else base * 64
  if !(ctl.testBit 31) || (round && !(decide (6 ≤ s ∧ s ≤ 22))) then none
  else if b ≤ a ∧ a ≤ limit * 64 + 63 then some (if round then b + (a - b) % 2 ^ s else a)
  else none

/-- Region k of master m applied to an address. -/
def region (d : Dev) (n m k a : Nat) : Option Nat :=
  mapRegion (d.rd (Reg.SPAD.REG.CTL.of n [m, k])) (d.rd (Reg.SPAD.REG.BASE.of n [m, k]))
    (d.rd (Reg.SPAD.REG.LIMIT.of n [m, k])) (decide (k < 4)) a

/-- Whether region k of master m permits reads or writes. -/
def regionPerm (d : Dev) (n m k : Nat) (write : Bool) : Bool :=
  d.fb (Reg.SPAD.REG.CTL.of n [m, k]) (if write then 1 else 0)

/-- The lowest region of master m that covers a whole access and grants its permission (R206). -/
def allow (d : Dev) (n m a len : Nat) (write : Bool) : Option Nat :=
  (List.range 8).find? (fun k =>
    (d.region n m k a).isSome && (d.region n m k (a + len - 1)).isSome && d.regionPerm n m k write)

/-- HBMC.ERR latches the first failed request: its status, its path and its source (R217). -/
def hbmErr (d : Dev) (n status path src : Nat) : Dev :=
  let e := Reg.HBMC.ERR.of n
  if d.fb e 31 then d else d.wr e (2 ^ 31 + status * 2 ^ 8 + path * 2 ^ 6 + src)

/-- The same for an access of a service master or of the capture engine, whose SRC the manual does not give: a free value (log 82). -/
def hbmSvcErr (d : Dev) (n m status : Nat) : Dev :=
  if m ≠ 16 then d.hbmErr n status 2 m
  else if d.fb (Reg.HBMC.ERR.of n) 31 then d
  else d.fresh 6 (fun v d => d.hbmErr n status 1 v)

/-- A refusal under R206: the first is latched, and every one counts. -/
def refuse (d : Dev) (n m a : Nat) (write : Bool) : Dev :=
  let v := Reg.SPAD.RVIOL.of n
  let d := if d.fb v 31 then d
    else (d.wr v (2 ^ 31 + b2n write * 2 ^ 30 + m * 2 ^ 24)).wr (Reg.SPAD.RVADDR.of n) (a / 64)
  d.bump (Reg.SPAD.RVCNT.of n)

/-! ### Fences and integrity -/

/-- A posted write reaching a fenced domain is dropped and counted; NOC_FENCE_DROP at the first drop after PDROP was read and
then at most once per millisecond (R452). Domain: bank b, or 16 for the section. -/
def fenceDrop (d : Dev) (n domain : Nat) : Dev :=
  let d := d.bump (Reg.SNOC.PDROP.of n)
  let due := d.getSec n false (fun s => s.noc.dropFirst ||
    (match s.noc.dropT with | some t => decide (t + 1000000 ≤ d.clk) | none => true))
  if due then
    (d.notice n 0x0B03 [d.getSec n 0 (fun s => s.noc.dropUnsent) + 1, domain]).noc n
      (fun x => { x with dropUnsent := 0, dropFirst := false, dropT := some d.clk })
  else d.noc n (fun x => { x with dropUnsent := x.dropUnsent + 1 })

/-- An INTEGRITY occurrence at an exit point outside the fabric (R456, R458): point 0 BAR2 read, 1 DMA to host, 2 memory engine,
3 link transmitter. -/
def integrity (d : Dev) (n point line : Nat) : Dev :=
  let d := d.bump (Reg.SNOC.INTCNT.of n)
  let lg := Reg.SNOC.INTLOG.of n
  let d := if d.fb lg 31 then d else (d.wr lg (2 ^ 31 + point)).wr (Reg.SNOC.INTADDR.of n) line
  let due := d.getSec n false (fun s =>
    match s.noc.intT with | some t => decide (t + 1000000 ≤ d.clk) | none => true)
  if due then
    (d.notice n 0x0B04 [point, line, d.getSec n 0 (fun s => s.noc.intUnsent) + 1]).noc n
      (fun x => { x with intUnsent := 0, intT := some d.clk })
  else d.noc n (fun x => { x with intUnsent := x.intUnsent + 1 })

/-- Traffic statistics of one request of initiator i (R447, R448): `lat` cycles of latency, none for a posted write. -/
def nocCount (d : Dev) (n i bytes : Nat) (lat : Option Nat) : Dev :=
  if d.fb (Reg.SNOC.STCTL.of n) 31 then d
  else
    let d := (d.bump64 Reg.SNOC.REQ n [i]).bump64 Reg.SNOC.BYTES n [i] bytes
    match lat with
    | none => d
    | some l =>
      let d := d.bump64 Reg.SNOC.LATSUM n [i] l
      let mn := Reg.SNOC.LATMIN.of n [i]
      let mx := Reg.SNOC.LATMAX.of n [i]
      let d := (d.wr mn (min (d.rd mn) l)).wr mx (max (d.rd mx) (min l (2 ^ 32 - 1)))
      d.bump (Reg.SNOC.HIST.of n [i, min 7 (l / 2 ^ d.fd (Reg.SNOC.STCTL.of n) 3 0)])

/-- Traffic statistics of one request of a master. -/
def nocStat (d : Dev) (n m bytes : Nat) (lat : Option Nat) : Dev :=
  match initiatorOf m with
  | none => d
  | some i => d.nocCount n i bytes lat

/-- One request whose latency the manual does not fix: a free value of 16 bits. -/
def nocFree (d : Dev) (n i bytes : Nat) : Dev := d.fresh 16 (fun l d => d.nocCount n i bytes (some l))

/-! ### Service accesses -/

/-- The section controller's data cache holds dirty lines; they are written to memory when another master reaches the line
(R272). The line then leaves the cache. -/
def flushDirty (d : Dev) (n m line : Nat) : Dev :=
  if m = 22 then d
  else match d.getSec n none (fun s => Sparse.find line s.ctl.dirty) with
    | some bs => (d.writeLine n (64 * line) bs none).sec n
        (fun s => { s with ctl := { s.ctl with dirty := Sparse.drop line s.ctl.dirty, clean := s.ctl.clean.filter (· != line) } })
    | none => d.sec n (fun s => { s with ctl := { s.ctl with clean := s.ctl.clean.filter (· != line) } })

/-- Every line of the section controller's cache that satisfies `p` goes to memory where it is dirty, and leaves the cache: another master is about to
write there (R272). -/
def flushWhere (d : Dev) (n : Nat) (p : Nat → Bool) : Dev :=
  let c := d.getSec n (Core.start 0) (fun s => s.ctl)
  d.each (((c.dirty.map (fun e => e.1)) ++ c.clean).filter p) (fun l d => d.flushDirty n 31 l)

/-- The addresses at which the beats of an access start, rising: 8-byte beats that do not cross 8-byte bounds (R197). Each comes
with its length. -/
def beats : Nat → Nat → Nat → List (Nat × Nat)
  | 0, _, _ => []
  | fuel + 1, a, len =>
    if len = 0 then []
    else
      let k := min len (8 - a % 8)
      (a, k) :: beats fuel (a + k) (len - k)

/-- What a halfword error of a kind (1 corrected, 2 uncorrectable) does where an access of master m meets it: the scratchpad counts it (R194), the
stack counts what it cannot correct (R219); an uncorrectable one poisons the line (R454). -/
def halfError (d : Dev) (n m x kind : Nat) : Dev :=
  if inSpad x then (d.countEcc n kind).when (kind == 2) (fun d => d.poisonLine n (x / 64))
  else d.when (kind == 2) (fun d => (((d.bump (Reg.HBMC.UECNT.of n)).selfDetected 0x20).poisonLine n (x / 64)).hbmSvcErr n m rUNCORR)

/-- The errors of an access, each named by its halfword counted from the first one, that lie in the access at `a` of `len` bytes: halfword address and
kind. -/
def errorsIn (a len : Nat) (errs : List (Nat × Nat)) : List (Nat × Nat) :=
  (errs.map (fun e => (2 * (a / 2 + e.1), e.2))).filter (fun e => decide (e.1 < a + len) && e.2 != 0)

/-- A write of bytes that lie in one HBM3 line: where they are less than the line, its check and the merge (R220, R455). -/
def hbmPart (d : Dev) (n m a : Nat) (bs : List Nat) (tag : Option LineTag) : Dev :=
  let d := d.flushDirty n m (a / 64)
  let bad := bs.length != 64 && d.lineBad n (a / 64)
  (d.writeLine n a bs tag).when bad (fun d => d.integrity n 2 (a / 64))

/-! ### Arbitration at a bank (R196 to R200) -/

/-- The rank of a request of master m at a bank, lowest first: urgent ones precede the others, and either are in the order of R196, which is that of
m. -/
def rank (m : Nat) (urgent : Bool) : Nat := (if urgent then 0 else 32) + m

/-- Checks an access of master m against population and regions (R190, R206); the region that allows it, or the refusal counted.
An access outside the populated ranges is refused whatever the regions allow. -/
def checkSvc (d : Dev) (n m a len : Nat) (write : Bool) : Dev × Option Nat :=
  let no := (d.refuse n m a write).when (inHbm a) (fun d => d.hbmSvcErr n m rRANGE)
  match d.allow n m a len write with
  | some k =>
    let lo := (d.region n m k a).getD a
    let hi := (d.region n m k (a + len - 1)).getD a
    if (inSpad lo && inSpad hi) || (inHbm lo && inHbm hi) then (d, some k) else (no, none)
  | none => (no, none)

/-- The requests of master m have been granted: none is urgent now. -/
def granted (d : Dev) (n m : Nat) : Dev := d.mem n (fun x => { x with urgent := x.urgent.filter (fun u => u.1 != m) })

/-- A service read (R206, R194): the response, the bytes, and the device. `errs` are the errors found in the halfwords read. -/
def svcRead (d : Dev) (n m a len : Nat) (errs : List (Nat × Nat)) : Dev × Resp × List Nat :=
  match d.checkSvc n m a len false with
  | (d, none) => (d, .range, [])
  | (d, some k) =>
    let tr := fun x => (d.region n m k x).getD x
    let as := (List.range len).map (fun i => tr (a + i))
    let d := d.granted n m
    if as.any (fun x => !(d.reachable n x)) then (d, .domainOff, [])
    else
      let d := d.each (as.map (· / 64)).eraseDups (fun l d => d.flushDirty n m l)
      let es := errorsIn a len errs
      let d := d.each es (fun e d => d.halfError n m (tr e.1) e.2)
      if es.any (fun e => e.2 == 2) then (d, .uncorr, as.map (d.memByte n)) else (d, .ok, as.map (d.memByte n))

/-- One beat of a partial scratchpad write at `b`, mapped to `x` (R194, R197): an error counts where a halfword is written in part, and one that
cannot be corrected keeps the beat from being performed. `errs` are halfword addresses and kinds. -/
def spadBeat (d : Dev) (n m b x : Nat) (bs : List Nat) (errs : List (Nat × Nat)) : Dev × Resp :=
  let part := fun (e : Nat × Nat) => (e.1 + 1 == b && b % 2 == 1) || (e.1 + 1 == b + bs.length && (b + bs.length) % 2 == 1)
  let es := errs.filter part
  let d := d.each es (fun e d => d.halfError n m x e.2)
  if es.any (fun e => e.2 == 2) then (d, .uncorr) else (d.writeLine n x bs none, .ok)

/-- The part of a service write that lies in one line, at `b` and mapped to `x` (R195, R197, R210, R220). -/
def svcLine (d : Dev) (n m b x : Nat) (bs : List Nat) (tag : Option LineTag) (posted : Bool) (errs : List (Nat × Nat)) : Dev × Resp :=
  if !(d.reachable n x) then (d.when posted (fun d => d.fenceDrop n (bankOf x)), .domainOff)
  else if !(inSpad x) then
    let es := errs.filter (fun e => decide (b < e.1 + 2 ∧ e.1 < b + bs.length) && bs.length != 64)
    ((d.each es (fun e d => d.halfError n m x e.2)).hbmPart n m x bs tag, .ok)
  else
    let d := d.flushDirty n m (x / 64)
    if bs.length = 64 then (d.writeLine n x bs tag, .ok)
    else
      (beats (bs.length + 1) b bs.length).foldl (fun acc p =>
        match acc with
        | (d, .ok) => d.spadBeat n m p.1 (x + (p.1 - b)) ((bs.drop (p.1 - b)).take p.2) errs
        | r => r) (d, .ok)

/-- A service write (R206, R195, R210), line by line and beat by beat in ascending order until one is refused. `tag` is the sideband of a whole line,
`posted` marks a write of the host data path, `errs` the errors found where a halfword or an HBM3 line is written in part. -/
def svcWrite (d : Dev) (n m a : Nat) (bs : List Nat) (tag : Option LineTag) (posted : Bool) (errs : List (Nat × Nat)) :
    Dev × Resp :=
  match d.checkSvc n m a bs.length true with
  | (d, none) => (d, .range)
  | (d, some k) =>
    let es := errorsIn a bs.length errs
    (List.range (bs.length / 64 + 2)).foldl (fun acc i =>
      let lo := max a ((a / 64 + i) * 64)
      let hi := min (a + bs.length) ((a / 64 + i) * 64 + 64)
      match acc with
      | (d, .ok) =>
        if hi ≤ lo then (d, .ok)
        else d.svcLine n m lo ((d.region n m k lo).getD lo) ((bs.drop (lo - a)).take (hi - lo)) tag posted es
      | r => r) (d.granted n m, .ok)

/-- A read of a master through the service network, its traffic counted. -/
def nocRead (d : Dev) (n m a len : Nat) (errs : List (Nat × Nat)) : Dev × Resp × List Nat :=
  (match initiatorOf m with | some i => d.nocFree n i len | none => d).svcRead n m a len errs

/-- A write of a master through the service network that is answered, its traffic counted. -/
def nocWrite (d : Dev) (n m a : Nat) (bs : List Nat) (tag : Option LineTag) (errs : List (Nat × Nat)) : Dev × Resp :=
  (match initiatorOf m with | some i => d.nocFree n i bs.length | none => d).svcWrite n m a bs tag false errs

/-! ### Cluster ports -/

/-- Faults of an MRD or MWR at its issue, and the mapped address (R63, R205): group, window, permission, and home bank. -/
def portAddr (d : Dev) (n cl port w cnt : Nat) (write home : Bool) : Option Nat :=
  let k := port
  let base := d.rd (Reg.SPAD.REG.BASE.of n [cl, k])
  let ctl := d.rd (Reg.SPAD.REG.CTL.of n [cl, k])
  let s := bits ctl 12 8
  let b := if ctl.testBit 30 && decide (k < 4) then base * 64 / 2 ^ s * 2 ^ s else base * 64
  let a := b + 2 * w
  if 3 < w % 4 + (cnt - 1) then none
  else match d.region n cl k a, d.region n cl k (a + 2 * cnt - 1) with
    | some x, some y =>
      if d.regionPerm n cl k write && inSpad x && inSpad y && (!home || bankOf x == cl) then some x else none
    | _, _ => none

/-- The halfword at an SMA as a fabric word (R192). -/
def fabWord (d : Dev) (n a : Nat) : Nat := d.memByte n a + d.memByte n (a + 1) % 16 * 256

/-- SPAD.NHCNT (R84, R199): accesses with HOME = 0 issued and not yet completed or discarded. -/
def nhCount (d : Dev) (n : Nat) : Nat :=
  d.getSec n 0 (fun s => (s.mem.acc.filter (fun a => !a.home)).length +
    (s.fab.rets.filter (fun r => r.kind == .nonhome && !r.done)).length)

/-- Where an access of a cluster port goes under the region registers as they stand when it is granted (R205, R208). -/
def accAddr (d : Dev) (n : Nat) (a : MemAcc) : Option Nat := d.portAddr n a.cl a.port a.w a.count a.write a.home

/-- The entries that the non-home queues of section n present to their banks: the oldest of each cluster (R200). -/
def presented (d : Dev) (n : Nat) : List MemAcc :=
  d.getSec n [] (fun s => (List.range 16).filterMap (fun c => s.mem.acc.find? (fun a => !a.home && !a.path && a.cl == c)))

/-- Whether the home path takes bank b in the step in progress (R199). -/
def homeDue (d : Dev) (n b : Nat) : Bool :=
  d.getSec n false (fun s => s.run.inStep && s.mem.acc.any (fun a => a.path && a.left == 0 && a.cl == b))

/-- Whether a request of master m wins bank b of section n against the home path and every request that is present there (R196, R198). -/
def wins (d : Dev) (n b m : Nat) (urgent : Bool) : Bool :=
  !(d.homeDue n b) &&
  (d.presented n).all (fun a => (d.accAddr n a).map bankOf != some b || decide (rank m urgent ≤ rank a.cl a.urgent)) &&
  d.getSec n true (fun s => s.mem.urgent.all (fun u => u.2 != b || decide (rank m urgent ≤ rank u.1 true)))

/-- Whether an access of service master m has to wait: at a bank that it reaches another request goes first (R196 to R198). -/
def svcWaits (d : Dev) (n m a len : Nat) (write : Bool) : Bool :=
  match d.allow n m a len write with
  | none => false
  | some k => (((List.range len).map (fun i => (d.region n m k (a + i)).getD (a + i))).filter inSpad).any (fun x =>
      d.reachable n x && !(d.wins n (bankOf x) m (d.getSec n false (fun s => s.mem.urgent.contains (m, bankOf x)))))

/-- Performs an access of a cluster port at its bank (R59, R63, R199, R200): MEM_RANGE where its window no longer maps it, BANK_OFF when the bank performs no access, PARITY on a
double bit error of an MRD, the write, or the return on its way to RET. A return of HOME = 0 waits for a free step,
from step s + 5 on through the home path and from its arrival on otherwise. -/
def perform (d : Dev) (n : Nat) (a : MemAcc) (ecc : Nat) : Dev :=
  let gc := globalCourse n a.cl a.crs
  match d.accAddr n a with
  | none => d.raise n ⟨fMEM_RANGE, 0, gc, 0, a.step, a.cycle⟩
  | some x =>
  if !(d.bankOn n (bankOf x)) then d.raise n ⟨fBANK_OFF, 0, gc, 0, a.step, a.cycle⟩
  else if a.write then
    let d := d.flushDirty n a.cl (x / 64)
    d.writeLine n x ((a.words.map (fun w => [w % 256, w % 4096 / 256])).flatten) none
  else
    let d := (d.flushDirty n a.cl (x / 64)).when (ecc != 0) (fun d => d.halfError n a.cl x ecc)
    if ecc = 2 then d.raise n ⟨fPARITY, 0, gc, 0, a.step, a.cycle⟩
    else
      let ws := (List.range a.count).map (fun i => (i, d.fabWord n (x + 2 * i)))
      let r : Ret := { kind := if a.home then .home else .nonhome, cl := a.cl, crs := a.crs, first := a.first,
                       words := ws, gen := a.gen, left := if a.path then 2 else 0, done := false, waiting := !a.home && a.path }
      d.fab n (fun f => { f with rets := f.rets ++ [r] })

/-- REQUEST_URGENT: the waiting request of master m of section n has lost 64 consecutive arbitrations at its bank, bank b for a service master; it
stays urgent until it is granted, and counts once (R198). -/
def requestUrgent (d : Dev) (n m b : Nat) : Dev :=
  let count := fun (d : Dev) => d.bump (Reg.SPAD.URGCNT.of n [m])
  if m < 16 then
    match d.getSec n none (fun s => s.mem.acc.findIdx? (fun a => !a.home && !a.path && a.cl == m)) with
    | none => d
    | some i =>
      if d.getSec n true (fun s => match s.mem.acc[i]? with | some a => a.urgent | none => true) then d
      else count (d.mem n (fun x => { x with acc := modNth (fun a => { a with urgent := true }) i x.acc }))
  else if 30 < m || d.getSec n true (fun s => s.mem.urgent.any (fun u => u.1 == m)) then d
  else count (d.mem n (fun x => { x with urgent := (m, b) :: x.urgent }))

/-- SERVICE_ACCESS of a service master (R206): a read of `len` bytes, or a write of `bs` where there are any; what it answers is in rdata
and rstat (0 performed, 1 uncorrectable error, 3 RANGE, 4 DOMAIN_OFF), and the traffic is counted (R447). An access that does not win its banks waits,
and the command has no effect yet (R197, log 81). -/
def serviceAccess (d : Dev) (n m a len : Nat) (bs : List Nat) (errs : List (Nat × Nat)) (lat : Nat) : Dev :=
  let code := fun (r : Resp) => match r with | .ok => 0 | .uncorr => 1 | .range => 3 | .domainOff => 4
  if m < 16 ∨ 30 < m then d
  else if d.svcWaits n m a (if bs.isEmpty then len else bs.length) (!bs.isEmpty) then d
  else if bs.isEmpty then
    let (d, r, out) := (d.nocStat n m len (some lat)).svcRead n m a len errs
    { d with rdata := out.map (BitVec.ofNat 8), rstat := code r }
  else
    let (d, r) := (d.nocStat n m bs.length (some lat)).svcWrite n m a bs none false errs
    { d with rdata := [], rstat := code r }

/-- Takes the first access of section n that satisfies `p` out of the list and performs it; nothing where there is none. -/
def performFirst (d : Dev) (n : Nat) (p : MemAcc → Bool) (ecc : Nat) : Dev :=
  match d.getSec n none (fun s => s.mem.acc.findIdx? p) with
  | none => d
  | some i =>
    match d.getSec n none (fun s => s.mem.acc[i]?) with
    | none => d
    | some a => (d.mem n (fun m => { m with acc := m.acc.eraseIdx i })).perform n a ecc

end Dev

end Sys2Proof.Machine
end

