-- ==== Sys2Proof/Machine/Queue.lean ====
section
/-! DEFINITION. Ferry queues (R222 to R247, R551): banks, chain, counts, writes, takes, resets and episodes. -/

namespace Sys2Proof.Machine

namespace Queue

/-- Whether the words the producer writes enter the banks (R227, R232). -/
def toBanks (q : Queue) : Bool := q.mode == 0 || (q.mode != 1 && q.passed)

/-- The bank words, oldest first. -/
def banks (q : Queue) : List QWord := q.drain ++ q.fill

/-- Every word of the queue, in the order in which they leave. -/
def words (q : Queue) : List QWord := q.lead ++ q.banks ++ q.chain

/-- FREE (R227, R230). -/
def free (q : Queue) : Nat := if q.toBanks then 1024 - q.fill.length else 8 - (q.lead.length + q.chain.length)

/-- The number of words up to the last marked one. -/
def marked (l : List QWord) : Nat := (l.zipIdx.foldl (fun n p => if p.1.eop then p.2 + 1 else n) 0)

/-- Bank words that can be taken: those of complete packets (R225, R228, R551). -/
def bankAvail (q : Queue) : Nat := if q.span = .complete then q.banks.length else marked q.banks

/-- AVAIL (R225, R233): chain words behind bank words are held back. -/
def avail (q : Queue) : Nat := q.lead.length + q.bankAvail + if q.banks.isEmpty then q.chain.length else 0

/-- PKTS (R225): each complete packet still holds its marked word. -/
def pkts (q : Queue) : Nat := (q.words.filter (fun w => w.eop)).length

/-- The swap of R228 and R551 where it is due. -/
def swap (q : Queue) : Queue :=
  if q.drain.isEmpty && (q.fill.any (fun w => w.eop) || (q.span == .complete && !q.fill.isEmpty)) then
    { q with drain := q.fill, fill := [], drainIdx := 1 - q.drainIdx }
  else q

/-- The packet of R551 has left the banks once they hold no word of it. -/
def settle (q : Queue) : Queue :=
  let q := q.swap
  if q.span = .complete ∧ q.banks.isEmpty then { q with span := .none } else q

/-- The chain is empty after the banks have passed: normal service (R232). -/
def resume (q : Queue) : Queue :=
  if 2 ≤ q.mode ∧ q.passed ∧ q.lead.isEmpty then { q with mode := 0, passed := false } else q

/-- The producer's words enter the banks from now on, and the words of the chain leave first (R178, R232). -/
def openBanks (q : Queue) : Queue := { q with lead := q.lead ++ q.chain, chain := [] }

/-- Takes one word: one that leads, else one of the draining bank, swapping where the emptied bank allows it (R228), else one of the chain. -/
def pop (q : Queue) : Option (QWord × Queue) :=
  match q.lead with
  | w :: r => some (w, { q with lead := r })
  | [] =>
    match q.swap.drain with
    | w :: r => some (w, { q.swap with drain := r }.settle)
    | [] =>
      match q.chain with
      | w :: r => if q.banks.isEmpty then some (w, { q with chain := r }) else none
      | [] => none

/-- Takes up to `k` words. -/
def popN : Nat → Queue → List QWord × Queue
  | 0, q => ([], q)
  | k + 1, q =>
    match q.pop with
    | none => ([], q)
    | some (w, q) => let r := popN k q; (w :: r.1, r.2)

/-- Changes the words whose places, in the order in which they leave, satisfy `p`. -/
def mapAt (q : Queue) (p : Nat → Bool) (f : QWord → QWord) : Queue :=
  let go := fun (o : Nat) (l : List QWord) => l.zipIdx.map (fun e => if p (e.2 + o) then f e.1 else e.1)
  let a := q.lead.length
  let b := a + q.drain.length
  { q with lead := go 0 q.lead, drain := go a q.drain, fill := go b q.fill, chain := go (b + q.fill.length) q.chain }

/-- Marks as poisoned those of the last `k` words that are present (R233, R241). -/
def poisonLast (q : Queue) (k : Nat) (integ : Bool) : Queue :=
  let n := q.words.length
  q.mapAt (fun i => decide (n - k ≤ i ∧ i < n)) (fun w => { w with poison := true, integ := integ })

/-- Stores one word in the bank or the chain that receives it; a marked word that completes a spanning packet is noted (R551). -/
def store (q : Queue) (w : QWord) : Queue :=
  let q :=
    if q.toBanks then { q with fill := q.fill ++ [w] }
    else { q with chain := q.chain ++ [w], span := if w.eop && q.span == .opened then .complete else q.span }
  { q with openLen := q.openLen + 1, openCrc := BitVec.ofNat 32 (crcWord q.openCrc.toNat w.data.toNat) }

/-- A word that the producer writes, stored or dropped, enters its packet's tally and opens or ends its packet (R222, R234). -/
def produced (q : Queue) (w : QWord) : Queue :=
  { q with
    prodOpen := !w.eop
    prodCrc := if w.eop then BitVec.ofNat 32 crcStart else BitVec.ofNat 32 (crcWord q.prodCrc.toNat w.data.toNat) }

end Queue

/-- A completed packet: its length and the causes of its poisoning as Q_POISON's bit mask (R237). -/
structure PktDone where
  len : Nat
  causes : Nat
deriving DecidableEq, Repr

/-- What a producer adds to a packet at its marked word: the tally it carries where the queue does not form it, a mark it arrived
with, and whether that mark is of integrity class (R222, R241, R455). -/
structure PktEnd where
  tally : Option Nat
  poison : Bool
  integ : Bool
deriving DecidableEq, Repr

/-- Stores one word that found room, and completes its packet where it is marked or is the 1,024th (R223, R224, R241). The tally that the producer's
mark brings, or that the queue forms over every word the producer wrote, goes with the marked word (R222, R242). -/
def Queue.write1 (q : Queue) (w : QWord) (e : PktEnd) : Queue × Option PktDone :=
  let full := q.openLen + 1 == 1024
  let eop := w.eop || full
  let formed := fun (c : BitVec 32) => crcEnd (crcWord c.toNat w.data.toNat)
  let tally := if w.eop then e.tally.getD (formed q.prodCrc) else formed q.openCrc
  let q := (q.store { w with eop := eop, tally := if eop then some (BitVec.ofNat 32 tally) else none }).produced w
  if !eop then (q, none)
  else
    let isLong := q.long || (full && !w.eop)
    let tallyBad := q.bad || (w.eop && !q.long && tally != crcEnd q.openCrc.toNat)
    let causes := b2n tallyBad + 4 * b2n isLong + 8 * b2n (w.eop && e.poison)
    let n := q.openLen
    let q := if causes = 0 then q else q.poisonLast n (w.eop && e.poison && e.integ)
    ({ q with openLen := 0, openCrc := BitVec.ofNat 32 crcStart, bad := false, long := full && !w.eop },
      some ⟨n, causes⟩)

namespace Dev

/-- A part of queue q of section n. -/
def getQ {α : Type} (d : Dev) (n q : Nat) (z : α) (f : Queue → α) : α :=
  d.getSec n z (fun s => f (vget s.queues q Queue.start))

/-- A packet of queue q has been marked poisoned (R241). -/
def poisoned (d : Dev) (n q causes : Nat) : Dev :=
  ((d.bump (Reg.FERRY.POISCNT.of n [q])).wb (Reg.FERRY.STAT.of n [q]) 4 true).notice n 0x0303 [q, causes]

/-- A packet of queue q is complete: PKTIN, Q_PACKET and what its poisoning sends (R237, R241). -/
def pktDone (d : Dev) (n q : Nat) (p : PktDone) : Dev :=
  let d := d.bump (Reg.FERRY.PKTIN.of n [q])
  let d := d.when (d.fb (Reg.FERRY.CTL.of n [q]) 8) (fun d => d.notice n 0x0301 [q, p.len])
  let d := d.when (p.causes.testBit 2) (fun d => d.wb (Reg.FERRY.STAT.of n [q]) 3 true)
  d.when (p.causes != 0) (fun d => d.poisoned n q p.causes)

/-- The swap and the settling of queue q after a change; Q_NORMAL when normal service resumes (R228, R232). -/
def queueSettle (d : Dev) (n q : Nat) : Dev :=
  let due := d.getQ n q false (fun x => x.settle.mode != x.settle.resume.mode)
  (d.queue n q (fun x => x.settle.resume)).when due (fun d => d.notice n 0x0306 [q])

/-- A producer's words enter queue q: as many as FREE at the start of the write allows, the rest dropped and counted (R234). -/
def queueWrite (d : Dev) (n q : Nat) (ws : List QWord) (e : PktEnd) : Dev :=
  let room := d.getQ n q 0 Queue.free
  let d := d.each (ws.take room) (fun w d =>
    let r := d.getQ n q (Queue.start, none) (fun x => x.write1 w e)
    let d := d.queue n q (fun _ => r.1)
    match r.2 with
    | some p => d.pktDone n q p
    | none => d)
  let d :=
    if ws.length ≤ room then d
    else
      let st := Reg.FERRY.STAT.of n [q]
      let was := d.fb st 2
      let d := (d.bump (Reg.FERRY.OVRCNT.of n [q]) (ws.length - room)).wb st 2 true
      (d.queue n q (fun x => { (ws.drop room).foldl Queue.produced x with bad := true })).when (!was) (fun d => d.notice n 0x0302 [q])
  d.queueSettle n q

/-- The beginning of an episode (R231, R232, R551): an open packet with words in the banks continues in the chain. -/
def episode (d : Dev) (n q mode : Nat) : Dev :=
  (d.queue n q (fun x => { x with
    mode := mode, passed := false,
    span := if 0 < x.openLen ∧ !x.banks.isEmpty then .opened else x.span })).notice n 0x0305 [q, mode]

/-- Bank errors found as words leave the banks: 1 corrected, 2 uncorrectable (R229). `i` is the place of the word among those to be
taken. An uncorrectable error poisons what is left of its packet and starts recovery; in an episode it makes it one. -/
def bankError (d : Dev) (n q i code : Nat) : Dev :=
  let ecc := Reg.FERRY.ECC.of n [q]
  let inBank := d.getQ n q false (fun x => decide (x.lead.length ≤ i ∧ i < x.lead.length + x.banks.length))
  if !inBank then d
  else if code = 1 then d.wf ecc 15 0 (min (d.fd ecc 15 0 + 1) 0xFFFF)
  else if code = 2 then
    let d := d.wf ecc 31 16 (min (d.fd ecc 31 16 + 1) 0xFFFF)
    let ws := d.getQ n q [] Queue.words
    let start := Queue.marked (ws.take i)
    let len := ((ws.drop start).takeWhile (fun w => !w.eop)).length + 1
    let was := ((ws.drop start).take len).any (fun w => w.poison)
    let d := d.queue n q (fun x => x.mapAt (fun p => decide (start ≤ p ∧ p < start + len)) (fun w => { w with poison := true }))
    let d := d.when (!was) (fun d => d.poisoned n q 2)
    let begins := d.getQ n q false (fun x => x.mode == 0 || x.mode == 2 || (x.mode == 3 && x.passed))
    if begins then d.episode n q 3 else d
  else d

/-- Takes up to `k` of the words AVAIL counts out of queue q, with the bank errors found (R228, R229). -/
def queueTake (d : Dev) (n q k : Nat) (errs : List (Nat × Nat)) : Dev × List QWord :=
  let k := min k (d.getQ n q 0 Queue.avail)
  let d := d.each (errs.filter (fun e => decide (e.1 < k))) (fun e d => d.bankError n q e.1 e.2)
  let r := d.getQ n q ([], Queue.start) (fun x => x.popN k)
  ((d.queue n q (fun _ => r.2)).queueSettle n q, r.1)

/-- A service consumer takes up to `k` words of queue q, no further than the end of a packet (R228). -/
def serviceTake (d : Dev) (n q k : Nat) (errs : List (Nat × Nat)) : Dev :=
  let ws := d.getQ n q [] Queue.words
  let toEnd := (ws.takeWhile (fun w => !w.eop)).length + 1
  let open_ := d.getQ n q false (fun x => match x.taken.getLast? with | some w => !w.eop | none => true)
  if !open_ then d
  else
    let r := d.queueTake n q (min k toEnd) errs
    r.1.queue n q (fun x => { x with taken := x.taken ++ r.2 })

/-- A queue reset (R238, R239): the words discarded, counted and announced. A producer in the middle of a packet goes on, and that
packet will fail its tally. -/
def queueReset (d : Dev) (n q : Nat) : Dev :=
  let k := d.getQ n q 0 (fun x => x.words.length)
  let d := d.queue n q (fun x => { x with
    fill := [], drain := [], lead := [], chain := [], span := .none, openLen := 0, openCrc := BitVec.ofNat 32 crcStart,
    bad := x.prodOpen })
  let d := (d.wr (Reg.FERRY.RSTCNT.of n [q]) k).notice n 0x0304 [q, k]
  d.queueSettle n q

/-- CTL.TEST: a scrub-and-test episode, ignored while MODE is not 0b00 (R231). -/
def queueTest (d : Dev) (n q : Nat) : Dev :=
  if d.getQ n q 1 (fun x => x.mode) = 0 then (d.episode n q 2).queueSettle n q else d

/-- The scrub and test of both banks has ended (R231, R232): passed, or the bank that failed. It occurs in start-up, or in an episode
once the banks hold no word. -/
def scrubDone (d : Dev) (n q : Nat) (failed : Option Nat) : Dev :=
  let ok := d.getQ n q false (fun x => x.mode != 0 && !x.passed && !x.retired && x.banks.isEmpty)
  if !ok then d
  else match failed with
    | none => (d.queue n q (fun x => if x.mode = 1 then { x with passed := true } else { x.openBanks with passed := true })).queueSettle n q
    | some b => ((d.queue n q (fun x => { x with retired := true })).wb (Reg.FERRY.STAT.of n [q]) 10 true).notice n 0x0307 [q, b]

/-- Whether the start-up scrub and test of every queue of section n has completed (R231). -/
def queuesTested (d : Dev) (n : Nat) : Bool :=
  d.getSec n true (fun s => s.queues.toList.all (fun x => x.mode != 1 || x.passed || x.retired))

/-- COMMIT puts queue q in normal service, words in the chain kept and taken first; a retired queue stays in chain mode (R178,
R231, R232). -/
def queueService (d : Dev) (n q : Nat) : Dev :=
  d.queue n q (fun x => if x.mode = 1 ∧ !x.retired then { x.openBanks with mode := 0, passed := false } else x)

/-- FERRY.STAT as it reads. RETIRED, POISON, LONG and OVERRUN are stored; the rest shows the queue. -/
def ferryStat (d : Dev) (n q : Nat) : Nat :=
  d.getQ n q 0 (fun x =>
    let v := d.rd (Reg.FERRY.STAT.of n [q])
    bits v 10 10 * 2 ^ 10 + x.mode * 2 ^ 8 +
      b2n (decide (2 ≤ x.mode) && !x.passed && !x.retired && x.banks.isEmpty) * 2 ^ 7 +
      b2n (decide (0 < x.openLen)) * 2 ^ 6 + x.drainIdx * 2 ^ 5 + bits v 4 2 * 4 +
      b2n x.words.isEmpty * 2 + b2n (x.free == 0))

/-- FERRY.LEVEL as it reads (R225, R243). -/
def ferryLevel (d : Dev) (n q : Nat) : Nat := d.getQ n q 0 (fun x => x.free * 2 ^ 16 + x.avail)

/-- FERRY.PKTS as it reads. -/
def ferryPkts (d : Dev) (n q : Nat) : Nat := d.getQ n q 0 Queue.pkts

/-- A word of a service producer. -/
def plainWord (data : Nat) (eop : Bool) : QWord := ⟨BitVec.ofNat 12 data, eop, false, false, none, none⟩

/-- Words of one packet whose last word is marked where `eop` says so. -/
def packetWords (data : List Nat) (eop : Bool) : List QWord :=
  data.zipIdx.map (fun p => plainWord p.1 (eop && p.2 + 1 == data.length))

/-- A whole packet placed in queue q by the memory engine, the scheduler or a receiver, with its tally. -/
def queuePacket (d : Dev) (n q : Nat) (data : List Nat) (e : PktEnd) : Dev := d.queueWrite n q (packetWords data true) e

/-- MAILBOX_WRITE: the word host software writes to WDATA of queue 63 (R243); its tally is formed by the queue. -/
def mailbox (d : Dev) (n w : Nat) (eop : Bool) : Dev := d.queueWrite n 63 [plainWord w eop] ⟨none, false, false⟩

end Dev

end Sys2Proof.Machine
end

