-- ==== Sys2Proof/Machine/HbmEngine.lean ====
section
/-! DEFINITION. The memory engine's fabric path (R215 to R220): request packets, checks, effects and responses. -/

namespace Sys2Proof.Machine

/-- A request packet as the engine reads it (R216). -/
structure Request where
  cmd : Nat
  len : Nat
  tag : Nat
  sma : Nat
  highBits : Bool      -- an address bit [47:38] is set
  data : List Nat
  words : Nat
deriving DecidableEq, Repr

/-- The fields of a packet; a word that the packet does not have reads 0. -/
def Request.read (ws : List Nat) : Request :=
  let w := fun i => ws.getD i 0 % 4096
  { cmd := w 0 / 256, len := w 0 % 256, tag := w 1,
    sma := 2 * (w 2 + w 3 * 2 ^ 12 + w 4 * 2 ^ 24 + w 5 * 2 ^ 36),
    highBits := decide (4 ≤ w 5), data := ws.drop 6, words := ws.length }

/-- Length of a packet of its command (R216). -/
def Request.expect (r : Request) : Nat :=
  if r.cmd = 1 then 6 else if r.cmd = 4 then 2 else 7 + r.len

/-- Whether the packet is malformed (R219); a FENCE has no address. -/
def Request.malformed (r : Request) : Bool :=
  !(decide (1 ≤ r.cmd ∧ r.cmd ≤ 4)) || r.words != r.expect ||
  (r.cmd != 4 && (r.highBits || r.sma / 4096 != (r.sma + 2 * r.len + 1) / 4096))

namespace Dev

/-- FREG region k applied to an SMA (R219). -/
def freg (d : Dev) (n k a : Nat) : Option Nat :=
  mapRegion (d.rd (Reg.HBMC.FREG.CTL.of n [k])) (d.rd (Reg.HBMC.FREG.BASE.of n [k]))
    (d.rd (Reg.HBMC.FREG.LIMIT.of n [k])) (decide (k < 4)) a

/-- Whether region k covers the whole of an access and maps it into the usable space. -/
def fregCovers (d : Dev) (n a len k : Nat) : Bool :=
  match d.freg n k a, d.freg n k (a + len - 1) with
  | some x, some y => inHbm x && inHbm y
  | _, _ => false

/-- The status of a request whose packet is sound, and the region that serves it (R219). -/
def fregCheck (d : Dev) (n a len : Nat) (write : Bool) : Nat × Nat :=
  match (List.range 8).find? (fun k =>
      d.fregCovers n a len k && d.fb (Reg.HBMC.FREG.CTL.of n [k]) (if write then 1 else 0)) with
  | some k => (rOK, k)
  | none => if (List.range 8).any (d.fregCovers n a len) then (rPERM, 0) else (rRANGE, 0)

/-- A write of bytes into the HBM3 space, line by line, each with the check of a partial write (R220, R455). `tr` is the mapping of
the region, which keeps lines whole. -/
def hbmWrite (d : Dev) (n : Nat) (tr : Nat → Nat) (a : Nat) (bs : List Nat) : Dev :=
  let lines := (List.range (bs.length / 64 + 2)).map (fun i => (a / 64 + i) * 64)
  d.each lines (fun l d =>
    let lo := max a l
    let hi := min (a + bs.length) (l + 64)
    if hi ≤ lo then d
    else d.hbmPart n 31 (tr lo) ((bs.drop (lo - a)).take (hi - lo)) none)

/-- Faults and latches of a request that fails: MEM_RANGE against the QWR that carried the EOP word (R219). -/
def requestFault (d : Dev) (n q status : Nat) (last : Option QWord) : Dev :=
  let d := d.hbmErr n status 0 q
  match last.bind (fun w => w.org) with
  | some (c, st, cyc) => d.raise n ⟨fMEM_RANGE, 0, c, 0, st, cyc⟩
  | none => d

/-- Keeps the response of a request until it is placed (R217, R218). -/
def respond (d : Dev) (n q : Nat) (ws : List Nat) (poison integ : Bool) : Dev :=
  d.sec n (fun s => { s with eng := s.eng ++ [⟨q, ws, crcEnd (ws.foldl crcWord crcStart), poison, integ⟩] })

/-- The response words of a request with the given status and data (R217). A WRITE has none; the tag of a packet shorter than two
words reads 0 in `read`. -/
def answer (d : Dev) (n q : Nat) (r : Request) (status : Nat) (data : List Nat) (poison integ : Bool) : Dev :=
  let head := [status * 256 + r.len, r.tag]
  if r.cmd = 2 then d
  else if r.cmd = 1 then
    d.respond n q (head ++ (if status = rOK then data else List.replicate (r.len + 1) 0)) poison integ
  else d.respond n q head poison integ

/-- The packet that queue q offers to the engine: words the engine holds already, then the words of the queue up to the mark; none
while it is not complete. -/
def requestPacket (d : Dev) (n q : Nat) : Option (Nat × Nat) :=
  let held := d.getQ n q [] (fun x => x.taken)
  match held.getLast? with
  | some w => if w.eop then some (held.length, 0) else
      let ws := (d.getQ n q [] Queue.words).take (d.getQ n q 0 Queue.avail)
      (ws.findIdx? (fun w => w.eop)).map (fun i => (held.length, i + 1))
  | none =>
      let ws := (d.getQ n q [] Queue.words).take (d.getQ n q 0 Queue.avail)
      (ws.findIdx? (fun w => w.eop)).map (fun i => (0, i + 1))

/-- Whether queue q has a tag: 48 for each request queue, 384 in all (R215). -/
def hasTag (d : Dev) (n q : Nat) : Bool :=
  d.getSec n false (fun s => decide ((s.eng.filter (fun e => e.queue == q)).length < 48 ∧ s.eng.length < 384))

/-- Performs a request that passed its checks (R219, R220). `ue` is the place, from 1, of the line in which the stack reports an
uncorrectable error on a READ, 0 for none. -/
def performRequest (d : Dev) (n q : Nat) (r : Request) (k ue : Nat) : Dev :=
  if r.cmd = 4 then d.answer n q r rOK [] false false
  else
    let tr := fun x => (d.freg n k x).getD x
    let a := r.sma
    if r.cmd = 1 then
      let lines := (List.range ((a + 2 * r.len + 1) / 64 - a / 64 + 1)).map (fun i => tr (max a ((a / 64 + i) * 64)) / 64)
      let d := d.each lines (fun l d => d.flushDirty n 31 l)
      if 0 < ue ∧ ue ≤ lines.length then
        let d := d.poisonLine n (lines.getD (ue - 1) 0)
        (((d.bump (Reg.HBMC.UECNT.of n)).selfDetected 0x20).hbmErr n rUNCORR 0 q).answer n q r rUNCORR [] true false
      else
        let bad := lines.any (d.lineBad n)
        d.answer n q r rOK ((List.range (r.len + 1)).map (fun i => d.fabWord n (tr (a + 2 * i)))) bad bad
    else
      (d.hbmWrite n tr a ((r.data.map (fun w => [w % 256, w % 4096 / 256])).flatten)).answer n q r rOK [] false false

/-- The engine takes a complete request packet of queue q when a tag is free, checks it and performs it (R215 to R219, R242). -/
def hbmRequest (d : Dev) (n q ue : Nat) (errs : List (Nat × Nat)) : Dev :=
  if !(decide (q < 8) && d.hasTag n q) then d
  else match d.requestPacket n q with
    | none => d
    | some (_, more) =>
      let t := d.queueTake n q more errs
      let ws := t.1.getQ n q [] (fun x => x.taken) ++ t.2
      let d := t.1.queue n q (fun x => { x with taken := [] })
      let r := Request.read (ws.map (fun w => w.data.toNat))
      if ws.any (fun w => w.poison) then
        let status := if 1 ≤ r.cmd ∧ r.cmd ≤ 4 then rUNCORR else rMALFORMED
        (d.hbmErr n rUNCORR 0 q).answer n q r status [] true false
      else if r.malformed then
        (d.answer n q r rMALFORMED [] false false).requestFault n q rMALFORMED ws.getLast?
      else if r.cmd = 4 then d.performRequest n q r 0 ue
      else
        let c := d.fregCheck n r.sma (2 * (r.len + 1)) (r.cmd != 1)
        if c.1 = rOK then d.performRequest n q r c.2 ue
        else (d.answer n q r c.1 [] false false).requestFault n q c.1 ws.getLast?

/-- The oldest response of queue q enters queue q + 8, as many words as FREE allows; the rest waits and keeps the tag (R217, R218,
R221). -/
def hbmComplete (d : Dev) (n q : Nat) : Dev :=
  match d.getSec n none (fun s => s.eng.findIdx? (fun e => e.queue == q)) with
  | none => d
  | some i =>
    match d.getSec n none (fun s => s.eng[i]?) with
    | none => d
    | some e =>
      let k := min e.words.length (d.getQ n (q + 8) 0 Queue.free)
      let d := d.queueWrite n (q + 8) (packetWords (e.words.take k) (k == e.words.length)) ⟨some e.tally, e.poison, e.integ⟩
      d.sec n (fun s => { s with
        eng := if k = e.words.length then s.eng.eraseIdx i else modNth (fun e => { e with words := e.words.drop k }) i s.eng })

/-- HOTREF of section n shows its stack's refresh rate on every channel in service (R212, R550). -/
def showHot (d : Dev) (n : Nat) : Dev :=
  let st := Reg.HBMC.STAT.of n
  d.wf st 7 4 (if d.pow.hotStack.getLsbD (n / 4) then d.fd st 3 0 else 0)

/-- The refresh rate of stack k follows its temperature sensor: raised above 85 °C, on the channels of its four sections (R24, R212). -/
def refreshRate (d : Dev) (k : Nat) (hot : Bool) : Dev :=
  let bit := BitVec.ofNat 2 (2 ^ k)
  let d := { d with pow := { d.pow with hotStack := if hot then d.pow.hotStack ||| bit else d.pow.hotStack &&& ~~~bit } }
  d.each [4 * k, 4 * k + 1, 4 * k + 2, 4 * k + 3] (fun n d => d.showHot n)

/-- HBMC.OUTST as it reads: capture and service requests take and return their tags within one command, so that none of theirs is in use between two
(log 83). -/
def hbmOutst (d : Dev) (n : Nat) : Nat := d.getSec n 0 (fun s => s.eng.length) * 2 ^ 16

end Dev

end Sys2Proof.Machine
end

