-- ==== Sys2Proof/Machine/LinkBase.lean ====
section
/-! DEFINITION. Lanes and bundles: registers, names, flit layouts, acknowledgement and going down (R338 to R364). -/

namespace Sys2Proof.Machine

/-- Lane states of R361. -/
abbrev lnDISABLED : Nat := 0
abbrev lnCDR : Nat := 1
abbrev lnCOMMA : Nat := 2
abbrev lnFEC : Nat := 3
abbrev lnCAPS : Nat := 4
abbrev lnCREDIT : Nat := 5
abbrev lnACTIVE : Nat := 6
abbrev lnTEST : Nat := 7
abbrev lnNEGFAIL : Nat := 8

/-- A LANE register of lane L = 4·quad + lane (R369). -/
def laneLoc (r : Row) (l : Nat) : Loc := r.hubAt [l / 4, l % 4]

/-- QCTL of the quad of lane L. -/
def qctl (l : Nat) : Loc := Reg.LANE.QCTL.hubAt [l / 4]

/-- Header CHAN of a flit (R348). -/
def flitChan (f : BitVec 256) : Nat := bits f.toNat 255 250

/-- Header SEQ of a flit. -/
def flitSeq (f : BitVec 256) : Nat := bits f.toNat 249 240

/-- A flit of channel, sequence number and payload. -/
def mkFlit (chan seq payload : Nat) : BitVec 256 := BitVec.ofNat 256 (chan * 2 ^ 250 + seq * 2 ^ 240 + payload % 2 ^ 240)

/-- CTYPE of a CTL flit (R349). -/
def flitCtype (f : BitVec 256) : Nat := bits f.toNat 239 236

/-- Words of a packet flit's payload (R351). -/
def flitWords (p k : Nat) : List Nat := (List.range k).map (fun i => bits p (12 * i + 11) (12 * i))

/-! ### The PCS (R344, R346, R366) -/

/-- Bits of a frame's flit area. -/
abbrev areaLen : Nat := 20544

/-- HOPCRC of a flit area, bit 0 of the area its most significant bit here (R344). -/
def hopCrc (area : Nat) : Nat := crcBitsF 16 0x8BB7 areaLen 0xFFFF area

/-- The flits that end in frame f of a period, in order, from the bits of the straddling flit left by the frame before and the frame's area:
64·(f mod 4) bits are left over before it (R344). -/
def frameFlits (f tail area : Nat) : List (BitVec 256) :=
  let v := tail * 2 ^ areaLen + area
  let n := areaLen + 64 * (f % 4)
  (List.range (n / 256)).map (fun i => BitVec.ofNat 256 (v / 2 ^ (n - 256 * (i + 1))))

/-- The bits left over at the end of frame f. -/
def frameTail (f tail area : Nat) : Nat := (tail * 2 ^ areaLen + area) % 2 ^ ((areaLen + 64 * (f % 4)) % 256)

/-- A flit enters the frame being sent; a frame that is full becomes the last one sent (R344). -/
def intoFrame (x : Lane) (f : BitVec 256) : Lane :=
  let v := x.txBits * 2 ^ 256 + f.toNat
  let n := x.txLen + 256
  if n < areaLen then { x with txBits := v, txLen := n }
  else { x with txBits := v % 2 ^ (n - areaLen), txLen := n - areaLen, txFrame := some (v / 2 ^ (n - areaLen)) }

/-- Whether 40 received bits match the comma, up to 4 bit errors (R346). -/
def commaMatch (w : Nat) : Bool := decide (popCount 40 (w ^^^ 0xFC0FC0F03F) ≤ 4)

/-- The polynomial x^a + x^b + 1 of a POLY code (R366). -/
def prbsPoly (code : Nat) : Nat × Nat :=
  if code = 0 then (7, 6) else if code = 1 then (9, 5) else if code = 2 then (15, 14) else if code = 3 then (23, 18) else (31, 28)

/-- The next bit of a PRBS: bit i of the register is the bit i + 1 places back. -/
def prbsNext (p : Nat × Nat) (r : Nat) : Bool := r.testBit (p.1 - 1) != r.testBit (p.2 - 1)

/-- A bit enters a PRBS register. -/
def prbsPush (p : Nat × Nat) (r : Nat) (b : Bool) : Nat := (2 * r + b2n b) % 2 ^ p.1

/-- `n` bits of a PRBS, the first one highest: the register after them, and the bits. -/
def prbsRun (p : Nat × Nat) : Nat → Nat → Nat × Nat
  | 0, r => (r, 0)
  | n + 1, r =>
    let b := prbsNext p r
    let t := prbsRun p n (prbsPush p r b)
    (t.1, b2n b * 2 ^ n + t.2)

/-- A class of channels by its CHAN (R348). -/
def isFab (c : Nat) : Bool := decide (1 ≤ c ∧ c ≤ 16)
def isStr (c : Nat) : Bool := decide (17 ≤ c ∧ c ≤ 24)
def isSvc (c : Nat) : Bool := decide (26 ≤ c ∧ c ≤ 29)
def isMir (c : Nat) : Bool := decide (30 ≤ c ∧ c ≤ 37)

/-- Whether a channel's class is among those in use (R363). -/
def chanUsed (classes c : Nat) : Bool :=
  (isFab c && classes.testBit 0) || (isStr c && classes.testBit 1) || (isSvc c && classes.testBit 4) || (isMir c && classes.testBit 5)

/-- CHAN of a queue's channel from its VC (R348, R357). -/
def queueChan (q vc : Nat) : Nat := if q < 48 then 1 + vc else 17 + vc % 8

/-- Outbound and inbound link and stream queues (R222). -/
def outQueues : List Nat := (List.range 16).map (· + 16) ++ (List.range 8).map (· + 48)
def inQueues : List Nat := (List.range 16).map (· + 32) ++ (List.range 6).map (· + 56)

namespace Dev

/-- State of lane L. -/
def laneState (d : Dev) (l : Nat) : Nat := d.fd (laneLoc Reg.LANE.STAT l) 31 28

def setLaneState (d : Dev) (l st : Nat) : Dev := d.wf (laneLoc Reg.LANE.STAT l) 31 28 st

/-- AUTO of lane L. -/
def laneAuto (d : Dev) (l : Nat) : Bool := d.fb (laneLoc Reg.LANE.CTL l) 22

/-- Section lane index of lane L (R354). -/
def secLane (d : Dev) (l : Nat) : Nat := 4 * (l / 4 % 8) + d.fd (laneLoc Reg.LANE.EQTX l) 29 28

/-- Width of the bundle of lane L. -/
def width (d : Dev) (l : Nat) : Nat := 2 ^ d.fd (laneLoc Reg.LANE.CTL l) 24 23

/-- Key of the bundle of lane L: 32·section + section lane index of bundle lane 0. -/
def bundleKey (d : Dev) (l : Nat) : Nat :=
  let w := d.width l
  32 * (l / 32) + d.secLane l / w * w

/-- Number of lane L within its bundle. -/
def bundleLane (d : Dev) (l : Nat) : Nat := d.secLane l % d.width l

/-- The lanes of the bundle of lane L, bundle lane 0 first. -/
def bundleLanes (d : Dev) (l : Nat) : List Nat :=
  let k := d.bundleKey l
  (List.range (d.width l)).filterMap (fun i =>
    ((List.range 32).map (· + 32 * (l / 32))).find? (fun m => d.secLane m == k % 32 + i))

/-- The physical lane that is bundle lane 0 of a bundle. -/
def lane0 (d : Dev) (k : Nat) : Nat :=
  (((List.range 32).map (· + 32 * (k / 32))).find? (fun m => d.secLane m == k % 32)).getD (32 * (k / 32))

/-- Whether every lane of the bundle k is ACTIVE (R361). -/
def bundleActive (d : Dev) (k : Nat) : Bool := (d.bundleLanes (d.lane0 k)).all (fun m => d.laneState m == lnACTIVE)

/-- Whether the lanes of section n are powered and clocked: its supply is on, or the quad keeps its service (R340). -/
def laneLive (d : Dev) (l : Nat) : Bool :=
  d.fb (qctl l) 31 || d.runState (l / 32) != stOFF

/-- The queue of one direction bound to a channel of bundle k (R357). -/
def boundQueue (d : Dev) (qs : List Nat) (k chan : Nat) : Option Nat :=
  qs.find? (fun q =>
    let m := Reg.LINKQ.MAP.of (k / 32) [q - 16]
    d.fb m 31 && d.fd m 12 8 == k % 32 && queueChan q (d.fd m 3 0) == chan)

/-- The channels of bundle k to which queues of one direction are bound. -/
def boundChans (d : Dev) (qs : List Nat) (k : Nat) : List Nat :=
  qs.filterMap (fun q =>
    let m := Reg.LINKQ.MAP.of (k / 32) [q - 16]
    if d.fb m 31 && d.fd m 12 8 == k % 32 then some (queueChan q (d.fd m 3 0)) else none)

/-- A lane notice names the quad and lane of bundle lane 0 (R370). -/
def laneNotice (d : Dev) (l code : Nat) (items : List Nat) : Dev :=
  let z := d.lane0 (d.bundleKey l)
  d.hubNotice code ([z / 4, z % 4] ++ items)

/-- A discard counted in UNMAP, with LANE_UNMAP at the first and then at most once per millisecond (R356, R370). -/
def unmap (d : Dev) (l chan : Nat) : Dev :=
  let d := d.bump (laneLoc Reg.LANE.UNMAP l)
  let due := match (d.getLane l).unmapT with | some t => decide (t + 1000000 ≤ d.clk) | none => true
  if due then (d.laneNotice l 0x0606 [chan]).lane l (fun x => { x with unmapT := some d.clk, unmapNew := 0 })
  else d.lane l (fun x => { x with unmapNew := x.unmapNew + 1 })

/-- A complete inbound packet goes to the secondary on MIR VC1, as mirrored packet `id` (R383, R384, R402). -/
def mirrorOut (d : Dev) (n q id : Nat) (words : List Nat) (tally : Nat) (poison : Bool) : Dev :=
  d.bundle d.mirKey (fun b => { b with outPkts := b.outPkts ++ [⟨31, (n * 64 + q) :: words, tally, poison, some id⟩] })

/-- Ends the open inbound packets of bundle k with one further word 0x000, marked and poisoned (R364); a paired primary mirrors each packet
that it ends (R384). -/
def endInbound (d : Dev) (k : Nat) : Dev :=
  let b := d.getBundle k
  let d := d.each b.inOpen (fun e d =>
    if isFab e.1 || isStr e.1 then
      match d.boundQueue inQueues k e.1 with
      | some q =>
        let ws := e.2 ++ [0]
        let id := (b.inBusy.find? (fun x => x.1 == e.1)).map (fun x => x.2)
        (d.queueWrite (k / 32) q [plainWord 0 true] ⟨none, true, false⟩).when d.pairedPrimary (fun d =>
          match id with
          | some id => d.mirrorOut (k / 32) q id ws (crcEnd (ws.foldl crcWord crcStart)) true
          | none => d)
      | none => d
    else d.bundle k (fun b => { b with inPkts := b.inPkts ++ [⟨e.1, e.2 ++ [0], 0, true, none⟩] }))
  d.bundle k (fun b => { b with inOpen := [], inBad := [], inBusy := [] })

/-- One more packet of queue q of section n is disposed of: acknowledged whole, or discarded (R386). -/
def disposed1 (d : Dev) (n q : Nat) : Dev :=
  d.twn (fun t => { t with disposed := Sparse.put (64 * n + q) ((Sparse.get (fun _ => 0) t.disposed (64 * n + q)) + 1) t.disposed })

/-- Discards what queue q of bundle k holds of its open packet, up to and including the marked word; where that word has not come yet the
queue goes on discarding (R364). Answers how many words were lost. -/
def cutQueue (d : Dev) (k q : Nat) : Dev × Nat :=
  let n := k / 32
  let ws := d.getQ n q [] (fun x => x.taken ++ x.words)
  let end_ := (ws.findIdx? (fun w => w.eop)).map (· + 1)
  let m := end_.getD ws.length
  let held := d.getQ n q 0 (fun x => x.taken.length)
  let d := d.when (decide (held < m)) (fun d => (d.queueTake n q (m - held) []).1)
  let d := d.queue n q (fun x => { x with taken := x.taken.drop m })
  let d := d.when end_.isSome (fun d => d.disposed1 n q)
  (d.bundle k (fun b => { b with cutting := b.cutting.filter (· != q) ++ (if end_.isSome then [] else [q]) }), m)

/-- Words lost in bundle k count in LOST of its bundle lane 0 (R364). -/
def countLost (d : Dev) (k m : Nat) : Dev := d.when (m != 0) (fun d => d.bump (laneLoc Reg.LANE.LOST (d.lane0 k)) m)

/-- The words that have come since in the queues that still discard (R364). -/
def cutMore (d : Dev) (k : Nat) : Dev :=
  d.each (d.getBundle k).cutting (fun q d => let r := d.cutQueue k q; r.1.countLost k r.2)

/-- Discards the rest of the open outbound packets of bundle k and answers how many words were lost (R364). -/
def cutOutbound (d : Dev) (k : Nat) : Dev × Nat :=
  let opened := (d.getBundle k).sent.filter (fun s => !s.ended)
  let r := opened.foldl (fun (acc : Dev × Nat) s =>
    match s.queue with
    | some q => let c := acc.1.cutQueue k q; (c.1, acc.2 + c.2)
    | none =>
      let p := acc.1.getBundle k
      match p.outPkts.find? (fun x => x.chan == s.pkt.chan) with
      | some x => (acc.1.bundle k (fun b => { b with outPkts := b.outPkts.erase x }), acc.2 + (x.words.length - s.pkt.words.length))
      | none => acc) (d, 0)
  (r.1.bundle k (fun b => { b with sent := b.sent.filter (fun s => s.ended) }), r.2)

/-- A lane's link state cleared: sequence numbers, replay buffer, received flits (R361, R364). -/
def clearLane (x : Lane) : Lane :=
  { Lane.idle with
    trainT := x.trainT, failT := x.failT, retryNew := x.retryNew, retryT := x.retryT, unmapNew := x.unmapNew, unmapT := x.unmapT }

/-- What the system notes when bundle k goes down (R377, R380): a worker that loses its parent is back in stage 4, and a manager counts the
time of the nodes behind it. -/
def bundleGone (d : Dev) (k : Nat) : Dev :=
  let st := Reg.SYS.STAT.hubAt
  let d := d.when (d.sys.parent == some k) (fun d =>
    let d := (d.wb Reg.SYS.PARENT.hubAt 31 false).when (decide (4 < d.fd st 31 28)) (fun d => d.wf st 31 28 4)
    { d with sys := { d.sys with parent := none, reported := none } })
  let gone := d.sys.registry.filter (fun e => e.2.bundle == k)
  { d with sys := { d.sys with
      lostNodes := gone.foldl (fun m e => Sparse.put e.1 d.clk m) d.sys.lostNodes } }

/-- Every flit of a packet of bundle k is acknowledged or discarded: the queue's disposal count, and the release of the inbound flits
whose mirror copy it was (R385, R386). -/
def packetAcked (d : Dev) (k : Nat) (s : SentPkt) : Dev :=
  let d := match s.queue with
    | some q => d.disposed1 (k / 32) q
    | none => d
  match s.pkt.mirror with
  | some m => { d with lanes := d.lanes.map (fun e => (e.1, { e.2 with held := e.2.held.filter (fun h => h.2 != m) })) }
  | none => d

/-- The packets of bundle k that were sent whole and not acknowledged are given up with the replay buffers (R364, R386). -/
def dropSent (d : Dev) (k : Nat) : Dev :=
  let gone := (d.getBundle k).sent
  (d.bundle k (fun b => { b with sent := [] })).each gone (fun s d => d.packetAcked k s)

/-- A lane's state as its bundle goes down (R340, R361, R364): CDR, or DISABLED where AUTO is 0 or `off` says so. A lane that is DISABLED or in
TEST is in no bundle that goes down, and NEGFAIL ends only with TRAIN or DISABLE: these change only where `off` says so, and a lane already
DISABLED does not change at all. -/
def laneDown (d : Dev) (m cause : Nat) (off test : Bool) : Dev :=
  let st := d.laneState m
  if st == lnDISABLED || (st == lnTEST && !test) || (st == lnNEGFAIL && !off) then d
  else
    let stay := d.laneAuto m && !off
    let d := (d.setLaneState m (if stay then lnCDR else lnDISABLED)).lane m (fun x => { clearLane x with trainT := if stay then some d.clk else none })
    let d := d.when (st != lnTEST && st != lnNEGFAIL) (fun d => d.bump (laneLoc Reg.LANE.DOWN m))
    d.wf (laneLoc Reg.LANE.STAT m) 27 24 cause

/-- Takes down the bundle of lane L with the cause that lane saw; the other lanes show 4 (R364). The lanes that `off` names go to DISABLED,
those that `test` names too where they are in TEST. A paired primary counts the packets given up as disposed of (R386); another device keeps
them for a takeover (R396). -/
def bundleDownOff (d : Dev) (l cause : Nat) (off test : Nat → Bool) : Dev :=
  let k := d.bundleKey l
  let ls := d.bundleLanes l
  let was := d.bundleActive k
  let d := d.endInbound k
  let c := d.cutOutbound k
  let d := c.1
  let d := (d.countLost k c.2).when d.pairedPrimary (fun d => d.dropSent k)
  let d := d.each ls (fun m d => d.laneDown m (if m = l then cause else 4) (off m) (test m))
  let d := d.bundle k (fun b => { Bundle.idle with
    inPkts := b.inPkts, outPkts := b.outPkts, sent := b.sent, got := b.got, cutting := b.cutting })
  let d := d.when was (fun d => d.bundleGone k)
  d.when was (fun d => d.laneNotice l 0x0602 [cause, c.2])

/-- Takes down the bundle of lane L with a cause; DISABLE (5) leaves every lane DISABLED (R364). -/
def bundleDown (d : Dev) (l cause : Nat) : Dev := d.bundleDownOff l cause (fun _ => cause == 5) (fun _ => false)

/-- The number of delivered flits that a lane may acknowledge (R350): a paired primary withholds those whose mirror copy is not acknowledged (R385). -/
def ackable (d : Dev) (x : Lane) : Nat :=
  if !d.pairedPrimary then x.deliv
  else match minOf (x.held.map (fun h => h.1)) with | some h => min h x.deliv | none => x.deliv

/-- AV and ACK of a CTL flit of lane L (R349, R350). -/
def ackBits (d : Dev) (x : Lane) : Nat :=
  let n := d.ackable x
  if n = 0 then 0 else 2 ^ 235 + (n - 1) % 1024 * 2 ^ 225

/-- An ACK with AV = 1 releases the flits up to the sequence number it names (R349, R350). -/
def takeAck (d : Dev) (l a : Nat) : Dev :=
  match (d.getLane l).replay.findIdx? (fun e => e.1 == a) with
  | none => d
  | some i =>
    let gone := ((d.getLane l).replay.take (i + 1)).map (fun e => e.1)
    let d := d.lane l (fun x => { x with replay := x.replay.drop (i + 1) })
    let k := d.bundleKey l
    let d := d.bundle k (fun b => { b with sent := b.sent.map (fun s => { s with
      flits := s.flits.filter (fun f => !(f.1 == l && gone.contains f.2)) }) })
    let done := (d.getBundle k).sent.filter (fun s => s.ended && s.flits.isEmpty)
    let d := d.bundle k (fun b => { b with sent := b.sent.filter (fun s => !(s.ended && s.flits.isEmpty)) })
    d.each done (fun s d => d.packetAcked k s)

/-- Acts on the ACK of an IDLE, LINK or NAK flit. -/
def flitAck (d : Dev) (l : Nat) (f : BitVec 256) : Dev :=
  if f.toNat.testBit 235 then d.takeAck l (bits f.toNat 234 225) else d

/-- Takes the front CTL flit of lane L if it has the given type; TIM flits are handled elsewhere. -/
def frontCtl (d : Dev) (l ctype : Nat) : Option (BitVec 256) :=
  match (d.getLane l).ctl with
  | f :: _ => if flitChan f = 0 ∧ flitCtype f = ctype then some f else none
  | [] => none

def popCtl (d : Dev) (l : Nat) : Dev := d.lane l (fun x => { x with ctl := x.ctl.drop 1 })

end Dev

end Sys2Proof.Machine
end

