-- ==== Sys2Proof/Machine/Boundary.lean ====
section
/-! DEFINITION. The signal balls of the package (R514 to R517) and their order in the boundary register (R528). -/

namespace Sys2Proof.Machine

/-- A signal ball: a lane's, by lane number, receive or transmit, negative leg or positive; a PE or ETH pair's, by port; a clock or flash
ball, by column; trigger, pulse output, design I/O, test and management balls. -/
inductive Ball where
  | lane (l : Nat) (rx neg : Bool)
  | serdes (port : Nat) (rx neg : Bool)
  | clock (k : Nat)
  | flash (k : Nat)
  | trg (n : Nat) (neg : Bool)
  | tpo (g : Nat)
  | jtag (k : Nat)
  | smb (k : Nat)
  | alert
  | smbAddr (i : Nat)
  | diode (k : Nat)
  | resetN (k : Nat)
  | dio (c : Nat)
deriving DecidableEq, Repr

/-- The ball at (t, d) of a band (R515, R516). -/
def bandBall (band t d : Nat) : Option Ball :=
  let u := (t - 4) / 3
  let h := (t - 4) % 3
  if t < 4 ∨ 16 ≤ u ∨ h = 2 then none
  else
    let lane := fun p => 4 * (16 * band + u) + 2 * h + p
    match d with
    | 2 => some (.lane (lane 0) false false)
    | 3 => some (.lane (lane 0) false true)
    | 5 => some (.lane (lane 1) false false)
    | 6 => some (.lane (lane 1) false true)
    | 8 => some (.lane (lane 0) true false)
    | 9 => some (.lane (lane 0) true true)
    | 11 => some (.lane (lane 1) true false)
    | 12 => some (.lane (lane 1) true true)
    | _ => none

/-- The ball of a transmit and receive pair at its place of four. -/
def pairBall (port k : Nat) : Ball := .serdes port (decide (2 ≤ k)) (k % 2 == 1)

/-- The ball at a row and column of the centre (R517), DNC balls left out. -/
def centreBall (r c : Nat) : Option Ball :=
  if r = 14 then
    if 14 ≤ c ∧ c < 46 then some (pairBall ((c - 14) / 4) ((c - 14) % 4))
    else if 46 ≤ c ∧ c < 50 then some (.clock (c - 46))
    else if 50 ≤ c ∧ c < 54 then some (pairBall 8 (c - 50)) else none
  else if r = 15 then
    if 14 ≤ c ∧ c < 18 then some (pairBall 9 (c - 14))
    else if 18 ≤ c ∧ c < 30 then some (.flash (c - 18))
    else if 30 ≤ c ∧ c < 56 then some (.trg ((c - 30) / 2) ((c - 30) % 2 == 1)) else none
  else if r = 16 then
    if 14 ≤ c ∧ c < 20 then some (.trg (13 + (c - 14) / 2) ((c - 14) % 2 == 1))
    else if 20 ≤ c ∧ c < 28 then some (.tpo (c - 20))
    else if 28 ≤ c ∧ c < 33 then some (.jtag (c - 28))
    else if 33 ≤ c ∧ c < 35 then some (.smb (c - 33))
    else if c = 35 then some .alert
    else if 36 ≤ c ∧ c < 39 then some (.smbAddr (c - 36))
    else if 39 ≤ c ∧ c < 41 then some (.diode (c - 39))
    else if 41 ≤ c ∧ c < 43 then some (.resetN (c - 41)) else none
  else if 52 ≤ r ∧ r ≤ 55 ∧ 14 ≤ c ∧ c ≤ 53 ∧ (c - 14) % 10 < 6 then
    some (.dio (24 * ((c - 14) / 10) + 6 * (r - 52) + (c - 14) % 10))
  else none

/-- The signal ball at a row and column, if one is there (R515 to R517). -/
def ballAt (r c : Nat) : Option Ball :=
  if r ≤ 13 ∧ c ≤ 55 then bandBall 0 c r
  else if 56 ≤ c ∧ r ≤ 55 then bandBall 1 r (69 - c)
  else if 56 ≤ r ∧ 14 ≤ c then bandBall 2 (69 - c) (69 - r)
  else if c ≤ 13 ∧ 14 ≤ r then bandBall 3 (69 - r) c
  else centreBall r c

/-- The signal balls of a row in column order. -/
def rowBalls (r : Nat) : List Ball := (List.range 68).filterMap (fun c => ballAt r (c + 1))

/-- The boundary register, the ball nearest TDO first (R528). -/
def boundary : List Ball := ((List.range 68).map (fun r => rowBalls (r + 1))).flatten

/-- The bit of a ball in the boundary register. -/
def bsBit (b : Ball) : Nat := boundary.idxOf b

end Sys2Proof.Machine
end

