-- ==== Sys2Proof/Machine/Pins.lean ====
section
/-! DEFINITION. Design I/O cells (R520 to R527): cell states, ball levels, synchronisers, output registers, bank supplies. -/

namespace Sys2Proof.Machine

/-- LEVEL of DIO.BANK for a measured supply in millivolts (R520). -/
def vccioLevel (mv : Nat) : Nat :=
  if mv < 600 then 0
  else if 1140 ≤ mv ∧ mv ≤ 1260 then 1
  else if 1425 ≤ mv ∧ mv ≤ 1575 then 2
  else if 1710 ≤ mv ∧ mv ≤ 1890 then 3
  else if 2375 ≤ mv ∧ mv ≤ 2625 then 4
  else if 3135 ≤ mv ∧ mv ≤ 3465 then 5
  else 6

namespace Dev

def pin (d : Dev) (f : PinSt → PinSt) : Dev := { d with pins := f d.pins }

/-- Whether section n holds a committed image (R134). -/
def committed (d : Dev) (n : Nat) : Bool := decide (stLOADED ≤ d.runState n ∧ d.runState n ≤ stHALTED)

/-- DIO.CELL.STATE (R522): 0 parked, 1 input, 2 output. -/
def cellState (d : Dev) (c : Nat) : Nat :=
  let n := c / 12
  let recs := d.getSec n [] (fun s => s.fab.pinMap.filter (fun r => r.cell == c % 12))
  if !(d.committed n) || d.secondary || d.twin.stopped then 0
  else if recs.any (fun r => r.output) then 2
  else if recs.isEmpty then 0 else 1

/-- The park state in force: none before boot stage 3 (R519, R522). -/
def parkOf (d : Dev) (c : Nat) : Nat :=
  if d.fd Reg.BOOT.STAT.hubAt 31 28 < 3 then 0 else d.fd (Reg.DIO.CELL.hubAt [c]) 11 10

/-- The pull in force at a cell: 1 up, 2 down, anything else none (R522). -/
def pullOf (d : Dev) (c : Nat) : Nat :=
  let st := d.cellState c
  if st = 1 then d.fd (Reg.DIO.CELL.hubAt [c]) 1 0
  else if st = 2 ∧ (Sparse.find c d.pins.ball).isSome then 0 else d.parkOf c

/-- Whether the supply of the cell's bank is present at a supported level (R525). -/
def bankGood (d : Dev) (c : Nat) : Bool := d.fb (Reg.DIO.BANK.hubAt [c / 24]) 31

/-- Whether the boundary register drives the balls (R528). -/
def jtagDrives (d : Dev) : Bool := d.pins.ins == .extest || d.pins.ins == .pulse || d.pins.ins == .train

/-- What the cell itself drives: an output after its first update (R522, R525), or the boundary register under a test instruction (R528). -/
def ownDrive (d : Dev) (c : Nat) : Option Bool :=
  if !(d.bankGood c) then none
  else if d.jtagDrives then some (d.pins.bsr.testBit (bsBit (.dio c)))
  else if d.cellState c = 2 then Sparse.find c d.pins.ball else none

/-- Level of the ball of cell c at the `k`-th free reading: a ball that nothing drives or pulls, or that is driven twice, reads
a value the device does not define (R523, R526). -/
def ballLevel (d : Dev) (c k : Nat) : Bool :=
  let free := (Config.freeLevel (d.free + k)) == 1
  match d.ownDrive c, Sparse.find c d.pins.ext with
  | some v, none => v
  | none, some v => v
  | some _, some _ => free
  | none, none => if d.pullOf c = 1 then true else if d.pullOf c = 2 then false else free

/-- Synchroniser output of cell c; 0 while the bank's supply is absent (R523, R525). -/
def syncOut (d : Dev) (c k : Nat) : Bool := d.bankGood c && d.ballLevel c k

/-- The synchroniser outputs of the cells `c0` to `c0 + w − 1` as a number. -/
def syncWord (d : Dev) (c0 w : Nat) : Nat := ofOnes ((List.range w).filter (fun i => d.syncOut (c0 + i) i))

/-- The free readings of `k` cells are used up. -/
def useFree (d : Dev) (k : Nat) : Dev := { d with free := d.free + k }

/-- What the board drives onto the twelve cells of section n from now on: the cells of `mask` are driven to the bits of `level`, the others
not at all. -/
def boardDrive (d : Dev) (n mask level : Nat) : Dev :=
  d.pin (fun p => { p with ext := (List.range 12).foldl (fun m i =>
    if mask.testBit i then Sparse.put (12 * n + i) (level.testBit i) m else Sparse.drop (12 * n + i) m) p.ext })

/-- The output register of cell c loads a bit (R524). -/
def loadOut (d : Dev) (c : Nat) (v : Bool) : Dev := d.pin (fun p => { p with out := Sparse.put c v p.out })

/-- The ball of an output cell takes the level of its output register (R524). -/
def ballChange (d : Dev) (c : Nat) : Dev :=
  match Sparse.find c d.pins.out with
  | some v => d.pin (fun p => { p with ball := Sparse.put c v p.ball })
  | none => d

/-- The cells of section n give up what they drove: a new image, or none (R522). -/
def clearCells (d : Dev) (n : Nat) : Dev :=
  d.pin (fun p => { p with
    out := Sparse.keep (fun c => c / 12 != n) p.out
    ball := Sparse.keep (fun c => c / 12 != n) p.ball })

/-- The supply of bank k measures `mv` millivolts (R520, R525). -/
def vccioChange (d : Dev) (k mv : Nat) : Dev :=
  let l := vccioLevel mv
  let good := decide (1 ≤ l ∧ l ≤ 5)
  let b := Reg.DIO.BANK.hubAt [k]
  let was := d.fb b 31
  let d := d.wr b (b2n good * 2 ^ 31 + l * 2 ^ 28)
  let d := d.when (good != was) (fun d => d.hubNotice 0x0806 [k, l])
  if good && !was then d.each (List.range 24) (fun i d => d.ballChange (24 * k + i)) else d

/-- DIO.CELL as it reads. -/
def cellReg (d : Dev) (c : Nat) : Nat :=
  setBits (setBits (d.rd (Reg.DIO.CELL.hubAt [c])) 9 8 (d.cellState c)) 7 7 (b2n (d.syncOut c 0))

end Dev

end Sys2Proof.Machine
end

