-- ==== Sys2Proof/Machine/Triggers.lean ====
section
/-! DEFINITION. Trigger lines (R303 to R305, R333): TRG balls, the cross-section bus, pulse generator outputs, and what an edge
reaches. -/

namespace Sys2Proof.Machine

/-- TIME as one number of 2^-32 ns. -/
def TimeVal.num (t : TimeVal) : Nat := t.wrap * 2 ^ 80 + t.ns * 2 ^ 32 + t.frac

namespace Dev

def cap (d : Dev) (n : Nat) (f : CapSt → CapSt) : Dev := d.sec n (fun s => { s with cap := f s.cap })

/-- TIME at a step clock `ph` after the last tick (R281). -/
def stampAt (d : Dev) (ph : Nat) : TimeVal :=
  let inc := d.rd64 Reg.TIME.CURINC 8 []
  let t := d.time.ns * 2 ^ 32 + d.time.frac + ph * inc / 4
  ⟨(d.time.wrap + t / 2 ^ 80) % 2 ^ 16, t / 2 ^ 32 % 2 ^ 48, t % 2 ^ 32⟩

/-- The signed 48-bit difference SCTL.STIME − TIME.NS of section n is ≤ 0 (R140, R321). -/
def timeReached (d : Dev) (n : Nat) : Bool :=
  decide ((d.time.ns + 2 ^ 48 - d.rd64 Reg.SCTL.STIME n % 2 ^ 48) % 2 ^ 48 ≤ 2 ^ 47)

/-- Level of pulse generator g. -/
def genLevel (d : Dev) (g : Nat) : Bool := d.pins.gens.testBit g

/-- Whether the device drives the trigger bus at all: a paired secondary does not (R386), nor one that left the pair without becoming primary (R397,
R403). -/
def busQuiet (d : Dev) : Bool := d.secondary || (d.twin.stopped && !(d.fb Reg.TWIN.CTL.hubAt 30))

/-- Level of bus line l: the OR of its sources (R303). -/
def busLine (d : Dev) (l : Nat) : Bool :=
  !d.busQuiet && ((List.range 8).any (fun n => d.pins.xpulse.testBit (8 * n + l)) || (List.range 8).any (fun g => d.genLevel g && d.fb (Reg.PG.CTL.hubAt [g]) (16 + l)))

/-- Boot stage 5 has been reached: until then TRG drivers are disabled and TPO outputs low (R488, R491). -/
def booted (d : Dev) : Bool := d.fd Reg.BOOT.STAT.hubAt 31 28 == 5

/-- Whether the driver of TRG ball t is enabled (R304, R386, R394, R488). -/
def trgDriven (d : Dev) (t : Nat) : Bool := d.booted && d.fb (Reg.TRG.PIN.hubAt [t]) 8 && !d.secondary && !d.twin.stopped

/-- What the driver of TRG ball t outputs (R304, R305). -/
def trgOut (d : Dev) (t : Nat) : Bool :=
  let p := Reg.TRG.PIN.hubAt [t]
  let o := d.fd p 4 0
  let v := if o < 8 then d.busLine o else if o < 16 then d.genLevel (o - 8) else false
  v != d.fb p 7

/-- The level received on TRG ball t (R304). -/
def trgIn (d : Dev) (t : Nat) : Bool := if d.trgDriven t then d.trgOut t else Sparse.get (fun _ => false) d.pins.trg t

/-- Level of source x of R292 and STRIG: TRG balls, bus lines, pulse generators. -/
def lineLevel (d : Dev) (x : Nat) : Bool := if x < 16 then d.trgIn x else if x < 24 then d.busLine (x - 16) else d.genLevel (x - 24)

/-- Whether TPOg is driven high (R333, R386, R394, R488). -/
def tpo (d : Dev) (g : Nat) : Bool :=
  let c := Reg.PG.CTL.hubAt [g]
  d.booted && d.fb c 29 && !d.secondary && !d.twin.stopped && (d.genLevel g != d.fb c 28)

/-- An edge of source x reaches the EXT latches of section n and an armed command that waits for it (R140, R292). -/
def edgeAt (d : Dev) (n x : Nat) (up : Bool) : Dev :=
  let e := Reg.CAPT.EXTSEL.of n
  let hit := fun lo => d.fd e (lo + 4) lo == x && up != d.fb e (lo + 7)
  let st := Reg.SCTL.STRIG.of n
  let fires := d.fd st 4 0 == x && up != d.fb st 8
  (d.cap n (fun c => { c with ext0 := c.ext0 || hit 0, ext1 := c.ext1 || hit 16 })).run n (fun r =>
    { r with trigSeen := r.trigSeen || (fires && r.armed == some ArmMode.onTrigger) })

/-- An edge of source x reaches every section. -/
def edge (d : Dev) (x : Nat) (up : Bool) : Dev := d.each (List.range 8) (fun n d => d.edgeAt n x up)

/-- A change that may move TRG balls or bus lines: each that moved has an edge (R303 to R305). -/
def lineChange (d : Dev) (f : Dev → Dev) : Dev :=
  let d' := f d
  d'.each ((List.range 24).filter (fun x => d.lineLevel x != d'.lineLevel x)) (fun x y => y.edge x (d'.lineLevel x))

/-- A capture trigger of section n pulses the lines of XMASK (R303). -/
def xPulse (d : Dev) (n : Nat) : Dev :=
  if d.runState n ≤ stSLIPWAY then d
  else d.lineChange (fun d => d.pin (fun p => { p with xpulse := p.xpulse ||| d.fd (Reg.CAPT.TOUT.of n) 7 0 * 2 ^ (8 * n) }))

/-- Section n drives no bus line any more (R303). -/
def dropPulse (d : Dev) (n : Nat) : Dev := d.lineChange (fun d => d.pin (fun p => { p with xpulse := setBits p.xpulse (8 * n + 7) (8 * n) 0 }))

/-- An edge at a TRG ball (x below 16), or the end of the capture pulses on bus line x − 16 (R305). -/
def trgEdge (d : Dev) (x : Nat) (up : Bool) : Dev :=
  if x < 16 then d.lineChange (fun d => d.pin (fun p => { p with trg := Sparse.set (fun _ => false) p.trg x up }))
  else if up then d
  else d.lineChange (fun d => d.pin (fun p => { p with
    xpulse := (List.range 8).foldl (fun v n => setBits v (8 * n + (x - 16)) (8 * n + (x - 16)) 0) p.xpulse }))

/-- TRG.IN and TRG.XBUS as they read. -/
def trgInReg (d : Dev) : Nat := ofOnes ((List.range 16).filter d.trgIn)
def xbusReg (d : Dev) : Nat := ofOnes ((List.range 8).filter d.busLine)

end Dev

end Sys2Proof.Machine
end

