-- ==== Sys2Proof/Machine/Time.lean ====
section
/-! DEFINITION. The time engine (R311 to R337): the tick, measurements and the servo, switches, alarms, pulse generators, time stamps and the
two-way exchange of Oxzin links. -/

namespace Sys2Proof.Machine

/-- TIME from a number, modulo 2^96. -/
def TimeVal.ofNum (v : Nat) : TimeVal := ⟨v / 2 ^ 80 % 2 ^ 16, v / 2 ^ 32 % 2 ^ 48, v % 2 ^ 32⟩

/-- `x` held between `lo` and `hi`. -/
def clampInt (lo hi x : Int) : Int := max lo (min hi x)

/-- A signed 80-bit value (R315). -/
def wrap80 (x : Int) : Int := sext 80 (toBits 80 x)

/-- An OFS, LASTE or θ of 2^-32 ns in the 64-bit form of the registers, ns in [63:16] (R320). -/
def ofsReg (x : Int) : Nat := bits (toBits 80 x) 79 16

/-- The amount of a step in the form of TIME_STEP: 2^-16 ns, truncated toward zero, saturated (R336). -/
def stepItem (x : Int) : Nat :=
  let q : Int := if x < 0 then -((-x) / 65536) else x / 65536
  toBits 64 (clampInt (-(2 ^ 63)) (2 ^ 63 - 1) q)

namespace Dev

def timg (d : Dev) (f : TimeSt → TimeSt) : Dev := { d with tim := f d.tim }
def dom (d : Dev) (i : Nat) (f : DomSt → DomSt) : Dev := d.timg (fun t => { t with dom := vmod t.dom i f })
def getDom (d : Dev) (i : Nat) : DomSt := vget d.tim.dom i (DomSt.start 0)
def pg (d : Dev) (g : Nat) (f : PgSt → PgSt) : Dev := d.timg (fun t => { t with pgs := vmod t.pgs g f })
def getPg (d : Dev) (g : Nat) : PgSt := vget d.tim.pgs g PgSt.start

/-- The register of domain i (R320). -/
def domLoc (r : Row) (i : Nat) : Loc := r.hubAt [i]

def slewLim (d : Dev) : Int := (d.rd Reg.TIME.SLEWLIM.hubAt : Int)
def deltaOf (d : Dev) (i : Nat) : Int := sext 32 (d.rd (domLoc Reg.TIME.D.DELTA i))

/-- Signed 48-bit difference of a target and NS (R321). -/
def nsDiff (d : Dev) (tgt : Nat) : Int := sext 48 ((tgt + 2 ^ 48 - d.time.ns) % 2 ^ 48)

/-! ### Lock and measurements (R315 to R319) -/

/-- Lock of domain i in D.STAT and TIME.STAT, with its notice when it changes (R318). The manual gives the causes of TIME_UNLOCK no codes: a
free value. -/
def setLock (d : Dev) (i : Nat) (on : Bool) : Dev :=
  let st := domLoc Reg.TIME.D.STAT i
  if d.fb st 31 == on then d
  else
    let d := (d.wb st 31 on).wb Reg.TIME.STAT.hubAt (4 + i) on
    if on then d.hubNotice 0x0504 [i] else d.fresh 64 (fun c d => d.hubNotice 0x0505 [i, c])

/-- OFS_d at the tick at or before a measurement's tick, from the history of 256 ns; a tick to come uses the present one, and so does one before
which the history holds nothing (R316). -/
def ofsAt (d : Dev) (i tm : Nat) : Int :=
  if 0 < d.nsDiff tm then (d.getDom i).ofs
  else match d.tim.hist.find? (fun h => decide (0 ≤ sext 48 ((tm + 2 ^ 48 - h.1) % 2 ^ 48))) with
    | some h => if i = 0 then h.2.1 else h.2.2
    | none => (d.getDom i).ofs

/-- A measurement counted in DISC (R316, R337). -/
def discard (d : Dev) (i : Nat) : Dev :=
  let l := domLoc Reg.TIME.D.CNT i
  d.wf l 15 0 (satAdd 16 (d.fd l 15 0) 1)

/-- A measurement θ of domain i taken at NS tm (R316, R318). -/
def measure (d : Dev) (i : Nat) (theta : Int) (tm : Nat) : Dev :=
  if d.nsDiff tm < -1048576 then d.discard i
  else
    let e := wrap80 (theta - d.ofsAt i tm)
    let mag := e.natAbs
    let th := d.rd (domLoc Reg.TIME.D.STEPTH i)
    let d := (d.wr64 Reg.TIME.D.LASTE 8 [i] (ofsReg e)).wb (domLoc Reg.TIME.D.STAT i) 30 false
    let d := d.dom i (fun s => { s with lastT := d.clk })
    if th ≠ 0 ∧ th * 2 ^ 32 < mag then
      let d := (d.dom i (fun s => { s with good := 0, bad := 0 })).setLock i false
      if d.tim.servo && d.tim.sel == i then
        d.timg (fun t => { t with stepDue := some (i, e + (match t.stepDue with | some p => p.2 | none => 0)) })
      else d.dom i (fun s => { s with ofs := wrap80 (s.ofs + e) })
    else
      let cfg := domLoc Reg.TIME.D.CFG i
      let lim := d.slewLim
      let integ := clampInt (-lim) lim (sext 32 (d.rd (domLoc Reg.TIME.D.INTEG i)) + e / 2 ^ d.fd cfg 23 18)
      let delta := clampInt (-lim) lim (integ + e / 2 ^ d.fd cfg 29 24)
      let d := (d.wr (domLoc Reg.TIME.D.INTEG i) (toBits 32 integ)).wr (domLoc Reg.TIME.D.DELTA i) (toBits 32 delta)
      let near := decide (mag ≤ d.fd (domLoc Reg.TIME.D.LOCK i) 15 0 * 2 ^ 29)
      let n := max 1 (d.fd cfg 5 2)
      let d := d.dom i (fun s => { s with good := if near then s.good + 1 else 0, bad := if near then 0 else s.bad + 1 })
      let s := d.getDom i
      if n ≤ s.good then d.setLock i true else if n ≤ s.bad then d.setLock i false else d

/-- OFFSET_SUBMIT (R319): the high half of D.OFFSET submits θ at MNS; nothing when the domain's source is OXL. -/
def offsetSubmit (d : Dev) (i hi : Nat) : Dev :=
  let off := Reg.TIME.D.OFFSET.of 8 [i]
  if d.fd (domLoc Reg.TIME.D.CFG i) 31 30 = 1 then d
  else
    let lo := (Sparse.get (fun _ => BitVec.ofNat 32 (d.rd off)) d.staging off.key).toNat
    let v := hi % 2 ^ 32 * 2 ^ 32 + lo
    let d := { d.wr64 Reg.TIME.D.OFFSET 8 [i] v with staging := Sparse.drop off.key d.staging }
    d.measure i (sext 64 v * 65536) (d.rd64 Reg.TIME.D.MNS 8 [i] % 2 ^ 48)

/-- A write of DOMSEL or of MODE to SERVO asks for a switch at the next tick (R317); MODE 0 gives TIME to INC from that tick on (R316). -/
def timeCtlWrite (d : Dev) (v : Nat) : Dev :=
  let l := Reg.TIME.CTL.hubAt
  let due := (d.fb l 4 != v.testBit 4) || (!(d.fb l 0) && v.testBit 0)
  (d.wr l (v &&& 0x111)).timg (fun t => { t with switchDue := t.switchDue || due, servo := t.servo && v.testBit 0 })

/-- A write of SLEWLIM (R315): INTEG and DELTA of both domains stay within it. -/
def slewLimWrite (d : Dev) (v : Nat) : Dev :=
  let lim := min v 0x346DC5
  let clamp := fun (d : Dev) (l : Loc) => d.wr l (toBits 32 (clampInt (-(lim : Int)) lim (sext 32 (d.rd l))))
  (d.wr Reg.TIME.SLEWLIM.hubAt lim).each [0, 1] (fun i d => clamp (clamp d (domLoc Reg.TIME.D.INTEG i)) (domLoc Reg.TIME.D.DELTA i))

/-- HOLDOVER_TIMEOUT (R318): the domain enters HOLDOVER, and TIME follows the other one where AUTOSW says so and it is locked. -/
def holdover (d : Dev) (i : Nat) : Dev :=
  let t := d.fd (domLoc Reg.TIME.D.LOCK i) 31 16
  let st := domLoc Reg.TIME.D.STAT i
  if t = 0 ∨ d.clk < (d.getDom i).lastT + 1000 * t ∨ d.fb st 30 then d
  else
    let d := (d.wb st 30 true).dom i (fun s => { s with good := 0, bad := 0 })
    let d := if d.fb st 31 then d.setLock i false else d.fresh 64 (fun c d => d.hubNotice 0x0505 [i, c])
    let ctl := Reg.TIME.CTL.hubAt
    if d.fb ctl 8 && d.tim.sel == i && d.fb (domLoc Reg.TIME.D.STAT (1 - i)) 31 then
      (d.wf ctl 4 4 (1 - i)).timg (fun t => { t with switchDue := true })
    else d

/-! ### Pulse generators (R331 to R335) -/

/-- START, PERIOD and WIDTH in 2^-32 ns. -/
def pgStart (d : Dev) (g : Nat) : Nat :=
  d.rd (Reg.PG.STARTF.hubAt [g]) + d.rd (Reg.PG.STARTL.hubAt [g]) * 2 ^ 32 + d.fd (Reg.PG.STARTH.hubAt [g]) 15 0 * 2 ^ 64
def pgPeriod (d : Dev) (g : Nat) : Nat := d.rd (Reg.PG.PERF.hubAt [g]) + d.rd (Reg.PG.PERNS.hubAt [g]) * 2 ^ 32
def pgWidth (d : Dev) (g : Nat) : Nat := d.rd (Reg.PG.WIDTH.hubAt [g]) * 2 ^ 32

/-- E_k. -/
def pgEdge (d : Dev) (g k : Nat) : Nat := (d.pgStart g + k * d.pgPeriod g) % 2 ^ 80

/-- RUN and NEXT as the generator stands (R335). -/
def showPg (d : Dev) (g : Nat) : Dev :=
  let p := d.getPg g
  let d := d.wb (Reg.PG.STAT.hubAt [g]) 31 (p.arming || p.k.isSome || p.fall.isSome)
  d.wr (Reg.PG.NEXT.hubAt [g]) (match p.k with | some k => d.pgEdge g k / 2 ^ 32 | none => 0)

/-- The output level of generator g. -/
def pgLevel (d : Dev) (g : Nat) (on : Bool) : Dev :=
  if d.genLevel g == on then d
  else (d.lineChange (fun d => d.pin (fun p => { p with gens := setBits p.gens g g (b2n on) }))).edge (24 + g) on

/-- LATE of generator g, with its notice. -/
def pgLate (d : Dev) (g : Nat) : Dev := (d.wb (Reg.PG.STAT.hubAt [g]) 1 true).hubNotice 0x0509 [g]

/-- A write of PG.CTL (R332, R333, R335): EN arms the generator, or is refused with REJ; clearing EN ends the pulse in progress. -/
def pgCtlWrite (d : Dev) (g v : Nat) : Dev :=
  let l := Reg.PG.CTL.hubAt [g]
  let was := d.fb l 31
  let per := d.pgPeriod g
  let wid := d.pgWidth g
  let ok := decide (4 * 2 ^ 32 ≤ wid) && (!(v.testBit 30) || (decide (8 * 2 ^ 32 ≤ per) && decide (wid < per)))
  let rej := v.testBit 31 && !was && !ok
  let v := if rej then setBits v 31 31 0 else v
  let d := (d.lineChange (fun d => d.wr l (v &&& 0xF0FFFF00))).when rej (fun d => d.wb (Reg.PG.STAT.hubAt [g]) 2 true)
  if v.testBit 31 && !was then (d.pg g (fun _ => { PgSt.start with arming := true })).showPg g
  else if was && !(v.testBit 31) then ((d.pgLevel g false).pg g (fun _ => PgSt.start)).showPg g
  else d

/-- The arming tick of generator g (R321, R332). -/
def pgArm (d : Dev) (g : Nat) : Dev :=
  if !(d.getPg g).arming then d
  else
    let ahead := sext 80 ((d.pgStart g + 2 ^ 80 - d.time.num % 2 ^ 80) % 2 ^ 80)
    if d.fb (Reg.PG.CTL.hubAt [g]) 30 then
      let k := if 0 < ahead then 0 else (-ahead).toNat / d.pgPeriod g + 1
      ((d.pg g (fun p => { p with arming := false, k := some k })).when (k != 0) (fun d => d.pgLate g)).showPg g
    else
      ((d.pg g (fun p => { p with arming := false, k := some 0, jumped := decide (ahead ≤ 0) })).when (decide (ahead ≤ 0))
        (fun d => d.pgLate g)).showPg g

/-- What a step forward does to generator g at its tick (R332): the last crossed edge is emitted in place of all, the others count in SKIPCNT. -/
def pgStep (d : Dev) (g : Nat) : Dev :=
  let p := d.getPg g
  match p.k with
  | none => d
  | some k =>
    let past := sext 80 ((d.time.num % 2 ^ 80 + 2 ^ 80 - d.pgEdge g k) % 2 ^ 80)
    if p.jumped || decide (past < 0) then d
    else
      let more := if d.fb (Reg.PG.CTL.hubAt [g]) 30 then past.toNat / d.pgPeriod g else 0
      let d := d.when (more != 0) (fun d => (d.bump (Reg.PG.SKIPCNT.hubAt [g]) more).hubNotice 0x0509 [g])
      (d.pg g (fun p => { p with k := some (k + more), jumped := true })).showPg g

/-- The sections whose pace input generator g feeds (R333): those it selects and no lower-numbered enabled generator does. -/
def paceOf (d : Dev) (g : Nat) : List Nat :=
  let sel := fun (i m : Nat) => let l := Reg.PG.CTL.hubAt [i]; d.fb l 31 && d.fb l (8 + m)
  (List.range 8).filter (fun m => sel g m && (List.range g).all (fun i => !(sel i m)))

/-- PULSE_EDGE (R331 to R334) at grid instant `ph` quarters after the last tick: the falling edge that is due, else the rising edge. -/
def pulseEdge (d : Dev) (g ph : Nat) : Dev :=
  let p := d.getPg g
  let now := (d.stampAt ph).num % 2 ^ 80
  let reached := fun (t : Nat) => decide (0 ≤ sext 80 ((now + 2 ^ 80 - t) % 2 ^ 80))
  let ctl := Reg.PG.CTL.hubAt [g]
  let n := d.rd (Reg.PG.COUNT.hubAt [g])
  if p.fall.any reached then
    let d := (d.pg g (fun p => { p with fall := none })).pgLevel g false
    (d.when (p.k.isNone && d.fb ctl 30 && n != 0) (fun d => d.wb (Reg.PG.STAT.hubAt [g]) 0 true)).showPg g
  else match p.k with
    | none => d
    | some k =>
      let e := d.pgEdge g k
      if !(p.jumped || reached e) then d
      else
        let last := !(d.fb ctl 30) || (n != 0 && decide (n ≤ p.count + 1))
        let d := d.pg g (fun p => { p with
          k := if last then none else some (k + 1)
          count := p.count + 1
          fall := some (((if p.jumped then now else e) + d.pgWidth g) % 2 ^ 80)
          jumped := false })
        let d := (d.pgLevel g true).showPg g
        d.each (d.paceOf g) (fun m d => d.run m (fun r => { r with paceDue := r.paceDue ++ [e] }))

/-! ### Alarms (R321 to R323) -/

/-- ALARM_ARM: a write of ALCTL. -/
def alarmWrite (d : Dev) (a v : Nat) : Dev :=
  let l := Reg.TIME.ALCTL.hubAt [a]
  let d := d.wr l ((d.rd l - (d.rd l &&& (v &&& 6))) / 2 * 2 + v % 2)
  let t := d.rd64 Reg.TIME.TGT 8 [a] % 2 ^ 48
  if v.testBit 0 then d.timg (fun s => { s with alarms := Sparse.put a ⟨t, decide (d.nsDiff t ≤ 0), false⟩ s.alarms })
  else d.timg (fun s => { s with alarms := Sparse.drop a s.alarms })

/-- The compares that a tick finds reached: alarms, and the targets of armed commands (R321). -/
def compareTick (d : Dev) : Dev :=
  let d := d.timg (fun t => { t with alarms := t.alarms.map (fun p => (p.1, { p.2 with hit := p.2.hit || p.2.past || decide (d.nsDiff p.2.tgt ≤ 0) })) })
  d.each (List.range 8) (fun n d =>
    d.when (d.getSec n false (fun s => s.run.armed == some .atTime && (s.run.late || d.timeReached n))) (fun d => d.run n (fun r => { r with timeHit := true })))

/-- COMPARE_FIRE of alarm a, which interrupts the device controller (R321, R323). -/
def alarmFire (d : Dev) (a : Nat) : Dev :=
  match Sparse.find a d.tim.alarms with
  | none => d
  | some x =>
    if !x.hit then d
    else
      let l := Reg.TIME.ALCTL.hubAt [a]
      let d := ((d.wb l 0 false).wb l 1 true).when x.past (fun d => d.wb l 2 true)
      let d := { d with ctl := { d.ctl with event := true } }
      (d.timg (fun s => { s with alarms := Sparse.drop a s.alarms })).hubNotice 0x0506 [a, b2n x.past]

/-! ### The tick (R311 to R317, R337) -/

/-- A switch that takes effect (R317). -/
def timeSwitch (d : Dev) : Dev :=
  if !d.tim.switchDue then d
  else
    let ctl := Reg.TIME.CTL.hubAt
    let st := Reg.TIME.STAT.hubAt
    let sel := d.fd ctl 4 4
    let servo := d.fb ctl 0
    let d := d.timg (fun t => { t with switchDue := false, sel := sel, servo := servo })
    let o := (d.getDom sel).ofs
    let d := d.timg (fun t => { t with slewT := if servo && o != 0 then some (d.clk - 4) else none })
    (((d.wb st 1 true).wf st 3 3 sel).wb st 7 (servo && o != 0)).hubNotice 0x0502 [sel, ofsReg o]

/-- TIME steps to a value (R314, R316, R318, R322, R336): STEP, the notice and the generators it crosses. A step of LOAD or ADD is one of both
domains, which lose their locks. -/
def timeStep (d : Dev) (v : Nat) (amount : Int) (src : Nat) : Dev :=
  let d := { d with time := TimeVal.ofNum v }
  let d := d.when (decide (2 ≤ src)) (fun d => d.each [0, 1] (fun i d => (d.dom i (fun s => { s with good := 0, bad := 0 })).setLock i false))
  let d := (d.wb Reg.TIME.STAT.hubAt 2 true).hubNotice 0x0501 [stepItem amount, src]
  d.when (decide (0 < amount)) (fun d => d.each (List.range 8) (fun g d => d.pgStep g))

/-- TIME_INC of the coming tick (R316). -/
def timeInc (d : Dev) : Nat :=
  if d.tim.servo then
    let s := d.tim.sel
    let lim := d.slewLim
    let c := clampInt (-lim - d.deltaOf s) (lim - d.deltaOf s) (d.getDom s).ofs
    toBits 40 ((d.rd64 Reg.TIME.NOMINC 8 [] : Int) + d.deltaOf s + c)
  else d.rd64 Reg.TIME.INC 8 []

/-- Whether the slew that a switch began has ended (R317). -/
def slewEnd (d : Dev) : Dev :=
  let on := d.tim.servo && (d.getDom d.tim.sel).ofs != 0
  let d := d.wb Reg.TIME.STAT.hubAt 7 on
  if on then d
  else match d.tim.slewT with
    | none => d
    | some t =>
      let d' := d.timg (fun s => { s with slewT := none })
      if d.tim.servo then d'.hubNotice 0x0503 [d.clk - t] else d'

/-- One tick of 250 MHz: the clock advances, and TIME with it unless the device is held in reset (R312). -/
def tick (d : Dev) : Dev :=
  let d := { d with clk := d.clk + 4 }
  if d.held then d
  else
    let d := d.timeSwitch
    let inc := d.timeInc
    let d := d.wr64 Reg.TIME.CURINC 8 [] inc
    let d := d.each [0, 1] (fun i d => d.dom i (fun s => { s with
      ofs := wrap80 (s.ofs + (toBits 40 ((d.rd64 Reg.TIME.NOMINC 8 [] : Int) + d.deltaOf i) : Int) - inc) }))
    let was := d.time.wrap
    let next := d.time.num + inc
    let d := { d with time := TimeVal.ofNum next }
    let set := d.rd Reg.TIME.SETF.hubAt + d.rd Reg.TIME.SETL.hubAt * 2 ^ 32 + d.rd Reg.TIME.SETH.hubAt * 2 ^ 64
    let d := match d.tim.setDue, d.tim.stepDue with
      | some add, p =>
        let d := d.timg (fun t => { t with setDue := none, stepDue := none })
        let d := match p with | some q => d.discard q.1 | none => d
        if add then d.timeStep ((next + set) % 2 ^ 96) (sext 96 set) 3
        else d.timeStep set ((set : Int) - (next % 2 ^ 96 : Nat)) 2
      | none, some (i, e) =>
        let d := (d.timg (fun t => { t with stepDue := none })).dom (1 - i) (fun s => { s with ofs := wrap80 (s.ofs - e) })
        d.timeStep (toBits 96 ((next : Int) + e)) e i
      | none, none => d
    let d := d.when (d.time.wrap == (was + 1) % 2 ^ 16) (fun d => d.hubNotice 0x0507 [d.time.wrap])
    let d := d.slewEnd
    let d := (d.each (List.range 8) (fun g d => d.pgArm g)).compareTick
    let d := d.timg (fun t => { t with recent := ((d.time.num, inc) :: t.recent).take 10 })
    if (d.clk - d.boot.releaseT) % 256 = 0 then
      d.timg (fun t => { t with hist := ((d.time.ns, (d.getDom 0).ofs, (d.getDom 1).ofs) :: t.hist).take 4097 })
    else d

/-- SETCMD (R314): LOAD wins if both are written. -/
def setcmdWrite (d : Dev) (v : Nat) : Dev :=
  if v.testBit 0 then d.timg (fun t => { t with setDue := some false })
  else if v.testBit 1 then d.timg (fun t => { t with setDue := some true })
  else d

/-- NOWF_READ (R313): FRAC, with NS and WRAP latched for NOWL and NOWH. -/
def nowfRead (d : Dev) : Dev × Nat :=
  ((d.wr Reg.TIME.NOWL.hubAt d.time.ns).wr Reg.TIME.NOWH.hubAt (d.time.wrap * 2 ^ 16 + d.time.ns / 2 ^ 32), d.time.frac)

/-! ### Stamps (R324 to R328) -/

/-- TIME `sub` eighths of a nanosecond after the last tick. -/
def subTime (d : Dev) (sub : Int) : Int := (d.time.num : Int) + (d.rd64 Reg.TIME.CURINC 8 [] : Int) * sub / 32

/-- TIME as it stood `back` eighths of a nanosecond before the last tick, at a flit's crossing: from the tick before that moment on (R324). -/
def pastTime (d : Dev) (back : Nat) : Int :=
  let k := (back + 31) / 32
  match d.tim.recent[k]? with
  | some (t, inc) => (t : Int) + (inc : Int) * ((32 * k : Nat) - (back : Int)) / 32
  | none => d.subTime (-(back : Int))

/-- A stamp with a constant in eighths of a nanosecond added: 1/8 ns of resolution. -/
def stampOf (t : Int) (k : Int) : TimeVal := TimeVal.ofNum (toBits 96 (t + k * 2 ^ 29) / 2 ^ 29 * 2 ^ 29)

/-- Stamps of TIM flits that pass the alignment point of lane L, or have passed it (R324). -/
def txStamp (d : Dev) (l : Nat) (sub : Int) : TimeVal := stampOf (d.subTime sub) (if d.fb (qctl l) 0 then 196 else 147)
def rxStamp (d : Dev) (l back : Nat) : TimeVal := stampOf (d.pastTime back) (if d.fb (qctl l) 0 then -441 else -330)

/-- A stamp record of port p enters its FIFO, or is dropped and counted (R326). -/
def pushStamp (d : Dev) (p info : Nat) (t : TimeVal) : Dev :=
  if 64 ≤ (vget d.tim.stamps p []).length then d.bump (Reg.ETH.TSDROP.hubAt [p])
  else d.timg (fun s => { s with stamps := vmod s.stamps p (fun l => l ++ [⟨info, t⟩]) })

/-- TSINFO_READ (R326): pops the record and latches its stamp; VALID is 0 where there is none. -/
def tsinfoRead (d : Dev) (p : Nat) : Dev × Nat :=
  let l := Reg.ETH.TSINFO.hubAt [p]
  match vget d.tim.stamps p [] with
  | [] => (d, d.rd l)
  | r :: _ =>
    let d := d.timg (fun s => { s with stamps := vmod s.stamps p (fun l => l.drop 1) })
    let d := (((d.wr l r.info).wr (Reg.ETH.TSF.hubAt [p]) r.time.frac).wr (Reg.ETH.TSL.hubAt [p]) r.time.ns).wr (Reg.ETH.TSH.hubAt [p])
      (r.time.wrap * 2 ^ 16 + r.time.ns / 2 ^ 32)
    (d, 2 ^ 31 + r.info)

/-- Whether port p carries frames: enabled, with a PHY, its PCS link up. -/
def ethUp (d : Dev) (p : Nat) : Bool :=
  let c := Reg.ETH.CTL.hubAt [p]
  d.fb c 31 && (d.fd c 1 0 == 1 || d.fd c 1 0 == 2) && d.fb (Reg.ETH.STAT.hubAt [p]) 0

/-- ETH_PCS_LINK_CHANGE. -/
def ethLink (d : Dev) (p : Nat) (up : Bool) : Dev := d.wb (Reg.ETH.STAT.hubAt [p]) 0 up

/-- The TSINFO of a stamped message. -/
def tsInfo (dir mtype domain seq : Nat) : Nat := dir * 2 ^ 30 + mtype % 16 * 2 ^ 24 + domain % 256 * 2 ^ 16 + seq % 2 ^ 16

/-- The PTP word of port p in the HVBR (R482): transport [1:0], domainNumber [8:2], master-capable [9], time domain [10]. -/
def ptpWord (d : Dev) (p : Nat) : Nat :=
  match d.boot.booted with
  | some r => ofBytes ((r.syscfg.drop (0x10 + 0x30 * p + 0x18)).take 4)
  | none => 0

/-- The time domain that the HVBR binds to port p. -/
def portDomain (d : Dev) (p : Nat) : Nat := bits (d.ptpWord p) 10 10

/-- Whether firmware runs PTP on port p (R327, R482). -/
def ptpOn (d : Dev) (p : Nat) : Bool := d.ethUp p && bits (d.ptpWord p) 1 0 != 0

def getPtp (d : Dev) (p : Nat) : PtpSt := vget d.tim.ptp p ⟨false, none⟩
def ptp (d : Dev) (p : Nat) (f : PtpSt → PtpSt) : Dev := d.timg (fun t => { t with ptp := vmod t.ptp p f })

/-- Firmware in the slave state writes θ, in 2^-16 ns, of a completed exchange to the port's domain, with the stamp of its Sync (R328). -/
def ptpMeasure (d : Dev) (p theta : Nat) : Dev :=
  match (d.getPtp p).master, (d.getPtp p).sync with
  | false, some ns =>
    let i := d.portDomain p
    let d := d.wr64 Reg.TIME.D.MNS 8 [i] ns
    let off := Reg.TIME.D.OFFSET.of 8 [i]
    let d := { d with staging := Sparse.put off.key (BitVec.ofNat 32 theta) d.staging }
    d.offsetSubmit i (theta / 2 ^ 32)
  | _, _ => d

/-- PTP_FRAME_RECEIVE (R325, R327, R328): an event message is stamped, whatever PTP does on the port; a Sync of the port's domain leaves its stamp with
firmware; `meas` is the θ of an exchange that the frame completes. -/
def ptpReceive (d : Dev) (p : Nat) (event : Option (Nat × Nat × Nat)) (sub : Int) (meas : Option Nat) : Dev :=
  if !(d.ethUp p) then d
  else
    let d := match event with
      | some (m, dn, seq) =>
        let t := stampOf (d.subTime sub) (-(d.rd (Reg.ETH.ILAT.hubAt [p]) : Int))
        (d.pushStamp p (tsInfo 0 m dn seq) t).when (d.ptpOn p && m == 0 && dn == bits (d.ptpWord p) 8 2) (fun d =>
          d.ptp p (fun x => { x with sync := some t.ns }))
      | none => d
    match meas with
    | some theta => d.when (d.ptpOn p) (fun d => d.ptpMeasure p theta)
    | none => d

/-- PTP_MESSAGE_TRANSMIT (R325, R327): an event message that firmware may send is stamped as it leaves. A Sync is one of a master, a Delay_Req one of a
slave; peer delay is not supported. -/
def ptpTransmit (d : Dev) (p : Nat) (event : Option (Nat × Nat × Nat)) (sub : Int) : Dev :=
  match event with
  | none => d
  | some (m, dn, seq) =>
    let w := d.ptpWord p
    if !(d.ptpOn p) || dn != bits w 8 2 || decide (1 < m) || (m == 0 && !(w.testBit 9)) then d
    else
      (d.ptp p (fun x => { x with master := m == 0 })).pushStamp p (tsInfo 1 m dn seq)
        (stampOf (d.subTime sub) (d.rd (Reg.ETH.ELAT.hubAt [p]) : Int))

/-! ### Time over Oxzin links (R329, R330) -/

/-- The lane that the CFG of domain i names. -/
def domLane (d : Dev) (i : Nat) : Nat := 4 * d.fd (domLoc Reg.TIME.D.CFG i) 17 12 + d.fd (domLoc Reg.TIME.D.CFG i) 11 10

/-- Whether lane L is ACTIVE in a TIM role: 1 client, 2 server (R329, R330, R363). -/
def timRole (d : Dev) (l role : Nat) : Bool :=
  d.laneState l == lnACTIVE && d.fd (laneLoc Reg.LANE.CTL l) 26 25 == role && (d.getBundle (d.bundleKey l)).classes.testBit (4 - role)

/-- The exchange interval of domain i in ns (R320, R329). -/
def reqGap (d : Dev) (i : Nat) : Nat := 1000 * 2 ^ min 10 (d.fd (domLoc Reg.TIME.D.CFG i) 9 6)

/-- The last boundary of domain i's interval that has fallen due: they follow one another from its first exchange on. -/
def reqBoundary (d : Dev) (i : Nat) : Nat :=
  match (d.getDom i).reqT with
  | some t => t + (d.clk - t) / d.reqGap i * d.reqGap i
  | none => d.clk

/-- Whether a boundary has fallen due since the last one that domain i used or let pass. -/
def reqDue (d : Dev) (i : Nat) : Bool := (d.getDom i).reqT != some (d.reqBoundary i)

/-- Boundaries that fell due while a DREQ of domain i was outstanding are past (R329). -/
def reqPass (d : Dev) (i : Nat) : Dev := let t := d.reqBoundary i; d.dom i (fun s => { s with reqT := some t })

/-- DREQ_SEND for domain i, at an interval boundary while no DREQ is outstanding on its lane (R329). Its stamp t1 is taken when its flit leaves
(R324). -/
def dreqSend (d : Dev) (i : Nat) : Dev :=
  let l := d.domLane i
  let s := d.getDom i
  let shared := (d.getDom (1 - i)).outst.isSome && d.domLane (1 - i) == l
  if d.fd (domLoc Reg.TIME.D.CFG i) 31 30 ≠ 1 || !(d.timRole l 1) || s.outst.isSome || shared || !(d.reqDue i) then d
  else
    let q := (s.seq + 1) % 2 ^ 16
    ((d.reqPass i).dom i (fun s => { s with seq := q, outst := some (q, d.time, d.clk) })).lane l
      (fun x => { x with timOut := x.timOut ++ [2 ^ 236 + q * 2 ^ 220] })

/-- What a TIM payload becomes as lane L sends it (R330): DRESP takes t3, and a DREQ gives its domain t1. -/
def timLeaves (d : Dev) (l p : Nat) (sub : Int) : Dev × Nat :=
  let t := d.txStamp l sub
  if bits p 239 236 = 2 then (d, setBits p 95 0 t.num)
  else
    (d.each [0, 1] (fun i d => d.when (d.domLane i == l) (fun d => d.dom i (fun s => { s with
      outst := s.outst.map (fun o => if o.1 = bits p 235 220 then (o.1, t, d.clk) else o) }))), p)

/-- The payload of a TIM flit at the front of lane L's received flits, taken from it. -/
def takeTim (d : Dev) (l msg : Nat) : Dev × Option Nat :=
  match (d.getLane l).ctl with
  | f :: _ =>
    let m := bits f.toNat 239 236
    if bits f.toNat 255 250 = 25 ∧ (m = msg ∨ (m ≠ 1 ∧ m ≠ 2)) then
      (d.popCtl l, if m = msg then some (f.toNat % 2 ^ 240) else none)
    else (d, none)
  | [] => (d, none)

/-- DREQ_RECEIVE on lane L: `back` eighths of a nanosecond ago the flit passed the alignment point. -/
def dreqReceive (d : Dev) (l back : Nat) : Dev :=
  let r := d.takeTim l 1
  match r.2 with
  | none => r.1
  | some p =>
    if !(r.1.timRole l 2) then r.1
    else
      let t2 := r.1.rxStamp l back
      r.1.lane l (fun x => { x with timOut := x.timOut ++ [2 * 2 ^ 236 + bits p 235 220 * 2 ^ 220 + t2.num * 2 ^ 96] })

/-- The domain whose exchange lane L carries. -/
def laneDom (d : Dev) (l : Nat) : Option Nat :=
  [0, 1].find? (fun i => d.fd (domLoc Reg.TIME.D.CFG i) 31 30 == 1 && d.domLane i == l && (d.getDom i).outst.isSome)

/-- DRESP_RECEIVE on lane L (R329): the measurement and PATH, or the response is discarded. -/
def drespReceive (d : Dev) (l back : Nat) : Dev :=
  let r := d.takeTim l 2
  match r.2, r.1.laneDom l with
  | some p, some i =>
    match (r.1.getDom i).outst with
    | none => r.1
    | some (q, t1, c) =>
      if q ≠ bits p 235 220 ∨ c + 100000 ≤ d.clk || !(r.1.timRole l 1) then r.1
      else
        let t4 := r.1.rxStamp l back
        let gap := fun (a b : Nat) => sext 96 ((a + 2 ^ 96 - b % 2 ^ 96) % 2 ^ 96)
        let t2 := bits p 191 96
        let t3 := bits p 95 0
        let asym := sext 32 (d.rd (domLoc Reg.TIME.D.ASYM i))
        let theta := (gap t2 t1.num + gap t3 t4.num) / 2 - asym * 2 ^ 28
        let path := (gap t4.num t1.num - gap t3 t2) / 2 / 2 ^ 29
        let d := ((r.1.reqPass i).dom i (fun s => { s with outst := none })).wr (domLoc Reg.TIME.D.PATH i) (toBits 32 path)
        d.measure i (wrap80 theta) t4.ns
  | _, _ => r.1

/-- DREQ_TIMEOUT of domain i (R329, R336). -/
def dreqTimeout (d : Dev) (i : Nat) : Dev :=
  let s := d.getDom i
  match s.outst with
  | none => d
  | some (_, _, c) =>
    if d.clk < c + 100000 then d
    else
      let l := domLoc Reg.TIME.D.CNT i
      let d := ((d.reqPass i).dom i (fun s => { s with outst := none })).wf l 31 16 (satAdd 16 (d.fd l 31 16) 1)
      let due := match s.missT with | some t => decide (t + 1000000 ≤ d.clk) | none => true
      if due then (d.hubNotice 0x0508 [i, s.missNew + 1]).dom i (fun s => { s with missNew := 0, missT := some d.clk })
      else d.dom i (fun s => { s with missNew := s.missNew + 1 })

end Dev

end Sys2Proof.Machine
end

