-- ==== Sys2Proof/Machine/Links.lean ====
section
/-! DEFINITION. The commands of lanes and links: training, negotiation, frames, flits, retry and test (R338 to R371). -/

namespace Sys2Proof.Machine

/-- Reads TLVs from bytes: the types and values up to END (R362); none while END has not come. -/
def readTlvs : Nat → List Nat → Option (List (Nat × List Nat))
  | 0, _ => none
  | _, [] => none
  | k + 1, t :: r =>
    if t = 0 then some []
    else match r with
      | [] => none
      | n :: r => if r.length < n then none else (readTlvs k (r.drop n)).map (fun l => (t, r.take n) :: l)

/-- The value of the first TLV of a type. -/
def tlvOf (l : List (Nat × List Nat)) (t : Nat) : Option (List Nat) := (l.find? (fun e => e.1 == t)).map (fun e => e.2)

namespace Dev

/-! ### Training -/

/-- Whether the taps of lane L are legal (R343). -/
def tapsOk (d : Dev) (l : Nat) : Bool :=
  let e := laneLoc Reg.LANE.EQTX l
  decide (d.fd e 20 16 + d.fd e 13 8 + d.fd e 4 0 ≤ 63)

/-- Whether the LORD values of the quad of lane L form a permutation (R343). -/
def lordOk (d : Dev) (l : Nat) : Bool :=
  let vs := (List.range 4).map (fun i => d.fd (laneLoc Reg.LANE.EQTX (l / 4 * 4 + i)) 29 28)
  (List.range 4).all (fun v => vs.contains v)

/-- Lane L starts training in CDR, its quad's PLL locked. -/
def startTraining (d : Dev) (l : Nat) : Dev :=
  (((d.setLaneState l lnCDR).wb (qctl l) 1 true).wb (laneLoc Reg.LANE.STAT l) 2 false).lane l
    (fun x => { clearLane x with trainT := some d.clk, failT := none })

/-- Training refused: CFGERR in each lane of a quad whose LORD values are no permutation, or in the lane with illegal taps (R343). -/
def refuseTraining (d : Dev) (l : Nat) : Dev :=
  if !(d.lordOk l) then d.each (List.range 4) (fun i d => d.wb (laneLoc Reg.LANE.STAT (l / 4 * 4 + i)) 2 true)
  else d.wb (laneLoc Reg.LANE.STAT l) 2 true

/-- A lane that returns to CDR by itself trains, or stays DISABLED with CFGERR where training is refused (R343, R361). -/
def trainAgain (d : Dev) (l : Nat) : Dev :=
  if d.lordOk l && d.tapsOk l then d.startTraining l
  else (d.refuseTraining l).setLaneState l lnDISABLED |>.lane l (fun x => { x with trainT := none, failT := none })

/-- CTL.TRAIN (R343, R361, R371): refused with CFGERR where the taps or the lane order are illegal; a lane of a bundle that is up goes down
with cause DISABLE first, and its whole bundle trains again. A lane in TEST stays there. -/
def laneTrain (d : Dev) (l : Nat) : Dev :=
  if !(d.laneLive l) || d.laneState l == lnTEST then d
  else if !(d.lordOk l && d.tapsOk l) then d.refuseTraining l
  else if d.bundleActive (d.bundleKey l) then
    let ls := d.bundleLanes l
    (d.bundleDown l 5).each ls (fun m d => d.startTraining m)
  else d.startTraining l

/-- CTL.DISABLE: the bundle goes down to DISABLED (R364). -/
def laneDisable (d : Dev) (l : Nat) : Dev := d.bundleDown l 5

/-- The CDR of lane L has locked to the incoming symbols, its quad's PLL with it. -/
def cdrLock (d : Dev) (l : Nat) : Dev :=
  d.when (d.laneState l == lnCDR) (fun d => ((d.setLaneState l lnCOMMA).wb (qctl l) 1 true).lane l (fun x => { x with commaRun := 0 }))

/-- The 40 bits at the next expected position while the receiver searches: the third match in a row gives comma lock (R346). -/
def commaLock (d : Dev) (l w : Nat) : Dev :=
  d.when (d.laneState l == lnCOMMA) (fun d =>
    let run := if commaMatch w then (d.getLane l).commaRun + 1 else 0
    if run < 3 then d.lane l (fun x => { x with commaRun := run })
    else (d.setLaneState l lnFEC).lane l (fun x => { x with commaRun := 0, goodRun := 0, badRun := 0, tail := 0, prevGood := false }))

/-- Whether lane L has comma lock: it has passed COMMA and is in service. -/
def hasComma (d : Dev) (l : Nat) : Bool := decide (lnFEC ≤ d.laneState l ∧ d.laneState l ≤ lnACTIVE)

/-- The 40 bits at the expected position of a comma under comma lock: each miss counts, and the fourth in a row loses the lock and takes the
bundle down (R346, R364). -/
def commaLoss (d : Dev) (l w : Nat) : Dev :=
  if !(d.hasComma l) then d
  else if commaMatch w then d.lane l (fun x => { x with commaRun := 0 })
  else
    let d := (d.bump (laneLoc Reg.LANE.COMMAMISS l)).lane l (fun x => { x with commaRun := x.commaRun + 1 })
    if 4 ≤ (d.getLane l).commaRun then d.bundleDown l 1 else d

/-- Eight consecutive codewords have decoded without an uncorrectable error (R346): the lane sends its TLVs. -/
def fecLock (d : Dev) (l : Nat) : Dev :=
  d.when (d.laneState l == lnFEC && decide (8 ≤ (d.getLane l).goodRun)) (fun d =>
    (d.setLaneState l lnCAPS).lane l (fun x => { x with tlv := [], tlvSent := 0 }))

/-- 32 consecutive codewords were uncorrectable (R346, R364). -/
def fecLoss (d : Dev) (l : Nat) : Dev :=
  if decide (lnCAPS ≤ d.laneState l ∧ d.laneState l ≤ lnACTIVE) && decide (32 ≤ (d.getLane l).badRun) then d.bundleDown l 2 else d

/-! ### Negotiation -/

/-- The classes this end lists on lane L (R362): FAB, STR, SVC and MIR, and the TIM role of its CTL. -/
def ownClasses (d : Dev) (l : Nat) : Nat :=
  let r := d.fd (laneLoc Reg.LANE.CTL l) 26 25
  0b110011 + (if r = 2 then 4 else 0) + (if r = 1 then 8 else 0)

/-- This end's TLVs on lane L (R362). -/
def ownTlvs (d : Dev) (l : Nat) : List Nat :=
  [1, 2, 1, 2, 2, 1, d.ownClasses l, 3, 2, d.fd (laneLoc Reg.LANE.CTL l) 24 23, d.bundleLane l,
   4, 4, d.fd Reg.SYS.CFG.hubAt 31 30, d.fd Reg.SYS.CFG.hubAt 22 16, 0, 0, 0]

/-- Whether the peer's TLVs fail negotiation on lane L (R363). -/
def tlvFails (d : Dev) (l : Nat) (ts : List (Nat × List Nat)) : Bool :=
  match tlvOf ts 1, tlvOf ts 2, tlvOf ts 3 with
  | some (mj :: _), some (_ :: _), some (w :: b :: _) =>
    mj != 1 || w != d.fd (laneLoc Reg.LANE.CTL l) 24 23 || b != d.bundleLane l
  | _, _, _ => true

/-- The classes in use: those both ends list, MIR from minor 1 on, TIM where one end is server and the other client; below minor 2 a node of
role 3 is no TIM server (R363). -/
def usedClasses (own peer minor ownRole peerRole : Nat) : Nat :=
  let both := own &&& peer
  let serves := fun (role : Nat) => decide (2 ≤ minor) || role != 3
  let tim := if (own.testBit 2 && serves ownRole && peer.testBit 3) || (own.testBit 3 && peer.testBit 2 && serves peerRole)
    then own &&& 12 else 0
  (both &&& (if minor = 0 then 0b010011 else 0b110011)) ||| tim

/-- The TLVs of every lane of the bundle are exchanged (R361 to R363): CREDIT, or NEGFAIL in the lanes where negotiation fails. `rtt` is
the round-trip time measured. -/
def tlvDone (d : Dev) (l rtt : Nat) : Dev :=
  let ls := d.bundleLanes l
  let read := fun m => readTlvs 512 (d.getLane m).tlv
  let told := fun m => decide ((d.ownTlvs m).length ≤ (d.getLane m).tlvSent)
  if !(ls.all (fun m => d.laneState m == lnCAPS && (read m).isSome && told m)) then d
  else
    let d := d.wr (laneLoc Reg.LANE.RTT l) rtt
    let bad := ls.filter (fun m => d.tlvFails m ((read m).getD []))
    if !bad.isEmpty then
      d.each bad (fun m d =>
        let ts := (read m).getD []
        let d := ((d.setLaneState m lnNEGFAIL).wf (laneLoc Reg.LANE.STAT m) 27 24 7).lane m (fun x => { x with trainT := none })
        d.laneNotice m 0x0604 [ofBytes ((tlvOf ts 1).getD []), ofBytes ((tlvOf ts 3).getD [])])
    else
      let ts := (read l).getD []
      let minor := min 2 (((tlvOf ts 1).getD []).getD 1 0)
      let cls := usedClasses (d.ownClasses l) (((tlvOf ts 2).getD []).getD 0 0) minor (d.fd Reg.SYS.CFG.hubAt 31 30)
        (((tlvOf ts 4).getD []).getD 0 0)
      let k := d.bundleKey l
      let d := (d.dropSent k).bundle k (fun b => { Bundle.idle with
        inPkts := b.inPkts, outPkts := b.outPkts, cutting := b.cutting, classes := cls, peer := ofBytes ((tlvOf ts 4).getD []),
        peerHead := ofBytes ((tlvOf ts 1).getD []) + 65536 * ofBytes ((tlvOf ts 3).getD []) })
      d.each ls (fun m d =>
        let d := d.setLaneState m lnCREDIT
        let st := laneLoc Reg.LANE.STAT m
        ((d.wf st 23 16 1).wf st 15 8 minor).lane m (fun x => { clearLane x with
          prevGood := x.prevGood, commaRun := x.commaRun, goodRun := x.goodRun, badRun := x.badRun, tail := x.tail
          txBits := x.txBits, txLen := x.txLen, txFrame := x.txFrame }))

/-- NEIGHBOUR on bundle k: serial number, role, node, twin state (R400). -/
def sendNeighbour (d : Dev) (k : Nat) : Dev :=
  let node := d.fd Reg.SYS.CFG.hubAt 22 16
  d.sendPkt k 28 ([0x7F * 32, node * 32, 0, 1] ++ words12 6 (d.rd64 Reg.BOOT.SERIAL 8) ++
    [d.fd Reg.SYS.CFG.hubAt 31 30 * 2 ^ 10 + node, d.twinState * 2 ^ 8 + d.fd Reg.TWIN.STAT.hubAt 0 0 * 2 ^ 7])

/-- The bundle of lane L becomes ACTIVE (R361, R370, R400). -/
def bundleUp (d : Dev) (l : Nat) : Dev :=
  let k := d.bundleKey l
  let d := d.each (d.bundleLanes l) (fun m d => (d.setLaneState m lnACTIVE).lane m (fun x => { x with trainT := none, failT := none }))
  let st := laneLoc Reg.LANE.STAT l
  let d := d.laneNotice l 0x0601 [d.width l, d.fd st 23 16 * 256 + d.fd st 15 8, (d.getBundle k).peer]
  d.when (d.fd Reg.SYS.CFG.hubAt 31 30 != 0 && decide (3 ≤ d.fd Reg.SYS.STAT.hubAt 31 28) && (d.getBundle k).classes.testBit 4)
    (fun d => d.sendNeighbour k)

/-- A LINK flit (R349, R356, R361): its ACK, its grants, and ACTIVE once every bound channel of a class in use has its initial grant or the grant
is empty. -/
def linkFlit (d : Dev) (l : Nat) : Dev :=
  match d.frontCtl l 1 with
  | none => d
  | some f =>
    let d := (d.popCtl l).flitAck l f
    let k := d.bundleKey l
    let es := ((List.range 9).map (fun i => bits f.toNat (24 * i + 23) (24 * i))).filter (fun e => e.testBit 23)
    let d := d.bundle k (fun b => { b with
      gotLink := true
      credit := es.foldl (fun m e =>
        let c := bits e 22 17
        Sparse.put c ((Sparse.get (fun _ => 0) m c) + bits e 11 0) m) b.credit })
    let all := ((d.boundChans outQueues k).filter (chanUsed (d.getBundle k).classes)).all (fun c => (Sparse.find c (d.getBundle k).credit).isSome)
    if (d.bundleLanes l).all (fun m => d.laneState m == lnCREDIT) && (es.isEmpty || all) then d.bundleUp l else d

/-- An IDLE flit: its ACK (R349). -/
def idleFlit (d : Dev) (l : Nat) : Dev :=
  match d.frontCtl l 0 with
  | none => d
  | some f => (d.popCtl l).flitAck l f

/-- A TLV flit: its bytes, in CAPS (R350). -/
def tlvFlit (d : Dev) (l : Nat) : Dev :=
  match d.frontCtl l 3 with
  | none => d
  | some f =>
    let d := d.popCtl l
    let n := min 28 (bits f.toNat 231 224)
    d.when (d.laneState l == lnCAPS) (fun d => d.lane l (fun x => { x with
      tlv := x.tlv ++ (List.range n).map (fun i => bits f.toNat (223 - 8 * i) (216 - 8 * i)) }))

/-- A NAK: the ACK first, then the replay from EXPSEQ, starting again where one runs (R360, R371). -/
def nakFlit (d : Dev) (l : Nat) : Dev :=
  match d.frontCtl l 2 with
  | none => d
  | some f =>
    let d := (d.popCtl l).flitAck l f
    let e := bits f.toNat 9 0
    d.lane l (fun x => { x with again := if x.replay.any (fun r => r.1 == e) then some e else none })

/-! ### Frames -/

/-- One accepted flit of a good frame enters the lane: CTL and TIM as they come, sequenced flits in sequence order (R347 to R349, R359). -/
def acceptFlit (d : Dev) (l : Nat) (f : BitVec 256) : Dev :=
  let c := flitChan f
  if c = 0 then
    if flitCtype f ≤ 3 then d.lane l (fun x => { x with ctl := x.ctl ++ [f] }) else d
  else if c = 25 then d.lane l (fun x => { x with ctl := x.ctl ++ [f] })
  else if 38 ≤ c then d.unmap l c
  else if d.laneState l != lnCREDIT && d.laneState l != lnACTIVE then d
  else if flitSeq f = (d.getLane l).rxSeq then
    d.lane l (fun x => { x with
      seqd := x.seqd ++ [f], rxSeq := (x.rxSeq + 1) % 1024, dropping := false, nakDue := false, naks := 0 })
  else if (d.getLane l).dropping then d
  else d.lane l (fun x => { x with dropping := true, nakDue := true })

/-- One decoded codeword of lane L: the consecutive good and the consecutive uncorrectable ones (R346). -/
def codeword (x : Lane) (bad : Bool) : Lane :=
  if bad then { x with badRun := x.badRun + 1, goodRun := 0 } else { x with goodRun := x.goodRun + 1, badRun := 0 }

/-- LOOP of lane L in TEST: 1 near end, 2 far end, 0 none (R368). -/
def loopOf (d : Dev) (l : Nat) : Nat :=
  let v := d.fd (laneLoc Reg.LANE.CTL l) 29 28
  if d.laneState l == lnTEST && v != 3 then v else 0

/-- What the flits of a frame do in the link layer (R347, R359): those of a good frame are accepted, the straddling one only where the frame
before was good too; a bad frame is refused with a NAK. -/
def frameTaken (d : Dev) (l : Nat) (flits : List (BitVec 256)) (straddle good : Bool) : Dev :=
  if good then d.each (if straddle && !(d.getLane l).prevGood then flits.drop 1 else flits) (fun f d => d.acceptFlit l f)
  else if (d.laneState l == lnCREDIT || d.laneState l == lnACTIVE) && !(d.getLane l).dropping then
    d.lane l (fun x => { x with dropping := true, nakDue := true })
  else d

/-- The end of frame f of a period on lane L (R344, R346, R347, R359, R368): its flit area and its HOPCRC as decoded, `fixed` corrected symbols,
and which of its 4 codewords were uncorrectable. In near-end loopback the frame is the one the lane itself sent last; in far-end loopback its
bits go out again. The link layer takes flits from CAPS on. -/
def frameEnd (d : Dev) (l f area carried fixed : Nat) (bad : BitVec 4) : Dev :=
  let loop := d.loopOf l
  let near := (d.getLane l).txFrame
  if !(d.hasComma l || decide (loop = 2) || (decide (loop = 1) && near.isSome)) then d
  else
    let area := if loop = 1 then near.getD 0 else area
    let crcOk := loop == 1 || hopCrc area == carried
    let lost := popCount 4 bad.toNat
    let good := lost == 0 && crcOk
    let flits := frameFlits f (d.getLane l).tail area
    let d := (d.bump (laneLoc Reg.LANE.FECCE l) fixed).bump (laneLoc Reg.LANE.FECUE l) lost
    let d := d.when (!crcOk) (fun d => d.bump (laneLoc Reg.LANE.CRCERR l))
    let d := d.when (decide (lnCAPS ≤ d.laneState l ∧ d.laneState l ≤ lnACTIVE)) (fun d => d.frameTaken l flits (f % 4 != 0) good)
    let d := d.when (decide (loop = 2)) (fun d => d.lane l (fun x => { x with sent := flits.getLast? }))
    d.lane l (fun x => { (List.range 4).foldl (fun x i => codeword x (bad.toNat.testBit i)) x with
      prevGood := good, tail := frameTail f x.tail area })

/-- 4 µs after a NAK its flit has not arrived: another NAK, or the bundle down after sixteen (R359, R360). -/
def nakTimeout (d : Dev) (l : Nat) : Dev :=
  let x := d.getLane l
  if x.dropping && !x.nakDue && x.naks != 0 && decide (x.nakT + 4000 ≤ d.clk) then
    if 16 ≤ x.naks then d.bundleDown l 3 else d.lane l (fun x => { x with nakDue := true })
  else d

/-! ### Packet flits -/

/-- A packet flit as R351 lays it out: end, poison, words, tally, and whether its format is broken. -/
structure PktFlit where
  eop : Bool
  poison : Bool
  nw : Nat
  words : List Nat
  tally : Nat
  broken : Bool
deriving DecidableEq, Repr

/-- Reads a packet flit; `open_` supplies the number of words where NW lies outside its range, which the manual leaves open. -/
def readPktFlit (f : BitVec 256) (open_ : Nat) : PktFlit :=
  let p := f.toNat
  let eop := p.testBit 239
  let nw := bits p 237 233
  let most := if eop then 16 else 19
  let inRange := decide (1 ≤ nw ∧ nw ≤ most)
  let k := if inRange then nw else 1 + open_ % most
  { eop := eop, poison := p.testBit 238, nw := nw, words := flitWords p k, tally := bits p 227 196,
    broken := !inRange || bits p 232 228 != 0 || (!eop && p.testBit 238) || (eop && bits p 195 192 != 0) }

/-- An SVC or MIR packet is complete in the hub buffer of its bundle. The tally of a mirrored packet is its queue's to check (R402). -/
def hubPacket (d : Dev) (k chan : Nat) (words : List Nat) (tally : Nat) (poison : Bool) : Dev :=
  let bad := poison || (chan != 31 && tally != crcEnd (words.foldl crcWord crcStart))
  d.bundle k (fun b => { b with inPkts := b.inPkts ++ [⟨chan, words, tally, bad, none⟩] })

/-- The next sequenced flit of a bundle, taken from the lane whose turn it is, is written into the queue or buffer of its channel (R351,
R352, R355, R356); a paired primary mirrors each complete link or stream packet (R383, R402). -/
def packetFlit (d : Dev) (l : Nat) : Dev :=
  let k := d.bundleKey l
  if (d.getBundle k).rxTurn % d.width l != d.bundleLane l then d
  else match (d.getLane l).seqd with
    | [] => d
    | f :: rest => d.fresh 8 (fun open_ d =>
      let n := k / 32
      let c := flitChan f
      let x := readPktFlit f open_
      let at_ := (d.getLane l).deliv
      let d := d.lane l (fun y => { y with
        seqd := rest, deliv := y.deliv + 1, unacked := y.unacked + 1, waitT := some (y.waitT.getD d.clk) })
      let d := d.bundle k (fun b => { b with
        rxTurn := b.rxTurn + 1, granted := Sparse.put c (Sparse.get (fun _ => 0) b.granted c - x.nw) b.granted })
      let dead := !(chanUsed (d.getBundle k).classes c) || ((isFab c || isStr c) &&
        ((d.boundQueue inQueues k c).isNone || d.runState n == stOFF || d.secondary))
      if dead then d.unmap l c
      else
        let b := d.getBundle k
        let bad := x.broken || b.inBad.contains c
        let soFar := Sparse.get (fun _ => []) b.inOpen c ++ x.words
        let mirror := d.pairedPrimary && (isFab c || isStr c)
        let id := ((b.inBusy.find? (fun e => e.1 == c)).map (fun e => e.2)).getD d.twin.mirrorNext
        let newId := mirror && !(b.inBusy.any (fun e => e.1 == c))
        let d := d.when newId (fun d => d.twn (fun t => { t with mirrorNext := t.mirrorNext + 1 }))
        let d := d.when mirror (fun d => d.lane l (fun y => { y with held := y.held ++ [(at_, id)] }))
        let d := d.bundle k (fun b => { b with
          inOpen := if x.eop then Sparse.drop c b.inOpen else Sparse.put c soFar b.inOpen
          inBad := if x.eop then b.inBad.filter (· != c) else if bad && !(b.inBad.contains c) then c :: b.inBad else b.inBad
          inBusy := if x.eop then b.inBusy.filter (fun e => e.1 != c) else if newId then (c, id) :: b.inBusy else b.inBusy
          got := if x.eop then Sparse.put c (Sparse.get (fun _ => 0) b.got c + 1) b.got else b.got })
        let poison := x.eop && (x.poison || bad)
        if isFab c || isStr c then
          match d.boundQueue inQueues k c with
          | none => d
          | some q =>
            let was := d.rd (Reg.FERRY.POISCNT.of n [q])
            let d := d.queueWrite n q (packetWords x.words x.eop) ⟨some x.tally, poison, false⟩
            let failed := d.rd (Reg.FERRY.POISCNT.of n [q]) != was
            d.when (mirror && x.eop) (fun d => d.mirrorOut n q id soFar x.tally (poison || failed))
        else if x.eop then d.hubPacket k c soFar x.tally poison else d)

/-! ### Transmission -/

/-- Words the receiver may grant on a channel (R340, R356, R374, R384): FREE of the bound queue, or the room of the hub buffer, less what
is granted already. -/
def grantable (d : Dev) (k c : Nat) : Nat :=
  let b := d.getBundle k
  let out := Sparse.get (fun _ => 0) b.granted c
  if isFab c || isStr c then
    match d.boundQueue inQueues k c with
    | some q => if d.secondary || d.runState (k / 32) = stOFF then 0 else d.getQ (k / 32) q 0 Queue.free - out
    | none => 0
  else
    let held := (b.inPkts.filter (fun p => p.chan == c)).foldl (fun a p => a + p.words.length) 0 +
      (Sparse.get (fun _ => []) b.inOpen c).length
    (if isSvc c then 512 else Config.mirrorBuffer.toNat % 4096) - held - out

/-- The grants of the next LINK flit, nine at most. -/
def grants (d : Dev) (k : Nat) : List (Nat × Nat) :=
  let b := d.getBundle k
  let hub := (if b.classes.testBit 4 then [26, 27, 28, 29] else []) ++
    (if b.classes.testBit 5 then [30, 31, 32, 33, 34, 35] else [])
  let bound := (d.boundChans inQueues k).filter (chanUsed b.classes)
  (((bound ++ hub).map (fun c => (c, min 4095 (d.grantable k c)))).filter (fun g => g.2 != 0)).take 9

/-- A packet that bundle k may send on: a hub packet, or the packet at the head of an outbound queue. The words it still has, and
whether they reach its end. -/
def outWords (d : Dev) (k c : Nat) : Option (Option Nat × List Nat × Bool × Bool) :=
  let b := d.getBundle k
  let soFar := match b.sent.find? (fun s => !s.ended && s.pkt.chan == c) with | some s => s.pkt.words.length | none => 0
  if isFab c || isStr c then
    match d.boundQueue outQueues k c with
    | none => none
    | some q =>
      d.getQ (k / 32) q none (fun x =>
        let ws := x.taken ++ (x.words.take x.avail)
        match ws.findIdx? (fun w => w.eop) with
        | some i => some (some q, (ws.take (i + 1)).map (fun w => w.data.toNat), true, (ws.take (i + 1)).any (fun w => w.poison))
        | none => if ws.isEmpty then none else some (some q, ws.map (fun w => w.data.toNat), false, ws.any (fun w => w.poison)))
  else
    match b.outPkts.find? (fun p => p.chan == c) with
    | some p => some (none, p.words.drop soFar, true, p.poison)
    | none => none

/-- Whether this device transmits on a class now (R386, R394): a paired secondary and a stopped primary send no FAB or STR flit. -/
def mayTransmit (d : Dev) (c : Nat) : Bool := !(isFab c || isStr c) || (!d.secondary && !d.twin.stopped)

/-- The number of words of the next flit of a channel: those that end the packet when they fit and have credit, else as many as fit, have
credit and leave a word for the end. 0: nothing can be sent. -/
def flitSize (left credit : Nat) (toEnd : Bool) : Nat :=
  if toEnd && decide (left ≤ 16) then (if left ≤ credit then left else credit)
  else min (min 19 (if toEnd then left - 1 else left)) credit

/-- The channels of bundle k in order of precedence (R353): MIR, SVC, then FAB and STR from the one after that served last. -/
def chanOrder (d : Dev) (k : Nat) : List Nat :=
  let cs := (d.boundChans outQueues k).eraseDups
  let r := (d.getBundle k).rr
  let after := cs.filter (fun c => decide (r < c))
  let upto := cs.filter (fun c => decide (c ≤ r))
  (List.range 8).map (· + 30) ++ (List.range 4).map (· + 26) ++ after ++ upto

/-- LOG2 of INJ: 10 to 40, others as 10 (R367). -/
def injectLog2 (d : Dev) (l : Nat) : Nat :=
  let v := d.fd (laneLoc Reg.LANE.INJ l) 5 0
  if 10 ≤ v ∧ v ≤ 40 then v else 10

/-- The bits of the next 256 that INJ inverts, the first bit sent the highest (R367): those still due after GO in modes 1 and 2; in mode 3 one
bit in 2^LOG2. -/
def injectMask (d : Dev) (l : Nat) : Nat :=
  let x := d.getLane l
  let due := min 256 x.inject
  let mode3 := d.fd (laneLoc Reg.LANE.INJ l) 31 30 == 3
  let every := 2 ^ d.injectLog2 l
  (2 ^ 256 - 2 ^ (256 - due)) ^^^ (if mode3 && decide (every ≤ x.rateRun + 256) then 2 ^ (255 - (every - 1 - x.rateRun)) else 0)

/-- 256 bits leave lane L, with the injected errors in them. -/
def atBalls (d : Dev) (l : Nat) (f : BitVec 256) : Dev :=
  let m := d.injectMask l
  let mode3 := d.fd (laneLoc Reg.LANE.INJ l) 31 30 == 3
  let every := 2 ^ d.injectLog2 l
  d.lane l (fun x => { x with
    sent := some (f ^^^ BitVec.ofNat 256 m)
    inject := x.inject - 256
    rateRun := if mode3 then (x.rateRun + 256) % every else 0 })

/-- Lane L sends flit f in its next slot: it enters the frame being sent, whose HOPCRC and codewords are formed over it as it stands, and leaves
the balls with the injected errors (R344, R367). -/
def put (d : Dev) (l : Nat) (f : BitVec 256) : Dev := (d.lane l (fun x => intoFrame x f)).atBalls l f

/-- A slot of a lane in TEST (R366, R368): 256 bits of the PRBS of POLY where CTL.TEST and GEN are set, from a start the manual leaves open; in
near-end loopback an IDLE flit, inside and at the balls; in far-end loopback what is received goes out, not this. -/
def testSlot (d : Dev) (l : Nat) : Dev :=
  let c := laneLoc Reg.LANE.PRBSCTL l
  if d.fb (laneLoc Reg.LANE.CTL l) 27 then
    let p := prbsPoly (d.fd c 2 0)
    let go := fun (r : Nat) (d : Dev) =>
      let t := prbsRun p 256 r
      (d.lane l (fun x => { x with prbsGen := t.1 })).atBalls l (BitVec.ofNat 256 t.2)
    let r := (d.getLane l).prbsGen % 2 ^ p.1
    if !(d.fb c 31) then d
    else if r = 0 then d.fresh 31 (fun v d => go (1 + v % (2 ^ p.1 - 1)) d) else go r d
  else if d.loopOf l = 1 then d.put l (mkFlit 0 0 0)
  else d

/-- A new sequenced flit of channel c (R351, R355, R356, R359): its words leave the queue or the hub packet, its credit is spent, and it
stays in the replay buffer. A queue's packet leaves with the tally beside its mark (R242). The end of a poisoned packet carries POISON, and counts at the link transmitter (R455, R456). -/
def sendFlit (d : Dev) (l c : Nat) (w : Option Nat × List Nat × Bool × Bool) : Dev :=
  let k := d.bundleKey l
  let n := k / 32
  let b := d.getBundle k
  let nw := flitSize w.2.1.length (Sparse.get (fun _ => 0) b.credit c) w.2.2.1
  let ws := w.2.1.take nw
  let eop := w.2.2.1 && nw == w.2.1.length
  let opened := b.sent.find? (fun s => !s.ended && s.pkt.chan == c)
  let soFar := match opened with | some s => s.pkt.words | none => []
  let flits := match opened with | some s => s.flits | none => []
  let hubPkt := b.outPkts.find? (fun p => p.chan == c)
  let marked := w.1.bind (fun q => d.getQ n q none (fun x => (x.taken ++ x.words)[w.2.1.length - 1]?.bind (fun y => y.tally)))
  let tally := match w.1, hubPkt with
    | none, some p => p.tally
    | _, _ => (marked.map BitVec.toNat).getD (crcEnd ((soFar ++ ws).foldl crcWord crcStart))
  let poison := eop && w.2.2.2
  let seq := (d.getLane l).txSeq
  let body := ws.zipIdx.foldl (fun a p => a + p.1 % 4096 * 2 ^ (12 * p.2)) 0
  let payload := b2n eop * 2 ^ 239 + b2n poison * 2 ^ 238 + nw * 2 ^ 233 + (if eop then tally * 2 ^ 196 else 0) + body
  let f := mkFlit c seq payload
  let d := match w.1 with
    | some q =>
      let need := nw - d.getQ n q 0 (fun x => x.taken.length)
      let d := if need = 0 then d else d.serviceTake n q need []
      d.queue n q (fun x => { x with taken := x.taken.drop nw })
    | none => if eop then d.bundle k (fun b => { b with outPkts := match hubPkt with | some p => b.outPkts.erase p | none => b.outPkts }) else d
  let rec_ : SentPkt := ⟨⟨c, soFar ++ ws, tally, poison, hubPkt.bind (fun p => if w.1.isNone then p.mirror else none)⟩, w.1, eop,
    flits ++ [(l, seq)]⟩
  let d := d.bundle k (fun b => { b with
    sent := b.sent.filter (fun s => s.ended || s.pkt.chan != c) ++ [rec_]
    credit := Sparse.put c (Sparse.get (fun _ => 0) b.credit c - nw) b.credit
    txTurn := b.txTurn + 1
    rr := if isFab c || isStr c then c else b.rr })
  let d := d.lane l (fun x => { x with replay := x.replay ++ [(seq, f)], txSeq := (seq + 1) % 1024 })
  let d := match w.1 with
    | some q => d.when poison (fun d => d.integrity n 3 q)
    | none => d
  d.put l f

/-- Sends a LINK flit with the grants and the ACK of the lane. -/
def sendLink (d : Dev) (l : Nat) (gs : List (Nat × Nat)) : Dev :=
  let k := d.bundleKey l
  let body := gs.zipIdx.foldl (fun a p => a + (2 ^ 23 + p.1.1 * 2 ^ 17 + p.1.2) * 2 ^ (24 * p.2)) 0
  let f := mkFlit 0 0 (2 ^ 236 + d.ackBits (d.getLane l) + body)
  let d := d.bundle k (fun b => { b with
    initGrant := true
    granted := gs.foldl (fun m g => Sparse.put g.1 (Sparse.get (fun _ => 0) m g.1 + g.2) m) b.granted })
  (d.lane l (fun x => { x with unacked := 0, waitT := none })).put l f

/-- One flit slot of lane L, filled by precedence (R353). From CDR on the transmitter sends IDLE, in CAPS its TLVs, in CREDIT its initial
grant (R361). The queues of packets cut short by a link down go on discarding first (R364). `sub` is the time in eighths of a nanosecond after the last tick at which the flit passes the alignment point (R324). -/
def flitTransmit (d : Dev) (l : Nat) (sub : Int) : Dev :=
  let d := d.cutMore (d.bundleKey l)
  let st := d.laneState l
  let x := d.getLane l
  let k := d.bundleKey l
  let idle := mkFlit 0 0 (d.ackBits x)
  if st = lnDISABLED ∨ st = lnNEGFAIL then d
  else if st = lnTEST then d.testSlot l
  else if st < lnCAPS then d.put l (mkFlit 0 0 0)
  else if st = lnCAPS then
    let bs := (d.ownTlvs l).drop x.tlvSent
    let part := bs.take 28
    if part.isEmpty then d.put l (mkFlit 0 0 0)
    else
      let body := part.zipIdx.foldl (fun a p => a + p.1 * 2 ^ (216 - 8 * p.2)) 0
      (d.lane l (fun x => { x with tlvSent := x.tlvSent + part.length })).put l (mkFlit 0 0 (3 * 2 ^ 236 + part.length * 2 ^ 224 + body))
  else if x.nakDue then
    let f := mkFlit 0 0 (2 * 2 ^ 236 + d.ackBits x + x.rxSeq)
    let d := (d.bump (laneLoc Reg.LANE.RETRY l)).lane l (fun x => { x with
      nakDue := false, naks := x.naks + 1, nakT := d.clk, unacked := 0, waitT := none, retryNew := x.retryNew + 1 })
    let due := match x.retryT with | some t => decide (t + 1000000 ≤ d.clk) | none => true
    let d := d.when due (fun d =>
      (d.laneNotice l 0x0605 [(d.getLane l).retryNew]).lane l (fun x => { x with retryNew := 0, retryT := some d.clk }))
    d.put l f
  else match x.timOut with
    | p :: r =>
      let o := (d.lane l (fun x => { x with timOut := r })).timLeaves l p sub
      o.1.put l (mkFlit 25 0 o.2)
    | [] =>
      match x.again.bind (fun e => x.replay.findIdx? (fun r => r.1 == e)) with
      | some i =>
        let f := ((x.replay.map (fun r => r.2))[i]?).getD idle
        let next := ((x.replay.map (fun r => r.1))[i + 1]?)
        if !(d.mayTransmit (flitChan f)) then d.put l idle
        else (d.lane l (fun x => { x with again := next })).put l f
      | none =>
        let gs := d.grants k
        let waited := match x.waitT with | some t => decide (t + 200 ≤ d.clk) | none => false
        if (st == lnCREDIT && !(d.getBundle k).initGrant) || waited || decide (32 ≤ x.unacked) then d.sendLink l gs
        else
          let d := d.when (!gs.isEmpty && x.waitT.isNone) (fun d => d.lane l (fun x => { x with waitT := some d.clk }))
          let turn := (d.getBundle k).txTurn % d.width l == d.bundleLane l
          let pick := (d.chanOrder k).find? (fun c =>
            d.mayTransmit c && chanUsed (d.getBundle k).classes c && (match d.outWords k c with
              | some w => flitSize w.2.1.length (Sparse.get (fun _ => 0) (d.getBundle k).credit c) w.2.2.1 != 0
              | none => false))
          match pick.bind (fun c => (d.outWords k c).map (fun w => (c, w))) with
          | some (c, w) =>
            if st = lnACTIVE && turn && decide (x.replay.length < 512) then d.sendFlit l c w else d.put l idle
          | none => d.put l idle

/-! ### Timeouts, overrides and tests -/

/-- 100 ms after TRAIN the lane is not ACTIVE: TRAIN_FAIL with the state reached, and DISABLED where AUTO is 0 (R361). -/
def trainTimeout (d : Dev) (l : Nat) : Dev :=
  match (d.getLane l).trainT with
  | none => d
  | some t =>
    if t + 100000000 ≤ d.clk ∧ d.laneState l != lnACTIVE then
      let d := (d.laneNotice l 0x0603 [d.laneState l]).lane l (fun x => { x with trainT := none, failT := some d.clk })
      if d.laneAuto l then d else (d.setLaneState l lnDISABLED).lane l (fun x => { x with failT := none })
    else d

/-- 10 ms after TRAIN_FAIL a lane with AUTO = 1 returns to CDR (R361). -/
def trainRetry (d : Dev) (l : Nat) : Dev :=
  match (d.getLane l).failT with
  | none => d
  | some t => if t + 10000000 ≤ d.clk ∧ d.laneAuto l then d.trainAgain l else d

/-- Whether every lane of the quad of lane L is DISABLED (R342). -/
def quadOff (d : Dev) (l : Nat) : Bool := (List.range 4).all (fun i => d.laneState (l / 4 * 4 + i) == lnDISABLED)

/-- A write of EQTX (0), EQRX (1) or QCTL (2) of lane L (R342). KEEP may be written at any time. -/
def laneEqWrite (d : Dev) (l which v : Nat) : Dev :=
  if !(d.quadOff l) then
    if which = 2 then
      (d.wb (qctl l) 31 (v.testBit 31)).when (d.fb (qctl l) 0 != v.testBit 0) (fun d => d.wb (laneLoc Reg.LANE.STAT l) 1 true)
    else d.wb (laneLoc Reg.LANE.STAT l) 1 true
  else if which = 0 then d.wr (laneLoc Reg.LANE.EQTX l) (v &&& 0xB01F3F1F)
  else if which = 1 then d.wr (laneLoc Reg.LANE.EQRX l) (v &&& 0x8FFFFFC0)
  else (d.wb (qctl l) 31 (v.testBit 31)).wb (qctl l) 0 (v.testBit 0)

/-- Lane L leaves TEST once neither TEST nor LOOP is set: to CDR, or to DISABLED where AUTO is 0 (R361, R364). -/
def leaveTest (d : Dev) (l : Nat) : Dev :=
  let c := laneLoc Reg.LANE.CTL l
  let loop := d.fd c 29 28
  if d.laneState l = lnTEST ∧ !(d.fb c 27) ∧ (loop = 0 ∨ loop = 3) then
    let d := d.wb (laneLoc Reg.LANE.STAT l) 0 false
    if d.laneAuto l then d.trainAgain l else d.setLaneState l lnDISABLED
  else d

/-- Lane L enters TEST, taking its bundle down first (R366, R368); a lane of the bundle that is in TEST already stays there. -/
def enterTest (d : Dev) (l : Nat) : Dev :=
  if d.laneState l = lnTEST then d
  else
    let d := d.bundleDown l 8
    (d.setLaneState l lnTEST).lane l (fun x => { x with
      prbsGen := 0, prbsSeen := 0, prbsLen := 0, txBits := 0, txLen := 0, txFrame := none, tail := 0, trainT := none, failT := none })

/-- A write of CTL.TEST (R366). -/
def laneTest (d : Dev) (l : Nat) (on : Bool) : Dev :=
  let d := d.wb (laneLoc Reg.LANE.CTL l) 27 on
  if on then d.enterTest l else d.leaveTest l

/-- A write of CTL.LOOP (R368): 1 near end, 2 far end; 3 acts as 0. -/
def laneLoop (d : Dev) (l mode : Nat) : Dev :=
  let d := d.wf (laneLoc Reg.LANE.CTL l) 29 28 mode
  if mode % 4 = 1 ∨ mode % 4 = 2 then d.enterTest l else d.leaveTest l

/-- INJ.GO: one bit, or a burst of BURST bits, of those transmitted next is inverted in modes 1 and 2 (R367). -/
def injectGo (d : Dev) (l : Nat) : Dev :=
  let i := laneLoc Reg.LANE.INJ l
  let mode := d.fd i 31 30
  if mode = 1 then d.lane l (fun x => { x with inject := 1 })
  else if mode = 2 then d.lane l (fun x => { x with inject := max 1 (d.fd i 15 8) })
  else d

/-- ESCTL.START (R369): accepted from COMMA on, ignored while a scan runs. -/
def eyeStart (d : Dev) (l : Nat) : Dev :=
  let e := laneLoc Reg.LANE.ESCTL l
  if d.fb e 30 || decide (d.laneState l < lnCOMMA) then d else d.wb e 30 true

/-- The scan point completes with its count of disagreements (R369). -/
def eyeDone (d : Dev) (l count : Nat) : Dev :=
  let e := laneLoc Reg.LANE.ESCTL l
  if d.fb e 30 then ((d.wb e 30 false).wb e 29 true).wr64 Reg.LANE.ESERR 8 [l / 4, l % 4] count else d

/-- The PLL of quad q unlocks: the quad's bundles go down (R509), and a twin has a self-detected fault (R393). -/
def quadPllLost (d : Dev) (q : Nat) : Dev :=
  let d := (d.wb (Reg.LANE.QCTL.hubAt [q]) 1 false).selfDetected 0x21
  d.each (List.range 4) (fun i d =>
    let l := 4 * q + i
    if d.laneState l = lnDISABLED ∨ d.laneState l = lnTEST then d else d.bundleDown l 6)

/-- What the PRBS checker holds while it takes bits: its register, the bits it is seeded from, its error-free run, whether it has locked, and
the errors and bits counted. -/
structure Prbs where
  reg : Nat
  seen : Nat
  run : Nat
  lock : Bool
  errs : Nat
  checked : Nat
deriving DecidableEq, Repr

/-- One incoming bit at the checker (R366): the first bits seed it, each later one is compared; 64 without an error lock it. Before lock an error
seeds it anew. -/
def prbsBit (p : Nat × Nat) (c : Prbs) (b : Bool) : Prbs :=
  if c.seen < p.1 then { c with reg := prbsPush p c.reg b, seen := c.seen + 1 }
  else
    let e := prbsNext p c.reg
    let c := { c with checked := c.checked + 1 }
    if b == e then { c with reg := prbsPush p c.reg e, run := c.run + 1, lock := c.lock || decide (64 ≤ c.run + 1) }
    else if c.lock then { c with reg := prbsPush p c.reg e, run := 0, errs := c.errs + 1 }
    else { c with reg := b2n b, seen := 1, run := 0, errs := c.errs + 1 }

/-- The PRBS checker of lane L in TEST takes incoming bits (R366). -/
def prbsCheck (d : Dev) (l : Nat) (bs : List Bool) : Dev :=
  let c := laneLoc Reg.LANE.PRBSCTL l
  if d.laneState l = lnTEST ∧ d.fb c 30 then
    let x := d.getLane l
    let r := bs.foldl (prbsBit (prbsPoly (d.fd c 2 0))) ⟨x.prbsReg, x.prbsSeen, x.prbsLen, d.fb (laneLoc Reg.LANE.STAT l) 0, 0, 0⟩
    let d := (d.bump64 Reg.LANE.PRBSBITS 8 [l / 4, l % 4] r.checked).bump (laneLoc Reg.LANE.PRBSERR l) r.errs
    (d.lane l (fun x => { x with prbsReg := r.reg, prbsSeen := r.seen, prbsLen := r.run })).wb (laneLoc Reg.LANE.STAT l) 0 r.lock
  else d

/-- LINKQ.CRED as it reads (R358): the credit held outbound, or the words granted and not yet arrived. -/
def linkCred (d : Dev) (n q : Nat) : Nat :=
  let m := Reg.LINKQ.MAP.of n [q - 16]
  let b := d.getBundle (32 * n + d.fd m 12 8)
  let c := queueChan q (d.fd m 3 0)
  if !(d.fb m 31) then 0
  else min 4095 (Sparse.get (fun _ => 0) (if outQueues.contains q then b.credit else b.granted) c)

end Dev

end Sys2Proof.Machine
end

