-- ==== Sys2Proof/Machine/Calls.lean ====
section
/-! DEFINITION. The call scheduler (R248 to R266, R276, R547): posting, dispatch, aging, completion, returns. -/

namespace Sys2Proof.Machine

/-- Source cluster of an entry. -/
def CallEnt.cluster (e : CallEnt) : Nat := e.course / 64 % 16

/-- A limit of 2^v ns; 0 is off, 1 to 9 and 31 act as 10 (R259, R266). -/
def log2Limit (v : Nat) : Nat := if v = 0 then 0 else if 10 ≤ v ∧ v ≤ 30 then 2 ^ v else 2 ^ 10

/-- The call CSRs after a reset of their core: the prefetched entry stays (R262, R270). -/
def CallSlot.coreReset (s : CallSlot) : CallSlot := { CallSlot.empty with pref := s.pref }

/-- An entry put back into a list at its place in post order. -/
def insertEnt (e : CallEnt) : List CallEnt → List CallEnt
  | [] => [e]
  | x :: r => if e.seq < x.seq then e :: x :: r else x :: insertEnt e r

namespace Dev

/-- A part of call slot i. -/
def getSlot {α : Type} (d : Dev) (n i : Nat) (z : α) (f : CallSlot → α) : α :=
  d.getSec n z (fun s => f (vget s.calls.slots i CallSlot.empty))

def slot (d : Dev) (n i : Nat) (f : CallSlot → CallSlot) : Dev := d.calls n (fun c => { c with slots := vmod c.slots i f })

def ready (d : Dev) (n : Nat) : List CallEnt := d.getSec n [] (fun s => s.calls.ready)

/-- The CLASS register of a class. -/
def classLoc (n k : Nat) : Loc := Reg.CALL.CLASS.of n [k]

/-- Whether a class is blocking (R252). -/
def blocking (d : Dev) (n k : Nat) : Bool := d.fb (classLoc n k) 30

/-- Entries that are posted and not dispatched: those of the lists and of the prefetch slots (R250, R256). -/
def undispatched (d : Dev) (n : Nat) : List CallEnt :=
  d.ready n ++ (List.range 8).filterMap (fun i => d.getSlot n i none (fun s => s.pref))

/-- AVAIL of a cluster's pool (R250). -/
def credits (d : Dev) (n c : Nat) : Nat :=
  d.fd (Reg.CALL.CRPOOL.of n [c]) 7 0 - ((d.undispatched n).filter (fun e => e.cluster == c)).length

/-- A decision record of the scheduler (R266), where TRCTL enables its event. -/
def decision (d : Dev) (n event core : Nat) (e : CallEnt) (age reason : Nat) : Dev :=
  if !(d.fb (Reg.CALL.TRCTL.of n) event) then d
  else
    let w0 := 0xC * 2 ^ 28 + event * 2 ^ 24 + core * 2 ^ 21 + b2n e.urgent * 2 ^ 20 + e.level * 2 ^ 18 + e.cls * 2 ^ 10 +
      e.cluster * 2 ^ 4 + reason
    d.emit n 9 (w0 + min age (2 ^ 32 - 1) * 2 ^ 32 + d.time.ns % 2 ^ 32 * 2 ^ 64 +
      (d.time.wrap * 2 ^ 16 + d.time.ns / 2 ^ 32) * 2 ^ 96)

/-! ### Completion and returns -/

/-- The return packet of an entry (R260): its first word, then RLEN data words. -/
def returnWords (d : Dev) (n : Nat) (e : CallEnt) (status : Nat) (rets : List Nat) : List Nat :=
  (status * 256 + e.tag) :: (rets ++ List.replicate 16 0).take (d.fd (classLoc n e.cls) 27 24)

/-- A blocking entry's return waits for queue 62; a non-blocking class returns nothing, and RESTART discards (R260, R261, R264). -/
def addReturn (d : Dev) (n : Nat) (e : CallEnt) (words : List Nat) : Dev :=
  if d.blocking n e.cls && !(d.getSec n false (fun s => s.run.restarting)) then
    d.calls n (fun c => { c with rets := c.rets ++ [⟨e.seq, words⟩] })
  else d

/-- An entry whose mirrored return has arrived completes with it (R265, R398). -/
def mirrorTake (d : Dev) (n : Nat) (e : CallEnt) : Dev :=
  match d.getSec n none (fun s => s.calls.mirror.find? (fun m => m.1 == e.seq % 2 ^ 24)) with
  | some m => (d.calls n (fun c => { c with
      ready := c.ready.filter (fun x => x.seq != e.seq)
      mirror := c.mirror.filter (fun x => x.1 != m.1) })).addReturn n e m.2
  | none => d

/-- Completes what the secondary can complete (R265): non-blocking entries at once, blocking ones with their mirrored returns. -/
def mirrorSettle (d : Dev) (n : Nat) : Dev :=
  d.each (d.ready n) (fun e d =>
    if !(d.blocking n e.cls) then d.calls n (fun c => { c with ready := c.ready.filter (fun x => x.seq != e.seq) }) else d.mirrorTake n e)

/-! ### Posting -/

/-- Posts an entry at the end of a step (R248 to R250), or refuses it. In a secondary it completes with its mirrored return (R265); in one that has
become primary and catches up it still does where that return has arrived (R398). -/
def postCall (d : Dev) (n cycle course cls : Nat) (args : List Nat) (tag : Nat) : Dev :=
  let level := d.fd (classLoc n cls) 29 28
  let e : CallEnt := ⟨d.getSec n 0 (fun s => s.calls.nextSeq), cycle, course, cls, args, tag, level, d.clk, d.clk, false⟩
  let reason := if !(d.fb (classLoc n cls) 31) then 2 else if d.credits n e.cluster = 0 then 1 else 0
  if reason = 0 then
    let d := (d.calls n (fun c => { c with ready := c.ready ++ [e], nextSeq := c.nextSeq + 1 })).bump (Reg.CALL.POSTCNT.of n)
    if d.secondary then d.mirrorSettle n else d.mirrorTake n e
  else
    ((d.bump (Reg.CALL.REFCNT.of n)).decision n 3 0 e 0 reason).notice n 0x0111 [cls, e.cluster, reason]

/-! ### Prefetch and dispatch -/

/-- Whether a class may run on core i now (R255). -/
def eligible (d : Dev) (n i cls : Nat) : Bool :=
  d.fb (classLoc n cls) i && d.fb (Reg.CALL.CORECTL.of n) i && !(d.fb (Reg.CALL.CORESTAT.of n [i]) 28)

/-- The best eligible entry for core i (R255): the earliest urgent one, else the earliest of the highest level. -/
def bestFor (d : Dev) (n i : Nat) : Option CallEnt :=
  let es := (d.ready n).filter (fun e => d.eligible n i e.cls)
  match es.find? (fun e => e.urgent) with
  | some e => some e
  | none => [3, 2, 1, 0].findSome? (fun l => es.find? (fun e => e.level == l))

/-- Whether the scheduler dispatches now (R264, R265): from LOADED on, with no RESTART in progress, and not in a secondary. -/
def serving (d : Dev) (n : Nat) : Bool :=
  decide (stLOADED ≤ d.runState n) && !(d.getSec n false (fun s => s.run.restarting)) && !d.secondary

/-- Fills the empty prefetch slots of cores 0 to `core`, in ascending index (R256). -/
def prefetch (d : Dev) (n core : Nat) : Dev :=
  if !(d.serving n) then d
  else d.each (List.range (core + 1)) (fun i d =>
    if d.getSlot n i true (fun s => s.pref.isSome) then d
    else match d.bestFor n i with
      | some e => (d.calls n (fun c => { c with ready := c.ready.filter (fun x => x.seq != e.seq) })).slot n i
          (fun s => { s with pref := some e })
      | none => d)

/-- The prefetched entry of core i becomes its current call (R250, R257, R262, R270). -/
def dispatch (d : Dev) (n i : Nat) : Dev :=
  if !(d.serving n) || d.getSlot n i true (fun s => s.cur.isSome) then d
  else match d.getSlot n i none (fun s => s.pref) with
    | none => d
    | some e =>
      let age := d.clk - e.postT
      let d := d.slot n i (fun s => { s with
        pref := none, cur := some e, curT := d.clk, age := age, rets := List.replicate 16 0, stat := 0,
        limit := log2Limit (d.fd (Reg.CALL.WDOG.of n) 4 0) })
      (d.bump (Reg.CALL.DISPCNT.of n)).decision n 0 i e age 0

/-- Returns the prefetched entry of core i to its list (R258, R263). -/
def requeue (d : Dev) (n i reason : Nat) : Dev :=
  match d.getSlot n i none (fun s => s.pref) with
  | none => d
  | some e =>
    let d := (d.slot n i (fun s => { s with pref := none })).calls n (fun c => { c with ready := insertEnt e c.ready })
    d.decision n 4 i e (d.clk - e.postT) reason

/-! ### Aging -/

/-- The exchange of R258 for an entry of a list that has become urgent; after RESTART is accepted nothing enters a prefetch slot (R264). -/
def exchange (d : Dev) (n : Nat) (e : CallEnt) : Dev :=
  let cores := if d.serving n then (List.range 8).filter (fun i => d.eligible n i e.cls) else []
  let allHeld := cores.all (fun i => d.getSlot n i false (fun s => match s.pref with | some p => !p.urgent | none => false))
  match cores with
  | i :: _ =>
    if allHeld then
      ((d.requeue n i 3).calls n (fun c => { c with ready := c.ready.filter (fun x => x.seq != e.seq) })).slot n i
        (fun s => { s with pref := some e })
    else d
  | [] => d

/-- The entry after its age check, and the event: 1 promoted, 2 flagged urgent (R259). -/
def aged (d : Dev) (n : Nat) (e : CallEnt) : CallEnt × Nat :=
  let a := Reg.CALL.AGELIM.of n
  let lim := log2Limit (d.fd a (8 * e.level + 4) (8 * e.level))
  if lim = 0 ∨ d.clk - e.levelT ≤ lim ∨ e.urgent then (e, 0)
  else if e.level < 3 then ({ e with level := e.level + 1, levelT := d.clk }, 1)
  else ({ e with urgent := true }, 2)

/-- What an age event counts and emits. -/
def agedNote (d : Dev) (n : Nat) (e : CallEnt) (ev : Nat) : Dev :=
  let age := d.clk - e.postT
  if ev = 1 then (d.bump (Reg.CALL.PROMCNT.of n)).decision n 1 0 e age 0
  else if ev = 2 then
    ((d.bump (Reg.CALL.URGCNT.of n)).decision n 2 0 e age 0).notice n 0x0110 [e.cls, e.cluster, age]
  else d

/-- The age check of the waiting entry that stood as `e` when the check began, wherever it waits now (R259). -/
def ageOne (d : Dev) (n : Nat) (e : CallEnt) : Dev :=
  let r := d.aged n e
  if r.2 = 0 then d
  else
    let put := fun (x : CallEnt) => if x.seq = e.seq then r.1 else x
    let listed := (d.ready n).any (fun x => x.seq == e.seq)
    let d := (d.calls n (fun c => { c with
      ready := c.ready.map put, slots := c.slots.map (fun s => { s with pref := s.pref.map put }) })).agedNote n r.1 r.2
    if r.2 = 2 && listed then d.exchange n r.1 else d

/-- The age check of every waiting entry, once each, in post order, time in a prefetch slot included (R259). -/
def ageCheck (d : Dev) (n : Nat) : Dev :=
  if d.runState n < stLOADED then d
  else d.each ((d.undispatched n).foldl (fun l e => insertEnt e l) []) (fun e d => d.ageOne n e)

/-! ### Completion -/

/-- hvcdone: the current call of core i completes with its handler's words; ignored when no call is current (R262, R270). -/
def hvcDone (d : Dev) (n i : Nat) : Dev :=
  match d.getSlot n i none (fun s => s.cur) with
  | none => d
  | some e =>
    let ws := d.getSlot n i [] (fun s => s.rets.map BitVec.toNat)
    let st := d.getSlot n i 0 (fun s => s.stat)
    (d.slot n i (fun s => { s with cur := none })).addReturn n e (d.returnWords n e st ws)

/-- A reset of call core i: it restarts at its vector with its TCM kept (R262, R267, R465). -/
def resetCallCore (d : Dev) (n i : Nat) : Dev :=
  (d.sec n (fun s => { s with cores := vmod s.cores i (fun c => { Core.start 0 with mem := c.mem }) })).traceCoreReset n i

/-- The watchdog of core i, when the call has been current for longer than its limit (R262, R547). -/
def watchdog (d : Dev) (n i : Nat) : Dev :=
  match d.getSlot n i none (fun s => s.cur) with
  | none => d
  | some e =>
    let lim := d.getSlot n i 0 (fun s => s.limit)
    let t := d.getSlot n i 0 (fun s => s.curT)
    if lim = 0 ∨ d.clk - t ≤ lim then d
    else
      let d := (d.resetCallCore n i).slot n i CallSlot.coreReset
      let d := d.addReturn n e (d.returnWords n e 2 [])
      ((d.decision n 5 i e (d.clk - e.postT) 0).bump (Reg.CALL.ABORTCNT.of n)).notice n 0x0112 [e.cls, e.cluster]

/-- Whether a blocking call earlier in post order has not completed (R261). -/
def earlierOpen (d : Dev) (n seq : Nat) : Bool :=
  let open_ := d.undispatched n ++ (List.range 8).filterMap (fun i => d.getSlot n i none (fun s => s.cur))
  open_.any (fun e => decide (e.seq < seq) && d.blocking n e.cls)

/-- The earliest complete return enters queue 62 as a whole, behind every earlier blocking call; a paired primary hands the mirror its copy
first (R261, R385, R402). -/
def returnEnqueue (d : Dev) (n : Nat) : Dev :=
  match minBy (fun (r : CallRet) => r.seq) (d.getSec n [] (fun s => s.calls.rets)) with
  | none => d
  | some r =>
    if d.earlierOpen n r.seq || decide (d.getQ n 62 0 Queue.free < r.words.length) ||
        (d.pairedPrimary && decide (d.mirrorRoom 2 < r.words.length + 3)) then d
    else
      let d := d.when d.pairedPrimary (fun d => d.sendMir 2 ([n] ++ words12 2 (r.seq % 2 ^ 24) ++ r.words))
      let d := d.calls n (fun c => { c with rets := c.rets.filter (fun x => x.seq != r.seq) })
      d.queuePacket n 62 r.words ⟨some (crcEnd (r.words.foldl crcWord crcStart)), false, false⟩

/-! ### Registers -/

/-- CORECTL.EN: cores newly disabled give up their prefetched entries (R263). -/
def corectlWrite (d : Dev) (n v : Nat) : Dev :=
  let l := Reg.CALL.CORECTL.of n
  let old := d.rd l
  let d := d.wr l (v % 256)
  d.each (List.range 8) (fun i d => if old.testBit i && !(v.testBit i) then d.requeue n i 4 else d)

/-- Whether run control bars writes of tables and maps: RUNNING, HOLDING included, or PAUSED (R208, R253). -/
def barred (d : Dev) (n : Nat) : Bool := d.runState n == stRUNNING || d.runState n == stPAUSED

/-- A CRPOOL write (R251, R253). -/
def crpoolWrite (d : Dev) (n c v : Nat) : Dev :=
  let pool := fun x => if x = c then v % 256 else d.fd (Reg.CALL.CRPOOL.of n [x]) 7 0
  let out := fun x => ((d.undispatched n).filter (fun e => e.cluster == x)).length
  let sum := (List.range 16).foldl (fun a x => a + max (pool x) (out x)) 0
  if d.barred n || decide (256 < sum) then d.wb (Reg.CALL.STAT.of n) 0 true
  else d.wr (Reg.CALL.CRPOOL.of n [c]) (v % 256)

/-- Discards every entry and return; `hold` holds every call core in reset (R264). -/
def clearCalls (d : Dev) (n : Nat) (hold : Bool) : Dev :=
  let d := d.calls n (fun c => { CallUnit.start with
    slots := c.slots.map (fun s => if hold then CallSlot.empty else { s with pref := none }) })
  if hold then d.each (List.range 8) (fun i d => (d.resetCallCore n i).wb (Reg.CALL.CORESTAT.of n [i]) 28 true) else d

/-- COMMIT releases the cores that an enabled class may use, enables them, and starts post order at 0 (R264, R402). -/
def releaseCores (d : Dev) (n : Nat) : Dev :=
  let m := (List.range 64).foldl (fun a k =>
    if d.fb (classLoc n k) 31 then a ||| d.fd (classLoc n k) 7 0 else a) 0
  let d := (d.wr (Reg.CALL.CORECTL.of n) m).calls n (fun c => { c with nextSeq := 0 })
  d.each (onesOf 8 m) (fun i d => d.wb (Reg.CALL.CORESTAT.of n [i]) 28 false)

/-- Registers of the CALL block that show the scheduler: OCC, RORD, AVAIL and CORESTAT (R250, R266). -/
def callOcc (d : Dev) (n l : Nat) : Nat :=
  let es := (d.ready n).filter (fun e => e.level == l)
  (if l = 3 then (es.filter (fun e => e.urgent)).length * 2 ^ 16 else 0) + es.length

def callRord (d : Dev) (n : Nat) : Nat := d.getSec n 0 (fun s => s.calls.rets.length)

def callPool (d : Dev) (n c : Nat) : Nat := d.credits n c * 2 ^ 16 + d.fd (Reg.CALL.CRPOOL.of n [c]) 7 0

def coreStat (d : Dev) (n i : Nat) : Nat :=
  d.getSlot n i 0 (fun s =>
    b2n s.cur.isSome * 2 ^ 31 + b2n s.pref.isSome * 2 ^ 30 +
      b2n (s.cur.isSome && !(d.fb (Reg.CALL.CORECTL.of n) i)) * 2 ^ 29 + d.fd (Reg.CALL.CORESTAT.of n [i]) 28 28 * 2 ^ 28 +
      (match s.cur with | some e => e.cls * 2 ^ 16 | none => 0))

end Dev

end Sys2Proof.Machine
end

