-- ==== Sys2Proof/Machine/Isa.lean ====
section
/-! DEFINITION. The Boolean processor's instruction set (R34 to R68): instruction fields, store words, operand reads, and what
each BP's instruction does in a step. Everything here reads the device as it stands before any write of the step (R35). -/

namespace Sys2Proof.Machine

/-! ### Tables that are undefined after OFF -/

/-- What a table entry reads as (R72, R113, R148): the entry written, zero in rows the loader has filled, undefined otherwise. -/
def Table.get {w : Nat} (t : Table w) (undef : Nat → BitVec w) (cl row key : Nat) : BitVec w :=
  match Sparse.find key t.ent with
  | some v => v
  | none => if row < Sparse.get (fun _ => 0) t.filled cl then 0 else undef key

/-- A write of one entry. -/
def Table.set {w : Nat} (t : Table w) (key : Nat) (v : BitVec w) : Table w := { t with ent := Sparse.put key v t.ent }

/-- The loader's fill: every entry of rows 0 to P − 1 of a cluster is zero. -/
def Table.fill {w : Nat} (t : Table w) (clOf rowOf : Nat → Nat) (cl p : Nat) : Table w :=
  { t with
    ent := Sparse.keep (fun k => !(clOf k == cl && decide (rowOf k < p))) t.ent
    filled := Sparse.put cl (max p (Sparse.get (fun _ => 0) t.filled cl)) t.filled }

/-- Key of an instruction: cluster, course, BP, address (R69). -/
def codeKey (cl crs bp a : Nat) : Nat := ((cl * 64 + crs) * 12 + bp) * 512 + a
def codeCl (k : Nat) : Nat := k / (64 * 12 * 512)
def codeRow (k : Nat) : Nat := k % 512

/-- Keys of slot and wait entries (R108, R110, R148). -/
def cslotKey (cl s x p : Nat) : Nat := cl * 65536 + (64 * s + x) * 2 + p
def cslotRow (k : Nat) : Nat := k % 65536 / 128
def gslotKey (cl s e : Nat) : Nat := cl * 8192 + 16 * s + e
def gslotRow (k : Nat) : Nat := k % 8192 / 16
def waitKey (cl f e : Nat) : Nat := cl * 256 + 8 * f + e
def waitRow (k : Nat) : Nat := k % 256 / 8

/-! ### Data-store words (R76, R77) -/

/-- A stored word: V [15], G [14], PAR [13:12], DATA [11:0]. -/
def mkWord (data g v : Nat) : BitVec 16 :=
  let d := data % 4096
  let p0 := b2n (oddOnes 6 d != (g % 2 == 1))
  let p1 := b2n (oddOnes 6 (d / 64) != (v % 2 == 1))
  BitVec.ofNat 16 (v % 2 * 2 ^ 15 + g % 2 * 2 ^ 14 + p1 * 2 ^ 13 + p0 * 2 ^ 12 + d)

def wordData (w : BitVec 16) : Nat := w.toNat % 4096
def wordG (w : BitVec 16) : Nat := bits w.toNat 14 14
def wordV (w : BitVec 16) : Nat := bits w.toNat 15 15

/-- The parity check of a read (R76). -/
def wordBad (w : BitVec 16) : Bool :=
  (oddOnes 6 w.toNat != ((bits w.toNat 14 14 + bits w.toNat 12 12) % 2 == 1)) ||
  (oddOnes 6 (w.toNat / 64) != ((bits w.toNat 15 15 + bits w.toNat 13 13) % 2 == 1))

/-- Key of a data-store word. -/
def storeKey (cl crs w : Nat) : Nat := cl * 65536 + crs * 1024 + w

namespace Dev

/-- A word of a data store; 0 after a section reset (R77). -/
def word (d : Dev) (n cl crs w : Nat) : BitVec 16 :=
  d.getSec n 0 (fun s => Sparse.get (fun _ => 0) s.fab.store (storeKey cl crs w))

/-- A write of a data-store word. -/
def setWord (d : Dev) (n cl crs w : Nat) (v : BitVec 16) : Dev :=
  d.fab n (fun f => { f with store := Sparse.set (fun _ => 0) f.store (storeKey cl crs w) v })

/-- The instruction at an address of a BP. -/
def code (d : Dev) (n cl crs bp a : Nat) : Nat :=
  d.getSec n 0 (fun s => (s.fab.code.get (Config.undefCode n s.fab.code.epoch) cl a (codeKey cl crs bp a)).toNat)

/-- Entries of the slot and wait tables. -/
def cslot (d : Dev) (n cl s x p : Nat) : Nat :=
  d.getSec n 0 (fun t => (t.fab.cslot.get (Config.undefCslot n t.fab.cslot.epoch) cl s (cslotKey cl s x p)).toNat)
def gslot (d : Dev) (n cl s e : Nat) : Nat :=
  d.getSec n 0 (fun t => (t.fab.gslot.get (Config.undefGslot n t.fab.gslot.epoch) cl s (gslotKey cl s e)).toNat)
def waitEnt (d : Dev) (n cl f e : Nat) : Nat :=
  d.getSec n 0 (fun t => (t.fab.wait.get (Config.undefWait n t.fab.wait.epoch) cl f (waitKey cl f e)).toNat)

end Dev

/-! ### Instruction fields (R39) -/

def iOP (i : Nat) : Nat := bits i 94 90
def iSTG (i : Nat) : Nat := bits i 89 89
def iPRI (i k : Nat) : Nat := bits i (84 + k) (84 + k)
def iPORT (i : Nat) : Nat := bits i 83 78
def iTT (i : Nat) : Nat := bits i 71 56
/-- Operand k: 0 for A to 3 for D. -/
def iOPD (i k : Nat) : Nat := bits i (55 - 14 * k) (42 - 14 * k)

/-- Opcodes of R46. -/
abbrev opNOP : Nat := 0
abbrev opLUT4 : Nat := 1
abbrev opLUT4E : Nat := 2
abbrev opMUXG : Nat := 3
abbrev opMUXR : Nat := 4
abbrev opMRD : Nat := 8
abbrev opMWR : Nat := 9
abbrev opQRD : Nat := 10
abbrev opQWR : Nat := 11
abbrev opCALL : Nat := 12
abbrev opDIGEST : Nat := 13

/-- Word ops (R46). -/
def isWordOp (op : Nat) : Bool := decide (8 ≤ op ∧ op ≤ 13)

/-- The even parity of all 96 bits holds (R40). -/
def iparOk (i : Nat) : Bool := !(oddOnes 96 i)

/-- The limit of R58 that an op counts toward: memory 1, call 2, queue 4 + q; 0 for none. -/
def limitOf (i : Nat) : Nat :=
  let op := iOP i
  if op = opMRD ∨ op = opMWR then 1
  else if op = opCALL then 2
  else if op = opQRD ∨ op = opQWR then 4 + iPORT i else 0

/-- What a word op does once its instruction has no fault (R59). -/
inductive OpEff where
  | none
  | qrd (q dst cnt : Nat)
  | qwr (q : Nat) (words : List Nat) (eop : Bool)
  | mrd (port w dst cnt : Nat) (home : Bool)
  | mwr (port w : Nat) (words : List Nat) (home : Bool)
  | call (cls : Nat) (args : List Nat) (tag : Nat)
  | digest (words : List Nat)
deriving DecidableEq, Repr

/-- The outcome of one BP in one step: its result bit, its fault with its OPND code, and its word op. -/
structure BpOut where
  bit : Bool
  fault : Option (Nat × Nat)
  eff : OpEff
deriving DecidableEq, Repr

def BpOut.clean (b : Bool) : BpOut := ⟨b, Option.none, .none⟩
def BpOut.bad (code opnd : Nat) : BpOut := ⟨false, some (code, opnd), .none⟩

/-- The place of a step: section, cluster, course, step, period count, period P. -/
structure At where
  n : Nat
  cl : Nat
  crs : Nat
  k : Nat
  j : Nat
  p : Nat
deriving DecidableEq, Repr

namespace Dev

/-- The twelve instructions of a course at step k. -/
def insns (d : Dev) (a : At) : List Nat := (List.range 12).map (fun bp => d.code a.n a.cl a.crs bp a.k)

/-- A checked read of one word for design cycle `c` (R45): the data, or the fault. -/
def readWord (d : Dev) (a : At) (w gen : Nat) : Nat ⊕ Nat :=
  let v := d.word a.n a.cl a.crs w
  if wordBad v then .inr fPARITY
  else if wordV v = 0 then .inr fUNINIT_READ
  else if wordG v != gen % 2 then .inr fGEN_MISMATCH
  else .inl (wordData v)

end Dev

/-- The stage of a course's step (R37). -/
def stageOf (is : List Nat) : Nat := match is.find? (fun i => iOP i != opNOP) with | some i => iSTG i | none => 0

/-- The cycle an instruction works for: n = j − STG (R38), as a 64-bit number. -/
def cycleOf (a : At) (i : Nat) : Nat := (2 ^ 64 + a.j - iSTG i) % 2 ^ 64

/-- The generation operand k of an instruction expects (R45). -/
def genOf (a : At) (i k : Nat) : Nat := (cycleOf a i + iPRI i k) % 2

/-- Whether gang g of a course is complete: MUXG at its members, MUXR at its result position, one STG (R50, R53). -/
def gangOk (is : List Nat) (g : Nat) : Bool :=
  let at_ := fun b => is.getD b 0
  (List.range 4).all (fun m => iOP (at_ (6 * g + m)) == opMUXG && iSTG (at_ (6 * g + m)) == iSTG (at_ (6 * g))) &&
  iOP (at_ (6 * g + 4)) == opMUXR && iSTG (at_ (6 * g + 4)) == iSTG (at_ (6 * g))

/-- The opcode and reserved-field class of checks (R37, R41, R46, R53, R54, R68), all on the fields as stored. `ovl` says that the
per-step limit of R58 is spent. -/
def opBad (is : List Nat) (bp : Nat) (ovl : Bool) : Bool :=
  let i := is.getD bp 0
  let op := iOP i
  bits i 88 88 != 0 || bits i 77 72 != 0 ||
  !(decide (op ≤ 4) || isWordOp op) ||
  (op != opNOP && iSTG i != stageOf is) ||
  (op == opMUXG && !(decide (bp % 6 < 4) && gangOk is (bp / 6))) ||
  (op == opMUXR && !(decide (bp % 6 = 4) && gangOk is (bp / 6))) ||
  (isWordOp op && bp != 0) || (isWordOp op && ovl)

/-- The encoding check of a bit operand (R42 to R44). -/
def bitOperandBad (p i k : Nat) : Bool :=
  let o := iOPD i k
  let f := o % 16
  let w := o / 16
  if f ≤ 11 then decide (p ≤ w ∧ w < 512)
  else if f ≤ 13 then w != 0 || iPRI i k != 0 else true

/-- The first bit operand whose encoding is bad, with its OPND code. -/
def badOperand (p i : Nat) : Option Nat :=
  ((List.range 4).find? (fun k => bitOperandBad p i k)).map (· + 1)

namespace Dev

/-- The value of bit operand k, or its fault (R42, R45). -/
def readBit (d : Dev) (a : At) (i k : Nat) : Bool ⊕ Nat :=
  let o := iOPD i k
  let f := o % 16
  if 12 ≤ f then .inl (f == 13)
  else match d.readWord a (o / 16) (genOf a i k) with
    | .inl v => .inl (v.testBit f)
    | .inr c => .inr c

/-- The values of the four bit operands, or the first fault with its OPND code (R45). -/
def readBits (d : Dev) (a : At) (i : Nat) : List Bool ⊕ (Nat × Nat) :=
  let rs := (List.range 4).map (fun k => (k, d.readBit a i k))
  match rs.find? (fun r => r.2.isRight) with
  | some (k, .inr c) => .inr (c, k + 1)
  | _ => .inl (rs.map (fun r => match r.2 with | .inl b => b | .inr _ => false))

/-- The index 8·D + 4·C + 2·B + A. -/
def lutIndex (vs : List Bool) : Nat :=
  b2n (vs.getD 0 false) + 2 * b2n (vs.getD 1 false) + 4 * b2n (vs.getD 2 false) + 8 * b2n (vs.getD 3 false)

/-- LUT4 and MUXG (R48, R51) after the opcode checks: the four operand values too, for the gang's MUXR. DESIGN CHOICE (log 66): of several encoding
failures of one instruction, OPND names the first bad operand of A to D, and is 0 where only PORT or TT is bad. -/
def lut4 (d : Dev) (a : At) (i : Nat) : (BpOut × List Bool) :=
  match badOperand a.p i with
  | some k => (.bad fILLEGAL_OPERAND k, [])
  | none =>
    if iPORT i != 0 then (.bad fILLEGAL_OPERAND 0, [])
    else match d.readBits a i with
      | .inl vs => (.clean ((iTT i).testBit (lutIndex vs)), vs)
      | .inr (c, k) => (.bad c k, [])

/-- LUT4E (R49). Encoding failures in the order of log 66. -/
def lut4e (d : Dev) (a : At) (i bp : Nat) : BpOut :=
  match badOperand a.p i with
  | some k => .bad fILLEGAL_OPERAND k
  | none =>
    if iPORT i != 0 || bits (iTT i) 15 8 != 0 then .bad fILLEGAL_OPERAND 0
    else match d.readBits a i with
      | .inr (c, k) => .bad c k
      | .inl vs =>
        if vs.getD 3 false then .clean ((iTT i).testBit (lutIndex (vs.take 3)))
        else match d.readWord a a.k (cycleOf a i + 1) with
          | .inl v => .clean (v.testBit bp)
          | .inr c => .bad c 5

/-- The fault and operand values of a gang member (R52): any fault of its own stops the selection. -/
def member (d : Dev) (a : At) (is : List Nat) (bp : Nat) : BpOut × List Bool :=
  let i := is.getD bp 0
  if !(iparOk i) then (.bad fPARITY 0, [])
  else if opBad is bp false then (.bad fILLEGAL_OP 0, [])
  else d.lut4 a i

/-- MUXR (R52): the operand of its gang that its select names. Encoding failures in the order of log 66. -/
def muxr (d : Dev) (a : At) (is : List Nat) (bp : Nat) : BpOut :=
  let i := is.getD bp 0
  match badOperand a.p i with
  | some k => .bad fILLEGAL_OPERAND k
  | none =>
    if iPORT i != 0 || iTT i != 0 then .bad fILLEGAL_OPERAND 0
    else match d.readBits a i with
      | .inr (c, k) => .bad c k
      | .inl vs =>
        let ms := (List.range 4).map (fun m => d.member a is (bp - 4 + m))
        let s := lutIndex vs
        if ms.any (fun m => m.1.fault.isSome) then .clean false
        else .clean (((ms.getD (s / 4) (.clean false, [])).2).getD (s % 4) false)

/-- NOP (R47) after the parity and reserved-field checks. DESIGN CHOICE (log 66): OPND is 0 whichever field is nonzero, an operand's too. -/
def nop (i : Nat) : BpOut :=
  if iSTG i != 0 || bits i 87 78 != 0 || bits i 71 0 != 0 then .bad fILLEGAL_OPERAND 0 else .clean false

/-! ### Word ops -/

/-- The number of words a word op moves. -/
def opCount (i : Nat) : Nat := iTT i % 4 + 1

/-- Use of the operands of a word op (R55): for A to D, 0 unused, 1 address only, 2 one word read, 3 COUNT + 1 words read. -/
def operandUse (op : Nat) : List Nat :=
  if op = opQRD then [1, 0, 0, 0]
  else if op = opQWR then [3, 0, 0, 0]
  else if op = opMRD then [2, 2, 1, 0]
  else if op = opMWR then [2, 2, 3, 0]
  else if op = opCALL then [2, 2, 2, 2] else [3, 0, 0, 0]

/-- TT bits a word op uses (R55). -/
def ttUse (op : Nat) : Nat :=
  if op = opQWR then 0b10011 else if op = opMRD ∨ op = opMWR then 0b100011 else if op = opCALL then 0b1111 else 0b11

/-- Legal PORT values (R56). -/
def portOk (op port : Nat) : Bool :=
  if op = opQRD then decide ((8 ≤ port ∧ port ≤ 15) ∨ (32 ≤ port ∧ port ≤ 47) ∨ 56 ≤ port)
  else if op = opQWR then decide (port ≤ 7 ∨ (16 ≤ port ∧ port ≤ 31) ∨ (48 ≤ port ∧ port ≤ 55))
  else if op = opMRD ∨ op = opMWR then decide (port ≤ 7)
  else if op = opCALL then true else port == 0

/-- Whether `m` source words from `w` on leave their area (R44, R57). -/
def srcRangeBad (p w m : Nat) : Bool :=
  if w < 512 then decide (p < w + m) else decide (1024 < w + m)

/-- The encoding check of operand k of a word op. -/
def wordOperandBad (p i k : Nat) : Bool :=
  let o := iOPD i k
  let w := o / 16
  match (operandUse (iOP i)).getD k 0 with
  | 0 => o != 0 || iPRI i k != 0
  | 1 => iPRI i k != 0 || decide (w < 512) || decide (1024 < w + opCount i)
  | 2 => srcRangeBad p w 1
  | _ => srcRangeBad p w (opCount i)

/-- The words operand k reads, or the first fault (R45, R55). -/
def readWords (d : Dev) (a : At) (i k m : Nat) : List Nat ⊕ Nat :=
  let w := iOPD i k / 16
  (List.range m).foldl (fun acc x =>
    match acc with
    | .inr c => .inr c
    | .inl l => match d.readWord a (w + x) (genOf a i k) with
      | .inl v => .inl (l ++ [v])
      | .inr c => .inr c) (.inl [])

/-- The words of every operand that a word op reads, in the order A to D, or the first fault with its OPND code. -/
def readAll (d : Dev) (a : At) (i : Nat) : List (List Nat) ⊕ (Nat × Nat) :=
  (List.range 4).foldl (fun acc k =>
    match acc with
    | .inr c => .inr c
    | .inl l =>
      let use := (operandUse (iOP i)).getD k 0
      let m := if use = 2 then 1 else if use = 3 then opCount i else 0
      match d.readWords a i k m with
      | .inl v => .inl (l ++ [v])
      | .inr c => .inr (c, k + 1)) (.inl [])

/-- A word op after the opcode checks (R54 to R65): encodings, in the order of log 66, reads, and what it then does. -/
def wordOp (d : Dev) (a : At) (i : Nat) : BpOut :=
  let op := iOP i
  match (List.range 4).find? (fun k => wordOperandBad a.p i k) with
  | some k => .bad fILLEGAL_OPERAND (k + 1)
  | none =>
    if !(portOk op (iPORT i)) || iTT i &&& (0xFFFF - ttUse op) != 0 then .bad fILLEGAL_OPERAND 0
    else match d.readAll a i with
      | .inr (c, k) => .bad c k
      | .inl ws =>
        let one := fun k => (ws.getD k []).getD 0 0
        let addr := one 1 * 4096 + one 0
        let home := (iTT i).testBit 5
        let eff : OpEff :=
          if op = opQRD then .qrd (iPORT i) (iOPD i 0 / 16) (opCount i)
          else if op = opQWR then .qwr (iPORT i) (ws.getD 0 []) ((iTT i).testBit 4)
          else if op = opMRD then .mrd (iPORT i) addr (iOPD i 2 / 16) (opCount i) home
          else if op = opMWR then .mwr (iPORT i) addr (ws.getD 2 []) home
          else if op = opCALL then .call (iPORT i) [one 0, one 1, one 2, one 3] (iTT i % 16)
          else .digest (ws.getD 0 [])
        ⟨false, none, eff⟩

/-- Whether the limit of R58 that BP0's op counts toward is held by an op of a lower course: of the cluster for memory and calls, of the
section for a queue. Courses whose stage is suppressed issue nothing and are passed over. -/
def limitSpent (d : Dev) (a : At) (suppressed : Nat → Bool) : Bool :=
  let l := limitOf (d.code a.n a.cl a.crs 0 a.k)
  if l = 0 then false
  else
    let counts := fun cl crs =>
      limitOf (d.code a.n cl crs 0 a.k) == l && !(suppressed (stageOf (d.insns { a with cl := cl, crs := crs })))
    let here := (List.range a.crs).any (fun c => counts a.cl c)
    if l < 4 then here
    else here || ((d.usedClusters a.n).filter (fun c => decide (c < a.cl))).any (fun cl => (List.range 64).any (fun c => counts cl c))

/-- What BP `bp` of a course does in a step whose stage runs (R36 to R68). -/
def bpOut (d : Dev) (a : At) (bp : Nat) (suppressed : Nat → Bool) : BpOut :=
  let is := d.insns a
  let i := is.getD bp 0
  let op := iOP i
  if !(iparOk i) then .bad fPARITY 0
  else if opBad is bp (bp == 0 && d.limitSpent a suppressed) then .bad fILLEGAL_OP 0
  else if op = opNOP then nop i
  else if op = opLUT4 ∨ op = opMUXG then (d.lut4 a i).1
  else if op = opLUT4E then d.lut4e a i bp
  else if op = opMUXR then d.muxr a is bp
  else d.wordOp a i

end Dev

end Sys2Proof.Machine
end

