-- ==== Sys2Proof/Machine/Capture.lean ====
section
/-! DEFINITION. The capture engine (R277 to R310): taps and rows, acquisitions, the sequencer, records, the write path,
activity. -/

namespace Sys2Proof.Machine

/-- Unit i of a row. -/
def unitOf (u : Sparse Nat) (i : Nat) : Nat := Sparse.get (fun _ => 0) u i

/-- Whether a row holds a parity error (R280). -/
def rowBad (u : Sparse Nat) : Bool := u.any (fun e => e.2.testBit 15)

namespace Dev

def getCap {α : Type} (d : Dev) (n : Nat) (z : α) (f : CapSt → α) : α := d.getSec n z (fun s => f s.cap)

def capStat (n : Nat) : Loc := Reg.CAPT.STAT.of n
def capActive (d : Dev) (n : Nat) : Bool := d.fb (capStat n) 5
def capArmed (d : Dev) (n : Nat) : Bool := d.fb (capStat n) 6
def nProbe (d : Dev) (n : Nat) : Nat := d.fd (Reg.CAPT.CFG.of n) 9 0
def capPre (d : Dev) (n : Nat) : Nat := d.rd (Reg.CAPT.PRE.of n)
def capPost (d : Dev) (n : Nat) : Nat := d.rd (Reg.CAPT.POST.of n)
def capNseg (d : Dev) (n : Nat) : Nat := d.rd (Reg.CAPT.NSEG.of n)

/-- The row stride RS (R282). -/
def rowStride (d : Dev) (n : Nat) : Nat := 64 * ((d.nProbe n + 31) / 32)

/-! ### Taps and rows -/

/-- Something broke the run of rows in wall-clock time: a held fret, a pause or a stop (R291). -/
def capBreak (d : Dev) (n : Nat) : Dev := d.cap n (fun c => { c with breaks := c.breaks + 1 })

/-- Step 0 of period j starts (R281). An epilogue runs no head, so the stamp of its number is that of the prologue that follows it (R89, R279). -/
def capPeriod (d : Dev) (n j ph : Nat) (epi miss : Bool) : Dev :=
  let t := d.stampAt ph
  d.cap n (fun c => { c with
    stamps := if epi then c.stamps else c.stamps.drop (c.stamps.length - 1) ++ [⟨j, t, c.breaks⟩]
    missNow := miss
    rows := c.rows.filter (fun r => decide (j ≤ r.cycle + 1)) })

/-- A unit of the row of a cycle (R277, R280); the row is complete when every tap for it has been taken (R279). -/
def capUnit (d : Dev) (n cycle i u : Nat) : Dev :=
  let np := d.nProbe n
  d.cap n (fun c =>
    let st := (c.stamps.find? (fun s => s.period == cycle)).getD ⟨cycle, ⟨0, 0, 0⟩, c.breaks⟩
    let row := (c.rows.find? (fun r => r.cycle == cycle)).getD ⟨cycle, [], st.stamp, st.breaks, false⟩
    let row := { row with units := Sparse.put i u row.units, paceMiss := row.paceMiss || c.missNow }
    let rest := c.rows.filter (fun r => r.cycle != cycle)
    if (List.range np).all (fun k => (Sparse.find k row.units).isSome) then { c with rows := rest, ready := c.ready ++ [row] }
    else { c with rows := rest ++ [row] })

/-- The taps of step k of period j, before its writes (R277 to R280). -/
def capTaps (d : Dev) (n k j : Nat) (suppressed : Nat → Bool) : Dev :=
  d.each (List.range (min 512 (d.nProbe n))) (fun i d =>
    let p := d.rd (Reg.CAPT.PROBE.of n [i])
    let stg := bits p 30 30
    if bits p 8 0 != k || suppressed stg then d
    else
      let w := d.word n (bits p 29 26) (bits p 25 20) (bits p 19 10)
      d.capUnit n (j - stg) i (b2n (wordBad w) * 2 ^ 15 + wordV w * 2 ^ 14 + wordG w * 2 ^ 13 + wordData w))

/-- Whether a tap of cluster c falls in step k (R278, R279). -/
def tapAt (d : Dev) (n c k : Nat) (suppressed : Nat → Bool) : Bool :=
  (List.range (min 512 (d.nProbe n))).any (fun i =>
    let p := d.rd (Reg.CAPT.PROBE.of n [i])
    bits p 8 0 == k && bits p 29 26 == c && !(suppressed (bits p 30 30)))

/-! ### The write path -/

/-- Bytes in the row buffer (R289). -/
def capUsed (d : Dev) (n : Nat) : Nat :=
  d.getCap n 0 (fun c => c.queue.foldl (fun a i => if i.kind == .header then a else a + i.bytes.length) 0)

def capRoom (d : Dev) (n k : Nat) : Bool := decide (d.capUsed n + k ≤ 65536)

def capQueue (d : Dev) (n : Nat) (i : CapItem) : Dev := d.cap n (fun c => { c with queue := c.queue ++ [i] })

/-- A dropped row or block (R289, R301): CAPT_OVERFLOW at the first drop of an acquisition and then at most once per millisecond. -/
def capDrop (d : Dev) (n : Nat) : Dev :=
  let d := (d.bump (Reg.CAPT.DROPCNT.of n)).wb (capStat n) 2 true
  let due := d.getCap n false (fun c => match c.ovfT with | some t => decide (t + 1000000 ≤ d.clk) | none => true)
  if due then
    (d.notice n 0x0403 [d.getCap n 0 (fun c => c.ovfNew) + 1]).cap n (fun c => { c with ovfNew := 0, ovfT := some d.clk })
  else d.cap n (fun c => { c with ovfNew := c.ovfNew + 1 })

/-- The lines of an item, as written (R282, R195): master 16, each line with its tally. The first refused line stops it. -/
def capLines (d : Dev) (n : Nat) : List (List Nat × Nat) → Nat → Dev × Option Nat
  | [], _ => (d, none)
  | (bs, i) :: r, a =>
    let x := d.nocWrite n 16 (a + 64 * i) bs (some ⟨some (BitVec.ofNat 32 (crc32c bs)), false⟩) []
    match x.2 with
    | .ok => capLines x.1 n r a
    | _ => (x.1, some (a / 64 + i))

/-- Whether a line of an item has to wait for its bank (R196, log 81). -/
def itemWaits (d : Dev) (n : Nat) (i : CapItem) : Bool :=
  (List.range (i.bytes.length / 64)).any (fun k => d.svcWaits n 16 (i.addr + 64 * k) 1 true)

/-- The front item of the write path is written; the refused line if there is one. None where nothing waits or the item waits for a bank. -/
def capFront (d : Dev) (n : Nat) : Option (Dev × Option Nat × CapItem) :=
  match d.getCap n [] (fun c => c.queue) with
  | [] => none
  | i :: _ => if d.itemWaits n i then none else
    let x := d.capLines n (chunks 64 (i.bytes.length / 64 + 1) i.bytes).zipIdx i.addr
    match x.2 with
    | some l => some (x.1, some l, i)
    | none =>
      let d := x.1.cap n (fun c => { c with queue := c.queue.drop 1 })
      let d := match i.kind with
        | .header => d.notice n 0x0401 [i.num, i.slot, i.flags]
        | .block => d.when i.note (fun d => d.notice n 0x0405 [i.num])
        | .row => d
      some (d, none, i)

/-- Writes up to `k` items in order (R288); a refused write is left to the event of its own. -/
def capDrain : Nat → Dev → Nat → Dev
  | 0, d, _ => d
  | k + 1, d, n =>
    match d.capFront n with
    | some (d', none, _) => capDrain k d' n
    | _ => d

/-- Writes items up to the first header, which is then in place; none where a write before it is refused. -/
def capToHeader : Nat → Dev → Nat → Option Dev
  | 0, _, _ => none
  | k + 1, d, n =>
    match d.capFront n with
    | some (d', none, i) => if i.kind == .header then some d' else capToHeader k d' n
    | _ => none

/-- Writes items up to the first refused one. -/
def capToError : Nat → Dev → Nat → Option (Dev × Nat × CapItem)
  | 0, _, _ => none
  | k + 1, d, n =>
    match d.capFront n with
    | some (d', none, _) => capToError k d' n
    | some (d', some l, i) => some (d', l, i)
    | none => none

def capQueueLen (d : Dev) (n : Nat) : Nat := d.getCap n 0 (fun c => c.queue.length)

/-- A header write has completed (R288). -/
def headerDone (d : Dev) (n : Nat) : Dev := (capToHeader (d.capQueueLen n + 1) d n).getD d

/-! ### Records -/

/-- The bytes of a row (R280, R282). -/
def rowBytes (d : Dev) (n : Nat) (u : Sparse Nat) : List Nat :=
  ((List.range (d.rowStride n / 2)).map (fun i => toBytes 2 (if i < d.nProbe n then unitOf u i else 0))).flatten

/-- A row goes to position `pos` of the slot of the present record. -/
def capStore (d : Dev) (n pos : Nat) (r : CapRow) : Dev :=
  let rs := d.rowStride n
  let rec_ := d.rd (Reg.CAPT.RECNO.of n)
  let slot := rec_ % max 1 (d.capNseg n)
  let l := d.capPre n + d.capPost n
  d.capQueue n ⟨.row, 64 * d.rd (Reg.CAPT.DBASE.of n) + slot * l * rs + pos * rs, d.rowBytes n r.units, rec_, slot, 0, false⟩

def metaOf (r : CapRow) : RowMeta := ⟨r.cycle, r.breaks, r.paceMiss, rowBad r.units⟩

/-- FLAGS of HOLD, PACEMISS and POISONED over rows (R291). -/
def metaHold (ms : List RowMeta) : Bool :=
  match ms.head?, ms.getLast? with
  | some a, some b => a.breaks != b.breaks
  | _, _ => false

/-- The bytes of a stamp in the layout of TTIME (R291). -/
def stampBytes (t : TimeVal) : List Nat := toBytes 4 t.frac ++ toBytes 6 t.ns ++ toBytes 2 t.wrap

/-- Close causes of R291. -/
abbrev clCOMPLETE : Nat := 0
abbrev clDISARM : Nat := 1
abbrev clOVERFLOW : Nat := 2
abbrev clRUNEND : Nat := 3
abbrev clSTOREERR : Nat := 4

/-- The 64 bytes of a record header (R291). -/
def headerBytes (d : Dev) (n : Nat) (t : CapTrig) (flags cause : Nat) : List Nat :=
  let r := d.rd (Reg.CAPT.RECNO.of n)
  let c := fun f => d.getCap n 0 f
  let b := toBytes 4 r ++ toBytes 2 flags ++ [cause, t.src] ++ toBytes 8 t.cycle ++ stampBytes t.stamp ++
    toBytes 4 (r % max 1 (d.capNseg n)) ++ toBytes 4 t.precnt ++ toBytes 4 t.postcnt ++ toBytes 4 t.ovl ++ toBytes 4 t.start ++
    toBytes 4 (min (2 ^ 32 - 1) (c (fun x => x.deadNs))) ++ toBytes 4 (min (2 ^ 32 - 1) (c (fun x => x.deadCyc))) ++
    toBytes 4 (c (fun x => x.holdOff))
  b ++ toBytes 4 (crc32c b)

/-- FLAGS of a record that closes (R291). -/
def recordFlags (d : Dev) (n : Nat) (t : CapTrig) (trunc : Bool) : Nat :=
  b2n trunc + 2 * b2n (decide (0 < t.ovl)) + 4 * b2n (t.metas.any (fun m => m.paceMiss)) + 8 * b2n (metaHold t.metas) +
  16 * b2n (t.metas.any (fun m => m.poisoned)) + 32 * b2n (decide (t.precnt + t.ovl < d.capPre n)) + 64 * b2n t.forced

/-- A record in its post phase closes (R284, R286): its header is handed to the write path, RECNO advances, and the next pending slot
opens. -/
def capClose (d : Dev) (n cause : Nat) (trunc : Bool) (ph : Nat) : Dev :=
  match d.getCap n none (fun c => c.trig) with
  | none => d
  | some t =>
    let r := d.rd (Reg.CAPT.RECNO.of n)
    let flags := d.recordFlags n t trunc
    let slot := r % max 1 (d.capNseg n)
    let d := d.capQueue n ⟨.header, 64 * d.rd (Reg.CAPT.HBASE.of n) + 64 * slot, d.headerBytes n t flags cause, r, slot, flags, false⟩
    let d := (d.wr (Reg.CAPT.RECNO.of n) (r + 1)).wb (capStat n) 7 false
    d.cap n (fun c => { c with
      trig := none, last := t.metas.drop t.ovl, r0 := none, noOvl := false, metas := [],
      closeT := d.clk + ph, deadCyc := 0, holdRows := 0, force := false })

/-- An acquisition has ended. -/
def capEnd (d : Dev) (n : Nat) : Dev :=
  let s := capStat n
  (((d.wb s 5 false).wb s 6 false).wb s 7 false).cap n (fun c => { c with trig := none, r0 := none, metas := [], last := [], force := false })

/-- The acquisition ends after record NSEG − 1 where records do not wrap (R287). -/
def capDone (d : Dev) (n : Nat) : Dev :=
  let r := d.rd (Reg.CAPT.RECNO.of n)
  if d.fb (Reg.CAPT.CFG.of n) 31 || r != d.capNseg n then d
  else ((d.capEnd n).wb (capStat n) 4 true).notice n 0x0402 [r]

/-- DISARM (R308). -/
def capDisarm (d : Dev) (n ph : Nat) : Dev :=
  if d.capActive n then (d.capClose n clDISARM true ph).capEnd n else d

/-- FORCE (R295). -/
def capForce (d : Dev) (n : Nat) : Dev := if d.capArmed n then d.cap n (fun c => { c with force := true }) else d

/-- RESTART, or stage 3 of a load: the open record closes, acquisition and activity end (R310). -/
def capRunEnd (d : Dev) (n : Nat) : Dev :=
  let d := if d.capActive n then (d.capClose n clRUNEND true 0).capEnd n else d
  (d.wb (Reg.CAPT.ACTCTL.of n) 31 false).cap n (fun c => { c with actSkip := 0, act := none, actPrev := none, rows := [], ready := [] })

/-- Whether the input of EXT source i, set for its level, shows its active one (R292). A latch is set anew from this at each evaluation. -/
def extActive (d : Dev) (n i : Nat) : Bool :=
  let lo := 16 * i
  let e := Reg.CAPT.EXTSEL.of n
  !(d.fb e (lo + 8)) && d.lineLevel (d.fd e (lo + 4) lo) != d.fb e (lo + 7)

/-! ### ARM -/

/-- The end of the write-permitted region of master 16 that covers an SMA and reaches furthest (R206). -/
def coverEnd (d : Dev) (n a : Nat) : Option Nat :=
  let ends := (List.range 8).filterMap (fun k =>
    if d.regionPerm n 16 k true && (d.region n 16 k a).isSome then some (64 * d.rd (Reg.SPAD.REG.LIMIT.of n [16, k]) + 63) else none)
  ends.foldl (fun m e => match m with | none => some e | some x => some (max x e)) none

/-- Whether every byte from `a` to `e` lies in a write-permitted region of master 16. -/
def covered (d : Dev) (n : Nat) : Nat → Nat → Nat → Bool
  | 0, _, _ => false
  | f + 1, a, e =>
    match d.coverEnd n a with
    | none => false
    | some x => decide (e ≤ x) || covered d n f (x + 1) e

/-- The error of ARM, 0 when accepted (R283). -/
def armErr (d : Dev) (n : Nat) : Nat :=
  let np := d.nProbe n
  let ps := (List.range (min np 512)).map (fun i => d.rd (Reg.CAPT.PROBE.of n [i]))
  let p := d.period n
  let l := d.capPre n + d.capPost n
  let ns := d.capNseg n
  let key := fun v => bits v 29 26 * 512 + bits v 8 0
  let twice := (List.range ps.length).any (fun i => ((ps.drop (i + 1)).map key).contains (key (ps.getD i 0)))
  let db := 64 * d.rd (Reg.CAPT.DBASE.of n)
  let hb := 64 * d.rd (Reg.CAPT.HBASE.of n)
  let dl := ns * l * d.rowStride n
  let decBad := (List.range 4).any (fun x =>
    let c := d.rd (Reg.CAPT.DEC.CTL.of n [x])
    decide (4 < bits c 31 29) || decide (4 < bits c 28 26))
  if d.capActive n then 1
  else if np = 0 ∨ 512 < np ∨ p = 0 ∨ ps.any (fun v => decide (p ≤ bits v 8 0) || !(d.used n (bits v 29 26))) then 2
  else if twice then 3
  else if d.capPost n = 0 ∨ l < 16 ∨ 1048576 < l ∨ ns = 0 ∨ 65536 < ns ∨ decBad ∨ (db < hb + 64 * ns ∧ hb < db + dl) then 4
  else if !(d.covered n 9 db (db + dl - 1)) || !(d.covered n 9 hb (hb + 64 * ns - 1)) then 5
  else 0

/-- ARM (R283, R284). -/
def capArm (d : Dev) (n ph : Nat) : Dev :=
  let e := d.armErr n
  let s := capStat n
  let d := d.wf s 31 28 e
  if e != 0 then d
  else
    let d := (((d.wr (Reg.CAPT.RECNO.of n) 0).wr (Reg.CAPT.CNT.of n [0]) 0).wr (Reg.CAPT.CNT.of n [1]) 0)
    let d := ((d.wf s 9 8 0).wb s 5 true).wb s 6 false
    d.cap n (fun c => { c with
      ext0 := d.extActive n 0, ext1 := d.extActive n 1, r0 := none, noOvl := false, metas := [], last := [], trig := none, closeT := d.clk + ph, deadNs := 0,
      deadCyc := 0, holdRows := 0, force := false, prev := none, dec := Vector.replicate 4 DecSt.idle, ovfNew := 0, ovfT := none })

/-- The sequencer is armed once the hold-off has ended (R286). -/
def capRearm (d : Dev) (n ph : Nat) : Dev :=
  let h := d.rd (Reg.CAPT.HOLDOFF.of n)
  let c := fun f => d.getCap n 0 f
  let now := d.clk + ph
  let due := d.capActive n && !(d.capArmed n) && !(d.fb (capStat n) 7) &&
    (if h.testBit 31 then decide (bits h 25 0 ≤ c (fun x => x.holdRows)) else decide (c (fun x => x.closeT) + bits h 25 0 ≤ now))
  if !due then d
  else
    let s := capStat n
    let d := (((d.wf s 9 8 0).wb s 6 true).wr (Reg.CAPT.CNT.of n [0]) 0).wr (Reg.CAPT.CNT.of n [1]) 0
    d.cap n (fun x => { x with deadNs := now - x.closeT, holdOff := h })

/-! ### The sequencer -/

/-- Comparator c on the units of this row and the row before (R294). -/
def cmpTrue (d : Dev) (n c : Nat) (u : Sparse Nat) (prev : Option (Sparse Nat)) : Bool :=
  let sel := d.rd (Reg.CAPT.CMP.SEL.of n [c])
  let mv := d.rd (Reg.CAPT.CMP.MV.of n [c])
  let mask := bits mv 27 16
  let x := unitOf u (bits sel 8 0) % 4096
  let level := fun v => (v ^^^ bits mv 11 0) &&& mask == 0
  match bits sel 31 30, prev with
  | 1, _ => level x
  | 2, some p => level x && !(level (unitOf p (bits sel 8 0) % 4096))
  | 3, some p => (x ^^^ unitOf p (bits sel 8 0) % 4096) &&& mask != 0
  | _, _ => false

/-- Time comparator i on the stamp of the row (R292). -/
def tcmpTrue (d : Dev) (n i ns : Nat) : Bool :=
  let t := d.rd64 Reg.CAPT.TCMP n [i]
  let after := decide ((ns + 2 ^ 48 - bits t 47 0) % 2 ^ 48 < 2 ^ 47)
  after != t.testBit 63

/-- EXT source i (R292): an edge into the active level since the latch was set anew, or the level shown then or since. -/
def extTrue (d : Dev) (n i : Nat) : Bool := d.getCap n false (fun c => if i = 0 then c.ext0 else c.ext1) || d.extActive n i

/-- The 26 sources as a number (R292); `decs` are the decoders whose event passed. -/
def capSources (d : Dev) (n : Nat) (r : CapRow) (decs : Nat) : Nat :=
  let prev := d.getCap n none (fun c => c.prev)
  let cnt := fun i => decide (d.rd (Reg.CAPT.CNTLIM.of n [i]) ≤ d.rd (Reg.CAPT.CNT.of n [i]))
  ofOnes ((List.range 26).filter (fun x =>
    if x < 16 then d.cmpTrue n x r.units prev
    else if x < 18 then cnt (x - 16)
    else if x < 20 then d.tcmpTrue n (x - 18) r.stamp.ns
    else if x < 24 then decs.testBit (x - 20)
    else d.extTrue n (x - 24)))

/-- The branch that acts, if one does (R293). -/
def capBranch (d : Dev) (n src : Nat) : Option Nat :=
  let s := d.fd (capStat n) 9 8
  [0, 1].find? (fun b =>
    let c := d.rd (Reg.CAPT.SEQ.COND.of n [s, b])
    let m := bits c 25 0
    m != 0 && (if c.testBit 31 then src &&& m != 0 else src &&& m == m))

/-- One evaluation of the armed sequencer: counters, next state, and whether it triggers, with the state it triggered in (R293, R295). -/
def capSeq (d : Dev) (n src : Nat) : Dev × Bool × Nat :=
  let s := d.fd (capStat n) 9 8
  match d.capBranch n src with
  | none => (d, false, s)
  | some b =>
    let a := d.rd (Reg.CAPT.SEQ.ACT.of n [s, b])
    let cnt := fun (d : Dev) (i : Nat) =>
      let l := Reg.CAPT.CNT.of n [i]
      let d := d.when (a.testBit i) (fun d => d.bump l)
      d.when (a.testBit (2 + i)) (fun d => d.wr l 0)
    ((cnt (cnt d 0) 1).wf (capStat n) 9 8 (bits a 7 6), a.testBit 5, s)

/-! ### Evaluation of a row -/

/-- The lines of decoder x in a row. -/
def decLines (d : Dev) (n x : Nat) (u : Sparse Nat) : Bool × Bool × Bool :=
  let l01 := d.rd (Reg.CAPT.DEC.LINE01.of n [x])
  let l2 := d.rd (Reg.CAPT.DEC.LINE2.of n [x])
  let at_ := fun v => (if v / 16 < d.nProbe n then unitOf u (v / 16) else 0).testBit (v % 16)
  (at_ (bits l01 12 0), at_ (bits l01 28 16), at_ (bits l2 12 0))

/-- Decoder x takes its sample of a row (R296 to R298); whether an event passed. -/
def decStep (d : Dev) (n x : Nat) (u : Sparse Nat) : Dev × Bool :=
  let ctl := d.rd (Reg.CAPT.DEC.CTL.of n [x])
  let p := bits ctl 25 0
  let s := d.getCap n DecSt.idle (fun c => vget c.dec x DecSt.idle)
  let l := d.decLines n x u
  let o : DecOut :=
    match bits ctl 31 29 with
    | 1 => decUart p s l.1
    | 2 => decSpi p s l.1 l.2.1 l.2.2
    | 3 => decI2c p s l.1 l.2.1
    | 4 => decField p (d.rd (Reg.CAPT.DEC.SYNC.of n [x])) s l.1 l.2.1
    | _ => ⟨s, none, false⟩
  let d := d.cap n (fun c => { c with dec := vmod c.dec x (fun _ => o.st) })
  let d := d.when o.err (fun d => d.bump (Reg.CAPT.DEC.ERRCNT.of n [x]))
  match o.event with
  | none => (d, false)
  | some v =>
    let d := d.wr (Reg.CAPT.DEC.LAST.of n [x]) v
    if fieldTest (bits ctl 28 26) (d.rd (Reg.CAPT.DEC.MASK.of n [x])) (d.rd (Reg.CAPT.DEC.VALUE.of n [x]))
        (d.rd (Reg.CAPT.DEC.HI.of n [x])) v
    then (d.bump (Reg.CAPT.DEC.MATCHCNT.of n [x]), true) else (d, false)

/-- All four decoders: the mask of those whose event passed. -/
def decAll (d : Dev) (n : Nat) (u : Sparse Nat) : Dev × Nat :=
  (List.range 4).foldl (fun acc x => let r := acc.1.decStep n x u; (r.1, acc.2 + b2n r.2 * 2 ^ x)) (d, 0)

/-- A row of the post phase (R284, R289). -/
def capPostRow (d : Dev) (n ph : Nat) (r : CapRow) (t : CapTrig) : Dev :=
  if !(d.capRoom n (d.rowStride n)) then ((d.capDrop n).capClose n clOVERFLOW true ph).capDone n
  else
    let d := d.capStore n (d.capPre n + t.postcnt) r
    let t := { t with postcnt := t.postcnt + 1, metas := t.metas ++ [metaOf r] }
    let d := d.cap n (fun c => { c with trig := some t })
    if t.postcnt = d.capPost n then (d.capClose n clCOMPLETE false ph).capDone n else d

/-- The trigger on row r (R285). -/
def capTrigger (d : Dev) (n ph : Nat) (r : CapRow) (st : Nat) (forced : Bool) : Dev :=
  let pre := d.capPre n
  let r0 := d.getCap n r.cycle (fun c => c.r0.getD r.cycle)
  let precnt := min (r.cycle - r0) pre
  let start := if pre = 0 then 0 else (r.cycle - precnt - r0) % pre
  let last := d.getCap n [] (fun c => c.last)
  let joined := !(d.getCap n false (fun c => c.noOvl)) && (match last.getLast? with | some m => m.cycle + 1 == r0 | none => false)
  let ovl := if joined then min (pre - precnt) last.length else 0
  let ms := last.drop (last.length - ovl) ++ (d.getCap n [] (fun c => c.metas))
  let t : CapTrig := ⟨r.cycle, r.stamp, st + 4 * b2n forced, forced, precnt, start, ovl, false, ms, 0⟩
  let d := ((d.wb (capStat n) 6 false).wb (capStat n) 7 true).cap n (fun c => { c with trig := some t, force := false })
  (d.xPulse n).capPostRow n ph r t

/-- A row of the pending slot that does not trigger (R284, R289). -/
def capPreRow (d : Dev) (n : Nat) (r : CapRow) : Dev :=
  let pre := d.capPre n
  let r0 := d.getCap n r.cycle (fun c => c.r0.getD r.cycle)
  if pre = 0 then d.cap n (fun c => { c with r0 := some r0 })
  else
    (d.capStore n ((r.cycle - r0) % pre) r).cap n (fun c =>
      let m := c.metas ++ [metaOf r]
      { c with r0 := some r0, metas := m.drop (m.length - pre) })

/-- The row enters the acquisition: its sources, the hold-off, the sequencer, the pending slot or the post phase. DEDUCED (log 36): a row
that a pending slot drops cannot trigger. -/
def capAcquire (d : Dev) (n ph : Nat) (r : CapRow) : Dev :=
  let x := d.decAll n r.units
  let d := x.1
  let src := d.capSources n r x.2
  let d := d.cap n (fun c => { c with prev := some r.units, ext0 := d.extActive n 0, ext1 := d.extActive n 1 })
  match d.getCap n none (fun c => c.trig) with
  | some t => d.capPostRow n ph r t
  | none =>
    let h := Reg.CAPT.HOLDOFF.of n
    let armed := d.capArmed n
    let d := d.when (!armed) (fun d => d.cap n (fun c =>
      { c with deadCyc := c.deadCyc + 1, holdRows := c.holdRows + b2n (src.testBit (d.fd h 30 26)) }))
    let force := armed && d.getCap n false (fun c => c.force)
    let q := if armed then d.capSeq n src else (d, false, 0)
    let d := q.1
    let fire := armed && (q.2.1 || force)
    let room := d.capRoom n (d.rowStride n)
    if fire && room then d.capTrigger n ph r q.2.2 force
    else if !room && (decide (0 < d.capPre n) || fire) then
      (d.capDrop n).cap n (fun c => { c with r0 := none, noOvl := true, metas := [] })
    else d.capPreRow n r

/-! ### Activity -/

/-- One 12-bit word of R300. -/
def actWord (k count : Nat) : Nat := min 4095 ((count * 4096 + 2 ^ k / 2) / 2 ^ k)

/-- The bytes of an activity block (R301). -/
def blockBytes (d : Dev) (n blk : Nat) (a : ActSt) : List Nat :=
  let c := d.rd (Reg.CAPT.ACTCTL.of n)
  let k := bits c 28 24
  let cnt := bits c 19 10
  let flags := b2n (a.breaks != a.lastBreaks) + 2 * b2n a.paceMiss + 4 * b2n a.poisoned
  let h := toBytes 4 blk ++ [k, flags] ++ toBytes 2 cnt ++ toBytes 8 a.first ++ stampBytes a.stamp ++ toBytes 2 (bits c 8 0) ++
    List.replicate 30 0
  let body := ((List.range cnt).map (fun i =>
    ((List.range 12).map (fun x => toBytes 2 (actWord k (a.high.getD (12 * i + x) 0)))).flatten ++
    ((List.range 12).map (fun x => toBytes 2 (actWord k (a.tog.getD (12 * i + x) 0)))).flatten)).flatten
  let pad := (64 - 48 * cnt % 64) % 64
  h ++ toBytes 4 (crc32c h) ++ body ++ List.replicate pad 0

/-- The interval has ended: its block enters the write path or is dropped, and BLKNO advances (R300, R301). -/
def actBlock (d : Dev) (n : Nat) (a : ActSt) : Dev :=
  let blk := d.rd (Reg.CAPT.ABLK.of n)
  let bs := d.blockBytes n blk a
  let note := d.fd (Reg.CAPT.ACTCTL.of n) 23 20
  let anb := max 1 (d.rd (Reg.CAPT.ANB.of n))
  let i : CapItem := ⟨.block, 64 * d.rd (Reg.CAPT.ABASE.of n) + blk % anb * bs.length, bs, blk, 0, 0,
    note != 0 && (blk + 1) % 2 ^ (note - 1) == 0⟩
  let d := if d.capRoom n bs.length then d.capQueue n i else d.capDrop n
  d.wr (Reg.CAPT.ABLK.of n) (blk + 1)

/-- A row enters the activity counts (R299); not one that was complete when ACTCTL.EN was written. -/
def actRow (d : Dev) (n : Nat) (r : CapRow) : Dev :=
  let c := d.rd (Reg.CAPT.ACTCTL.of n)
  if !(c.testBit 31) then d
  else if 0 < d.getCap n 0 (fun x => x.actSkip) then d.cap n (fun x => { x with actSkip := x.actSkip - 1 })
  else
    let len := 2 ^ bits c 28 24
    let w := 12 * bits c 19 10
    let u := fun (m : Sparse Nat) (i : Nat) => (unitOf m (bits c 8 0 + i / 12)).testBit (i % 12)
    let prev := d.getCap n none (fun x => x.actPrev)
    let cur := d.getCap n none (fun x => x.act)
    let base : Option ActSt := match cur with
      | some a => some a
      | none => if r.cycle % len = 0 then
          some ⟨r.cycle, r.stamp, r.breaks, r.breaks, 0, List.replicate w 0, List.replicate w 0, false, false⟩ else none
    let next := base.map (fun a => { a with
      rows := a.rows + 1, lastBreaks := r.breaks
      high := a.high.zipIdx.map (fun p => p.1 + b2n (u r.units p.2))
      tog := a.tog.zipIdx.map (fun p => p.1 + (match prev with | some q => b2n (u r.units p.2 != u q p.2) | none => 0))
      paceMiss := a.paceMiss || r.paceMiss
      poisoned := a.poisoned || rowBad r.units })
    let d := d.cap n (fun x => { x with act := next, actPrev := some r.units })
    match next with
    | some a => if a.rows = len then (d.actBlock n a).cap n (fun x => { x with act := none }) else d
    | none => d

/-- ROW_EVALUATE: the oldest complete row (R279, R292), after the write path has finished `written` items. -/
def rowEvaluate (d : Dev) (n ph written : Nat) : Dev :=
  let d := capDrain (min written (d.capQueueLen n)) d n
  match d.getCap n [] (fun c => c.ready) with
  | [] => d
  | r :: rest =>
    let d := (d.cap n (fun c => { c with ready := rest })).actRow n r
    if d.capActive n then d.capAcquire n ph r else d

/-- A storage write was refused (R290): the acquisition ends, and no further line is written but, where the refused one is a data line, the header of
the record that is open then, whichever record the line belongs to. -/
def capStoreError (d : Dev) (n ph : Nat) : Dev :=
  match capToError (d.capQueueLen n + 1) d n with
  | none => d
  | some (d, line, i) =>
    let open_ := i.kind == .row && d.fb (capStat n) 7
    let d := if open_ then d.capClose n clSTOREERR true ph else d
    let d := d.cap n (fun c => { c with queue := if open_ then c.queue.drop (c.queue.length - 1) else [] })
    let d := if d.capActive n then d.capEnd n else d
    (d.wb (capStat n) 3 true).notice n 0x0404 [line]

/-! ### Register writes -/

/-- ACTCTL (R299, R302). -/
def actctlWrite (d : Dev) (n v : Nat) : Dev :=
  let l := Reg.CAPT.ACTCTL.of n
  let v := v &&& 0x9FFFFDFF
  let rej := fun (d : Dev) => d.wb (capStat n) 1 true
  if d.fb l 31 then
    if v.testBit 31 then (if v = d.rd l then d else rej d)
    else
      let d := (d.wb l 31 false).cap n (fun c => { c with act := none, actPrev := none })
      if v % 2 ^ 31 = d.rd l then d else rej d
  else if !(v.testBit 31) then d.wr l v
  else
    let k := bits v 28 24
    let cnt := bits v 19 10
    let anb := max 1 (d.rd (Reg.CAPT.ANB.of n))
    let bs := 64 + 64 * ((48 * cnt + 63) / 64)
    let ab := 64 * d.rd (Reg.CAPT.ABASE.of n)
    if k < 4 ∨ 16 < k ∨ cnt = 0 ∨ d.nProbe n < bits v 8 0 + cnt ∨ !(d.covered n 9 ab (ab + anb * bs - 1)) then rej d
    else (d.wr l v).cap n (fun c => { c with actSkip := c.ready.length, act := none, actPrev := none })

end Dev

end Sys2Proof.Machine
end

