-- ==== Sys2Proof/Machine/RegFind.lean ====
section
/-! DEFINITION. From an offset to a register (R536 to R540), and what a write does to each field type (R9, R10). -/

namespace Sys2Proof.Machine

/-- The indices an offset names, outermost first, and what is left of it. -/
def locDims : List (Nat × Nat) → Nat → Option (List Nat × Nat)
  | [], r => some ([], r)
  | (c, st) :: ds, r =>
    if c ≤ r / st then none else (locDims ds (r % st)).map (fun p => (r / st :: p.1, p.2))

/-- The indices under which a row lies at an offset, and whether it is the high half of a wide row. -/
def Row.locate (r : Row) (off : Nat) : Option (List Nat × Bool) :=
  if off < r.base then none
  else match locDims r.dims (off - r.base) with
    | some (ix, 0) => some (ix, false)
    | some (ix, 4) => if r.wide then some (ix, true) else none
    | _ => none

/-- A register found: its row, its indices and its half. -/
structure Found where
  row : Row
  ix : List Nat
  hi : Bool
deriving DecidableEq, Repr

/-- The first row of a list that lies at an offset. -/
def findRow (rows : List Row) (off : Nat) : Option Found :=
  rows.findSome? (fun r => (r.locate off).map (fun p => ⟨r, p.1, p.2⟩))

/-- The register of a find in section n or the hub. -/
def Found.loc (f : Found) (n : Nat) : Loc := if f.hi then f.row.ofHi n f.ix else f.row.of n f.ix

/-- The fields of a row that lie in one half, numbered within it. -/
def Row.halfFields (r : Row) (hi : Bool) : List Field :=
  r.fields.filterMap (fun f =>
    if hi then (if f.hi < 32 then none else some { f with hi := f.hi - 32, lo := f.lo - 32 })
    else if 32 ≤ f.lo then none else some { f with hi := min f.hi 31 })

/-- The mask of the bits [hi:lo]. -/
def fieldMask (f : Field) : Nat := (2 ^ (f.hi + 1 - f.lo) - 1) * 2 ^ f.lo

/-- The mask of the fields of a type in one half. -/
def Row.mask (r : Row) (hi : Bool) (p : FieldTy → Bool) : Nat :=
  ((r.halfFields hi).filter (fun f => p f.ty)).foldl (fun a f => a ||| fieldMask f) 0

/-- What a register holds after `v` is written over `old` (R9): RW takes the bit, W1C clears where it is 1, W1S sets where it is 1,
and RO, WO, RC and reserved bits keep what they hold. -/
def Row.written (r : Row) (hi : Bool) (old v : Nat) : Nat :=
  let rw := r.mask hi (fun t => t == .rw)
  let c := r.mask hi (fun t => t == .w1c)
  let s := r.mask hi (fun t => t == .w1s)
  let keep := old - (old &&& (rw ||| (c &&& v)))
  (keep ||| (v &&& rw)) ||| (v &&& s)

end Sys2Proof.Machine
end

