-- ==== Sys2Proof/Machine/Hvx.lean ====
section
/-! DEFINITION. The HVX container (R165 to R171) and the contents of its segments (R167, R168, R254, R307, R357): reading an image and
the checks that its bytes alone decide. -/

namespace Sys2Proof.Machine

/-- Load-report STATUS codes (R188). -/
abbrev ldFORMAT : Nat := 0x01
abbrev ldDIGEST : Nat := 0x02
abbrev ldCHANGED : Nat := 0x03
abbrev ldVERSION : Nat := 0x04
abbrev ldSIGNATURE : Nat := 0x05
abbrev ldTARGET : Nat := 0x06
abbrev ldPLACEMENT : Nat := 0x07
abbrev ldCAPACITY : Nat := 0x08
abbrev ldENCODING : Nat := 0x09
abbrev ldSTAGE : Nat := 0x0A
abbrev ldLIMIT : Nat := 0x0B
abbrev ldSLOT : Nat := 0x0C
abbrev ldBRIDGE : Nat := 0x0D
abbrev ldWINDOW : Nat := 0x0E
abbrev ldQUEUE : Nat := 0x0F
abbrev ldCALLCLASS : Nat := 0x10
abbrev ldORDER : Nat := 0x11
abbrev ldINITVAL : Nat := 0x12
abbrev ldWAIT : Nat := 0x13
abbrev ldPIN : Nat := 0x14
abbrev ldRELOC : Nat := 0x15

/-- A rejection: its STATUS, its place, and for SIGNATURE the failed check of R496 (R188). DESIGN CHOICE (log 80): the manual names what the fields of
one and two bytes read where they do not apply; SEGOFF, of four bytes, then reads 0xFFFFFFFF. -/
structure Rej where
  st : Nat
  vsec : Nat := 0xFF
  vcl : Nat := 0xFF
  course : Nat := 0xFF
  bp : Nat := 0xFF
  step : Nat := 0xFFFF
  seg : Nat := 0xFFFF
  off : Nat := 0xFFFFFFFF
  check : Option Nat := none
deriving DecidableEq, Repr

/-- The first rejection of a list of checks. -/
def firstRej (l : List (Option Rej)) : Option Rej := l.findSome? (fun x => x)

/-- A rejection where a condition holds. -/
def rejIf (c : Bool) (r : Rej) : Option Rej := if c then some r else none

/-- `k` bytes at an offset as a little-endian number; bytes beyond the end read 0. -/
def leAt (b : List Nat) (off k : Nat) : Nat := ofBytes ((b.drop off).take k)

/-- A run of bytes. -/
def span (b : List Nat) (off k : Nat) : List Nat := (b.drop off).take k

/-- A segment table entry (R166). -/
structure Seg where
  idx : Nat
  typ : Nat
  flags : Nat
  vsec : Nat
  vcl : Nat
  off : Nat
  len : Nat
  cnt : Nat
deriving DecidableEq, Repr

/-- Segment types (R167). -/
abbrev sgCODE : Nat := 0x01
abbrev sgCSLOT : Nat := 0x02
abbrev sgGSLOT : Nat := 0x03
abbrev sgINIT : Nat := 0x04
abbrev sgRELOC : Nat := 0x05
abbrev sgREGION : Nat := 0x06
abbrev sgMEMINIT : Nat := 0x07
abbrev sgQMAP : Nat := 0x08
abbrev sgCALLMAP : Nat := 0x09
abbrev sgTCM : Nat := 0x0A
abbrev sgPINMAP : Nat := 0x0B
abbrev sgPROBE : Nat := 0x0C
abbrev sgWHINT : Nat := 0x0D
abbrev sgNOTE : Nat := 0x0E

/-! ### The header (R165) -/

namespace Hvx

def vmajor (b : List Nat) : Nat := leAt b 4 2
def flags (b : List Nat) : Nat := leAt b 0xC 4
def signed (b : List Nat) : Bool := (flags b).testBit 0
def period (b : List Nat) : Nat := leAt b 0x18 2
def nvsec (b : List Nat) : Nat := leAt b 0x1A 1
def segoff (b : List Nat) : Nat := leAt b 0x1C 4
def vcluse (b : List Nat) (v : Nat) : Nat := leAt b (0x20 + 2 * v) 2
def fixsec (b : List Nat) (v : Nat) : Nat := leAt b (0x30 + v) 1
def nseg (b : List Nat) : Nat := leAt b 0x38 4
def sigoff (b : List Nat) : Nat := leAt b 0x3C 4
def secver (b : List Nat) : Nat := leAt b 0x50 4
def digest (b : List Nat) : List Nat := span b 0xC0 48

/-- Whether reserved fields are checked: VMINOR is at or below the highest minor the loader knows (R169). -/
def strict (b : List Nat) : Bool := decide (leAt b 6 2 ≤ Config.loaderMinor.toNat)

/-- The digest over the image as it stands (R165). -/
def digestNow (b : List Nat) : List Nat := Config.sha384 (span b 0 0xC0 ++ span b 0x100 (sigoff b - 0x100))

/-- Bytes of the signature block (R170). -/
def sbSize : Nat := 8768

/-- The header breaks R165 or R170's block layout. -/
def headerBad (b : List Nat) : Bool :=
  let n := b.length
  let zero := fun off k => (span b off k).any (· != 0)
  decide (n < 0x100) || span b 0 4 != [0x48, 0x56, 0x58, 0x00] || leAt b 8 4 != 256 || leAt b 0x10 8 != n ||
  !(decide (1 ≤ nvsec b ∧ nvsec b ≤ 8)) || segoff b % 64 != 0 || sigoff b % 64 != 0 || decide (segoff b < 0x100) ||
  decide (n < sigoff b) || decide (sigoff b < segoff b + 32 * nseg b) ||
  (if signed b then sigoff b + sbSize != n || span b (sigoff b) 4 != [0x48, 0x56, 0x53, 0x47] || leAt b (sigoff b + 4) 4 != sbSize
   else sigoff b != n) ||
  (List.range 8).any (fun v => decide (nvsec b ≤ v) && vcluse b v != 0) ||
  (strict b && (flags b / 2 != 0 || zero 0x1B 1 || zero 0x58 104 || zero 0xF0 16 || (signed b && zero (sigoff b + 0x223C) 4)))

/-- The entries of the segment table (R166). -/
def segs (b : List Nat) : List Seg :=
  (List.range (nseg b)).map (fun i =>
    let o := segoff b + 32 * i
    ⟨i, leAt b o 2, leAt b (o + 2) 2, leAt b (o + 4) 1, leAt b (o + 5) 1, leAt b (o + 8) 8, leAt b (o + 0x10) 8, leAt b (o + 0x18) 4⟩)

/-- Whether a type is one of R167. -/
def known (t : Nat) : Bool := decide (1 ≤ t ∧ t ≤ 14)

/-- Whether a virtual cluster is used (R165). -/
def isUsed (b : List Nat) (v c : Nat) : Bool := decide (v < nvsec b ∧ c < 16) && (vcluse b v).testBit c

/-- The used clusters of a virtual section, rising. -/
def used (b : List Nat) (v : Nat) : List Nat := onesOf 16 (vcluse b v)

/-- The scope rules of R167. -/
def scopeOk (b : List Nat) (s : Seg) : Bool :=
  let sec := decide (s.vsec < nvsec b) && s.vcl == 0xFF
  let cl := isUsed b s.vsec s.vcl
  if s.typ = sgRELOC ∨ s.typ = sgNOTE then s.vsec == 0xFF && s.vcl == 0xFF
  else if s.typ ≤ sgINIT ∨ s.typ = sgREGION ∨ s.typ = sgWHINT then cl else sec

/-- Types of which a scope has at most one segment (R167). -/
def single (t : Nat) : Bool := [sgCODE, sgCSLOT, sgGSLOT, sgRELOC, sgREGION, sgQMAP, sgCALLMAP, sgPINMAP, sgPROBE].contains t

/-- Whether an entry breaks R166 or R167. -/
def segBad (b : List Nat) (l : List Seg) (s : Seg) : Bool :=
  let o := segoff b + 32 * s.idx
  s.off % 64 != 0 || decide (s.off < segoff b + 32 * nseg b) || decide (sigoff b < s.off + s.len) ||
  (strict b && (s.flags % 2 ^ 15 != 0 || leAt b (o + 6) 2 != 0 || leAt b (o + 0x1C) 4 != 0)) ||
  l.any (fun t => decide (t.idx < s.idx ∧ t.off < s.off + s.len ∧ s.off < t.off + t.len)) ||
  (known s.typ && (!(scopeOk b s) || (single s.typ && l.any (fun t =>
    decide (t.idx < s.idx) && t.typ == s.typ && t.vsec == s.vsec && t.vcl == s.vcl))))

/-- A segment of a type and scope. -/
def seg? (l : List Seg) (t v c : Nat) : Option Seg := l.find? (fun s => s.typ == t && s.vsec == v && s.vcl == c)

/-- The segments of a type and scope, in table order. -/
def segsOf (l : List Seg) (t v c : Nat) : List Seg := l.filter (fun s => s.typ == t && s.vsec == v && s.vcl == c)

/-- A rejection that names a segment. -/
def atSeg (st : Nat) (s : Seg) (off : Nat := 0xFFFFFFFF) : Rej := { st := st, vsec := s.vsec, vcl := s.vcl, seg := s.idx, off := off }

/-- FORMAT of the header and the segment table. -/
def formatRej (b : List Nat) : Option Rej :=
  if headerBad b then some { st := ldFORMAT }
  else
    let l := segs b
    match l.find? (segBad b l) with
    | some s => some (atSeg ldFORMAT s)
    | none =>
      ((List.range (nvsec b)).findSome? (fun v =>
        (used b v).findSome? (fun c =>
          rejIf ([sgCODE, sgCSLOT, sgGSLOT].any (fun t => (seg? l t v c).isNone)) { st := ldFORMAT, vsec := v, vcl := c })))

/-- VERSION (R169): another major version, or an unknown type that the loader must understand. -/
def versionRej (b : List Nat) : Option Rej :=
  if vmajor b ≠ 1 then some { st := ldVERSION }
  else ((segs b).find? (fun s => !(known s.typ) && s.flags.testBit 15)).map (fun s => atSeg ldVERSION s)

/-! ### The policy (R171, R483) -/

/-- Whether the OTP image-revoke bit of list slot k of an algorithm is blown; `rev` holds the bits. -/
def keyState (policy : List Nat) (base rev : Nat) (hash : List Nat) : Option Bool :=
  ((List.range 4).find? (fun k =>
    let h := span policy (base + 48 * k) 48
    h == hash && h.any (· != 0))).map (fun k => rev.testBit k)

/-- DIGEST and SIGNATURE (R171). `irevR` and `irevS` are the image-revoke bits. -/
def policyRej (b policy : List Nat) (irevR irevS : Nat) : Option Rej :=
  let o := sigoff b
  let sig := fun c => some ({ st := ldSIGNATURE, check := some c } : Rej)
  let must := leAt policy 0 1 == 1
  if digestNow b != digest b then some { st := ldDIGEST }
  else if !(signed b) then (if must then some { st := ldSIGNATURE } else none)
  else
    let rsa := span b (o + 0x68) 388
    let slh := span b (o + 0x1EC) 32
    if !(Config.sigVerifies 0 rsa (digest b) (span b (o + 0x20C) 384)) then sig 2
    else if !(Config.sigVerifies 1 slh (digest b) (span b (o + 0x38C) 7856)) then sig 3
    else if !must then none
    else
      let hr := Config.sha384 rsa
      let hs := Config.sha384 slh
      if span b (o + 8) 48 != hr || span b (o + 0x38) 48 != hs then sig 4
      else match keyState policy 0x10 irevR hr, keyState policy 0xD0 irevS hs with
        | some r, some s => if r || s then sig 5 else if secver b < leAt policy 4 4 then sig 6 else none
        | _, _ => sig 4

/-! ### Segment contents -/

/-- The record offsets of a segment of fixed-size records, when COUNT and LENGTH agree. -/
def records (s : Seg) (size : Nat) : Option (List Nat) :=
  if s.len % size = 0 ∧ s.cnt = s.len / size then some ((List.range (s.len / size)).map (size * ·)) else none

/-- The records of a MEMINIT or TCM segment: a 16-byte header with the data's length at byte 8, then the data, padded to 64 bytes;
offset within the segment and length (R167, R254). DESIGN CHOICE (log 41) for MEMINIT, whose header begins with the region's index in bytes
[1:0], its virtual cluster in byte 2 and the offset in bytes [7:4]. -/
def blocks (b : List Nat) (s : Seg) (lenSize : Nat) : Nat → Nat → Option (List (Nat × Nat))
  | 0, _ => none
  | fuel + 1, pos =>
    if pos = s.len then some []
    else
      let n := leAt b (s.off + pos + 8) lenSize
      if s.len < pos + 16 + n then none
      else (blocks b s lenSize fuel (min s.len ((pos + 16 + n + 63) / 64 * 64))).map (fun l => (pos, n) :: l)

def memBlocks (b : List Nat) (s : Seg) : Option (List (Nat × Nat)) := blocks b s 8 (s.len / 64 + 2) 0
def tcmBlocks (b : List Nat) (s : Seg) : Option (List (Nat × Nat)) := blocks b s 4 (s.len / 64 + 2) 0

/-- The registers a PROBE record may name (R307), ACTCTL apart. -/
def probeRows : List Row :=
  [Reg.CAPT.PROBE, Reg.CAPT.CFG, Reg.CAPT.PRE, Reg.CAPT.POST, Reg.CAPT.NSEG, Reg.CAPT.HOLDOFF, Reg.CAPT.TOUT, Reg.CAPT.EXTSEL] ++
  [Reg.CAPT.CNTLIM, Reg.CAPT.TCMP, Reg.CAPT.SEQ.COND, Reg.CAPT.SEQ.ACT, Reg.CAPT.CMP.SEL, Reg.CAPT.CMP.MV, Reg.CAPT.DEC.CTL] ++
  [Reg.CAPT.DEC.LINE01, Reg.CAPT.DEC.LINE2, Reg.CAPT.DEC.MASK, Reg.CAPT.DEC.VALUE, Reg.CAPT.DEC.HI, Reg.CAPT.DEC.SYNC] ++
  [Reg.CAPT.ANB, Reg.CAPT.DBASE, Reg.CAPT.HBASE, Reg.CAPT.ABASE, Reg.CAPT.ACTCTL]

/-- Offset of the CAPT block in a section's BAR0 (R537). -/
def captBase : Nat := 0x80000

/-- The register of a PROBE record's offset. -/
def probeReg (off : Nat) : Option Found := findRow probeRows (captBase + off)

/-- What is wrong with one segment's contents: FORMAT where `fmt` holds, and otherwise CAPACITY, INITVAL, QUEUE or PIN of contents that FORMAT does
not reject. -/
def contentRej (b : List Nat) (fmt : Bool) (s : Seg) : Option Rej :=
  let p := period b
  let st := strict b
  let bad := fun (c : Nat) (o : Nat) => rejIf ((c == ldFORMAT) == fmt) (atSeg c s o)
  let each := fun (size : Nat) (code : Nat) (f : Nat → Option Rej) =>
    match records s size with
    | none => bad code 0
    | some os => os.findSome? f
  let whole := fun (c : Bool) => rejIf (fmt && c) (atSeg ldFORMAT s)
  if s.typ = sgCODE then whole (s.len != 9216 * p || s.cnt != p)
  else if s.typ = sgCSLOT then whole (s.len != 512 * p || s.cnt != p)
  else if s.typ = sgGSLOT then whole (s.len != 128 * p || s.cnt != p)
  else if s.typ = sgINIT then each 8 ldFORMAT (fun o =>
    let a := s.off + o
    if st && (leAt b (a + 1) 1 != 0 || leAt b (a + 6) 2 != 0) then bad ldFORMAT o
    else if leAt b (a + 4) 2 / 4096 ≠ 0 then bad ldFORMAT o
    else if 63 < leAt b a 1 ∨ 0x3FF < leAt b (a + 2) 2 then bad ldINITVAL o
    else none)
  else if s.typ = sgREGION then
    whole (s.len != 128 || s.cnt != 8 || (st && (List.range 8).any (fun k => leAt b (s.off + 16 * k + 12) 4 != 0)))
  else if s.typ = sgMEMINIT then
    match memBlocks b s with
    | none => bad ldFORMAT 0
    | some l =>
      if l.length != s.cnt then bad ldFORMAT 0
      else l.findSome? (fun e => if st && leAt b (s.off + e.1 + 3) 1 != 0 then bad ldFORMAT e.1 else none)
  else if s.typ = sgQMAP then each 8 ldQUEUE (fun o =>
    let a := s.off + o
    let q := leAt b a 1
    if (st && (leAt b (a + 4) 4 != 0 || leAt b (a + 1) 1 / 32 != 0 || leAt b (a + 2) 1 / 4 != 0 || leAt b (a + 3) 1 / 16 != 0)) ||
      !(decide (16 ≤ q ∧ q ≤ 61)) || decide (48 ≤ q ∧ 7 < leAt b (a + 3) 1) then bad ldQUEUE o else none)
  else if s.typ = sgCALLMAP then
    whole (s.len != 288 || (List.range 16).any (fun c => leAt b (s.off + 0x100 + c) 1 != 0 && !(isUsed b s.vsec c)) ||
      (st && (leAt b (s.off + 0x118) 8 != 0 || (List.range 64).any (fun k => leAt b (s.off + 4 * k) 4 / 256 % 65536 != 0))))
  else if s.typ = sgTCM then
    match tcmBlocks b s with
    | none => bad ldFORMAT 0
    | some l =>
      if l.length != s.cnt then bad ldFORMAT 0
      else l.findSome? (fun e =>
        let a := s.off + e.1
        if st && (leAt b (a + 1) 3 != 0 || leAt b (a + 12) 4 != 0) then bad ldFORMAT e.1
        else if 65536 < leAt b (a + 4) 4 + e.2 then bad ldCAPACITY e.1 else none)
  else if s.typ = sgPINMAP then each 8 ldPIN (fun o =>
    let a := s.off + o
    let w := leAt b (a + 6) 2
    if 11 < leAt b a 1 ∨ p ≤ leAt b (a + 2) 2 ∨ 63 < leAt b (a + 4) 1 ∨ 11 < leAt b (a + 5) 1 ∨ 2 ^ 14 ≤ w then bad ldPIN o
    else if (st && leAt b (a + 1) 1 / 16 != 0) || !(isUsed b s.vsec (w / 1024)) then bad ldPIN o
    else if leAt b (a + 1) 1 % 2 = 0 ∧ w % 1024 < 0x200 then bad ldPIN o
    else none)
  else if s.typ = sgPROBE then each 8 ldFORMAT (fun o =>
    let off := leAt b (s.off + o) 4
    let v := leAt b (s.off + o + 4) 4
    match probeReg off with
    | none => bad ldFORMAT o
    | some f => if f.row = Reg.CAPT.ACTCTL ∧ v.testBit 31 then bad ldFORMAT o else none)
  else if s.typ = sgWHINT then each 8 ldFORMAT (fun o =>
    if st && leAt b (s.off + o + 1) 3 != 0 then bad ldFORMAT o else none)
  else none

/-- FORMAT of every segment's contents in table order, as the image stores them (R167, R168). -/
def recordsRej (b : List Nat) : Option Rej := (segs b).findSome? (contentRej b true)

/-- The period's range, then the rest of every segment's contents in table order. -/
def contentsRej (b : List Nat) : Option Rej :=
  if !(decide (32 ≤ period b ∧ period b ≤ 512)) || period b % 16 != 0 then some { st := ldCAPACITY }
  else (segs b).findSome? (contentRej b false)

/-! ### Reading what an image holds -/

/-- The instruction of a virtual cluster (R167). -/
def code (b : List Nat) (l : List Seg) (v c x bp k : Nat) : Nat :=
  match seg? l sgCODE v c with
  | some s => leAt b (s.off + ((12 * x + bp) * period b + k) * 12) 12
  | none => 0

/-- The twelve instructions of a course at a step. -/
def insns (b : List Nat) (l : List Seg) (v c x k : Nat) : List Nat := (List.range 12).map (fun bp => code b l v c x bp k)

/-- A cluster slot entry and an export entry. -/
def cslot (b : List Nat) (l : List Seg) (v c s x p : Nat) : Nat :=
  match seg? l sgCSLOT v c with
  | some g => leAt b (g.off + 512 * s + 4 * (2 * x + p)) 4
  | none => 0
def gslot (b : List Nat) (l : List Seg) (v c s e : Nat) : Nat :=
  match seg? l sgGSLOT v c with
  | some g => leAt b (g.off + 128 * s + 8 * e) 8
  | none => 0

/-- An initial value (R168): course, word, value, and where its record lies. -/
structure Init where
  x : Nat
  w : Nat
  v : Nat
  seg : Nat
  off : Nat
deriving DecidableEq, Repr

/-- Record offsets that a checked segment has. -/
def recs (s : Seg) (size : Nat) : List Nat := (records s size).getD []

/-- The initial values of a virtual cluster, in table order. -/
def inits (b : List Nat) (l : List Seg) (v c : Nat) : List Init :=
  ((segsOf l sgINIT v c).map (fun s => (recs s 8).map (fun o =>
    ⟨leAt b (s.off + o) 1, leAt b (s.off + o + 2) 2, leAt b (s.off + o + 4) 2 % 4096, s.idx, o⟩))).flatten

/-- Region k that a REGION segment declares: CTL, BASE and LIMIT (R167). -/
def region? (b : List Nat) (l : List Seg) (v c k : Nat) : Option (Nat × Nat × Nat) :=
  (seg? l sgREGION v c).map (fun s => (leAt b (s.off + 16 * k) 4, leAt b (s.off + 16 * k + 4) 4, leAt b (s.off + 16 * k + 8) 4))

/-- The bytes of the image space that an enabled region reaches, first and last (R204): from BASE to the end of LIMIT, or its circular window, whose
base is aligned to its size; none where it covers nothing. -/
def regionSpan (k : Nat) (r : Nat × Nat × Nat) : Option (Nat × Nat) :=
  let s := bits r.1 12 8
  if !(r.1.testBit 31) then none
  else if r.1.testBit 30 && decide (k < 4) then
    (if 6 ≤ s ∧ s ≤ 22 then some (r.2.1 * 64 / 2 ^ s * 2 ^ s, r.2.1 * 64 / 2 ^ s * 2 ^ s + 2 ^ s - 1) else none)
  else if r.2.1 ≤ r.2.2 then some (r.2.1 * 64, r.2.2 * 64 + 63) else none

/-- What region k of a virtual cluster reaches, where it is declared. -/
def regionAt (b : List Nat) (l : List Seg) (v c k : Nat) : Option (Nat × Nat) :=
  if 7 < k then none else (region? b l v c k).bind (regionSpan k)

/-- The declaration of region k that HBMC.FREG[k] takes: that of the lowest used virtual cluster which declares region k beyond the scratchpad, where
only the memory engine reaches it. DESIGN CHOICE (log 40). -/
def freg? (b : List Nat) (l : List Seg) (v k : Nat) : Option (Nat × Nat × Nat) :=
  (used b v).findSome? (fun c => match region? b l v c k with
    | some r => if r.1.testBit 31 && decide (0x20000 ≤ r.2.1) then some r else none
    | none => none)

/-- A QMAP record: queue, BLANE, WIDTH and VC (R357). -/
def qmaps (b : List Nat) (l : List Seg) (v : Nat) : List (Nat × Nat × Nat × Nat) :=
  match seg? l sgQMAP v 0xFF with
  | some s => (recs s 8).map (fun o =>
      (leAt b (s.off + o) 1, leAt b (s.off + o + 1) 1 % 32, leAt b (s.off + o + 2) 1 % 4, leAt b (s.off + o + 3) 1 % 16))
  | none => []

/-- The class register and the credit pool that a CALLMAP gives (R254). -/
def callClass (b : List Nat) (l : List Seg) (v k : Nat) : Nat :=
  match seg? l sgCALLMAP v 0xFF with
  | some s => leAt b (s.off + 4 * k) 4
  | none => 0
def callPool (b : List Nat) (l : List Seg) (v c : Nat) : Nat :=
  match seg? l sgCALLMAP v 0xFF with
  | some s => leAt b (s.off + 0x100 + c) 1
  | none => 0
def callWord (b : List Nat) (l : List Seg) (v o : Nat) : Nat :=
  match seg? l sgCALLMAP v 0xFF with
  | some s => leAt b (s.off + o) 4
  | none => 0

/-- A PINMAP record with its place in the segment; `ready` and `level` are of inputs. The record names its cluster in WORD bits [13:10].
DESIGN CHOICE (log 42). -/
structure PinMap where
  pin : PinRec
  ready : Bool
  level : Nat
  seg : Nat
  off : Nat
deriving DecidableEq, Repr

def pins (b : List Nat) (l : List Seg) (v : Nat) : List PinMap :=
  match seg? l sgPINMAP v 0xFF with
  | some s => (recs s 8).map (fun o =>
      let a := s.off + o
      let m := leAt b (a + 1) 1
      let w := leAt b (a + 6) 2
      ⟨⟨m.testBit 0, leAt b a 1, w / 1024 % 16, leAt b (a + 4) 1, w % 1024, leAt b (a + 5) 1, leAt b (a + 2) 2, bits m 3 3⟩,
        m.testBit 1, bits m 2 2, s.idx, o⟩)
  | none => []

/-- PROBE records: offset, value, and their place. -/
def probes (b : List Nat) (l : List Seg) (v : Nat) : List (Nat × Nat × Nat) :=
  match seg? l sgPROBE v 0xFF with
  | some s => (recs s 8).map (fun o => (leAt b (s.off + o) 4, leAt b (s.off + o + 4) 4, o))
  | none => []

/-- Wait hints of a virtual cluster: fret and entry. -/
def hints (b : List Nat) (l : List Seg) (v c : Nat) : List (Nat × Nat) :=
  ((segsOf l sgWHINT v c).map (fun s => (recs s 8).map (fun o => (leAt b (s.off + o) 1, leAt b (s.off + o + 4) 4)))).flatten

/-- A MEMINIT record (R167): where its data goes in the image space, none where its region is not declared or does not hold them; the data; and its
place. -/
structure MemInit where
  at_ : Option Nat
  data : List Nat
  seg : Nat
  off : Nat
deriving DecidableEq, Repr

/-- MEMINIT records of a virtual section in table order. -/
def memInits (b : List Nat) (l : List Seg) (v : Nat) : List MemInit :=
  ((segsOf l sgMEMINIT v 0xFF).map (fun s => ((memBlocks b s).getD []).map (fun e =>
    let h := s.off + e.1
    let o := leAt b (h + 4) 4
    let at_ := match regionAt b l v (leAt b (h + 2) 1) (leAt b h 2) with
      | some (lo, hi) => if lo + o + e.2 ≤ hi + 1 then some (lo + o) else none
      | none => none
    ⟨at_, span b (h + 16) e.2, s.idx, e.1⟩))).flatten

/-- TCM records of a virtual section: core mask, offset and data (R254). -/
def tcms (b : List Nat) (l : List Seg) (v : Nat) : List (Nat × Nat × List Nat) :=
  ((segsOf l sgTCM v 0xFF).map (fun s => ((tcmBlocks b s).getD []).map (fun e =>
    (leAt b (s.off + e.1) 1, leAt b (s.off + e.1 + 4) 4, span b (s.off + e.1 + 16) e.2)))).flatten

end Hvx

end Sys2Proof.Machine
end

