-- ==== Sys2Proof/Machine/Checks.lean ====
section
/-! DEFINITION. The loader's static checks of a placed image (R37 to R60, R63, R126, R164, R180, R188, R254, R278, R307, R358) and the
derivation of the wait tables (R181 to R187), both on virtual numbers. -/

namespace Sys2Proof.Machine

namespace Hvx

open Dev (opCount operandUse wordOperandBad portOk ttUse nop)

/-- A word op of a virtual section: cluster, course, step, stage and instruction. -/
structure OpAt where
  c : Nat
  x : Nat
  k : Nat
  stg : Nat
  i : Nat
deriving DecidableEq, Repr

/-- A read: cluster, course, word, the step it counts as, stage, PRI, and whether a slot entry makes it (R164). -/
structure ReadAt where
  c : Nat
  x : Nat
  w : Nat
  k : Nat
  stg : Nat
  pri : Nat
  slot : Bool
deriving DecidableEq, Repr

/-- Every place of an instruction row: cluster, course, step. -/
def places (b : List Nat) (v : Nat) : List (Nat × Nat × Nat) :=
  ((used b v).map (fun c => ((List.range 64).map (fun x => (List.range (period b)).map (fun k => (c, x, k)))).flatten)).flatten

/-- The word ops of a virtual section in the order of cluster, course and step. -/
def opsOf (b : List Nat) (l : List Seg) (v : Nat) : List OpAt :=
  (places b v).filterMap (fun p =>
    let is := insns b l v p.1 p.2.1 p.2.2
    if isWordOp (iOP (is.getD 0 0)) then some ⟨p.1, p.2.1, p.2.2, stageOf is, is.getD 0 0⟩ else none)

/-- The words operand k of an instruction reads: first word and count; none for constants, addresses and unused operands. -/
def operandRead (i k : Nat) : Nat × Nat :=
  let o := iOPD i k
  if isWordOp (iOP i) then
    let u := (operandUse (iOP i)).getD k 0
    (o / 16, if u = 2 then 1 else if u = 3 then opCount i else 0)
  else (o / 16, if iOP i = opNOP ∨ 12 ≤ o % 16 then 0 else 1)

/-- The reads of a virtual section's instructions and export entries (R100, R164). -/
def readsOf (b : List Nat) (l : List Seg) (v : Nat) : List ReadAt :=
  let ins := (places b v).map (fun p =>
    let is := insns b l v p.1 p.2.1 p.2.2
    (is.map (fun i => ((List.range 4).map (fun k =>
      let r := operandRead i k
      (List.range r.2).map (fun j => (⟨p.1, p.2.1, r.1 + j, p.2.2, stageOf is, iPRI i k, false⟩ : ReadAt)))).flatten)).flatten)
  let slots := (used b v).map (fun c => ((List.range (period b)).map (fun s => (List.range 16).filterMap (fun e =>
    let g := gslot b l v c s e
    if g.testBit 63 && decide (512 ≤ bits g 31 22) then
      some (⟨c, bits g 21 16, bits g 31 22, (s + 1) % period b, 0, 0, true⟩ : ReadAt) else none))).flatten)
  ins.flatten ++ slots.flatten

/-- An MRD with HOME = 0: its first destination word and count. -/
def isFar (o : OpAt) : Bool := iOP o.i == opMRD && !((iTT o.i).testBit 5)
def farDst (o : OpAt) : Nat := iOPD o.i 2 / 16

/-- The MRD with HOME = 0 that a read awaits, and whether it executes in the read's own period (R181). -/
def awaited (ops : List OpAt) (r : ReadAt) : Option (OpAt × Bool) :=
  let ms := ops.filter (fun o => isFar o && o.c == r.c && o.x == r.x && decide (farDst o ≤ r.w ∧ r.w < farDst o + opCount o.i))
  let latest := fun (l : List OpAt) => minBy (fun (o : OpAt) => 512 - o.k) l
  match latest (ms.filter (fun o => decide (o.k < r.k))) with
  | some o => some (o, true)
  | none => (latest ms).map (fun o => (o, false))

/-- A guarded read with the MRD it awaits. -/
structure Guard where
  r : ReadAt
  o : OpAt
  same : Bool
deriving DecidableEq, Repr

def guardsOf (ops : List OpAt) (rs : List ReadAt) : List Guard :=
  rs.filterMap (fun r => if r.w < 512 then none else (awaited ops r).map (fun p => ⟨r, p.1, p.2⟩))

/-- STG and PRI of the IMPORT entry of a guarded read (R182). -/
def guardStg (g : Guard) : Nat := if !g.r.slot then g.r.stg else if g.same then g.o.stg else 1
def guardPri (g : Guard) : Nat := if !g.r.slot then g.r.pri else if g.same then 0 else g.o.stg

/-- Everything the checks need of one virtual section. -/
structure View where
  v : Nat
  p : Nat
  ops : List OpAt
  reads : List ReadAt
  guards : List Guard
deriving DecidableEq, Repr

def view (b : List Nat) (l : List Seg) (v : Nat) : View :=
  let o := opsOf b l v
  let r := readsOf b l v
  ⟨v, period b, o, r, guardsOf o r⟩

def atOp (st v : Nat) (o : OpAt) : Rej := { st := st, vsec := v, vcl := o.c, course := o.x, bp := 0, step := o.k }
def atStepOf (st v c x k : Nat) : Rej := { st := st, vsec := v, vcl := c, course := x, step := k }

/-! ### Encoding and stage (R37 to R57) -/

/-- ENCODING or STAGE of one BP's instruction. -/
def insnCode (p : Nat) (is : List Nat) (bp : Nat) : Option Nat :=
  let i := is.getD bp 0
  let op := iOP i
  let gangOps := fun g => (List.range 4).all (fun m => iOP (is.getD (6 * g + m) 0) == opMUXG) && iOP (is.getD (6 * g + 4) 0) == opMUXR
  let muxBad := (op == opMUXG && !(decide (bp % 6 < 4) && gangOps (bp / 6))) || (op == opMUXR && !(decide (bp % 6 = 4) && gangOps (bp / 6)))
  if !(iparOk i) || bits i 88 88 != 0 || bits i 77 72 != 0 || !(decide (op ≤ 4) || isWordOp op) then some ldENCODING
  else if op != opNOP && iSTG i != stageOf is then some ldSTAGE
  else if muxBad || (isWordOp op && bp != 0) then some ldENCODING
  else if op = opNOP then (if (nop i).fault.isSome then some ldENCODING else none)
  else if isWordOp op then
    if (List.range 4).any (fun k => wordOperandBad p i k) || !(portOk op (iPORT i)) || iTT i &&& (0xFFFF - ttUse op) != 0 then some ldENCODING
    else none
  else if (badOperand p i).isSome || iPORT i != 0 || (op == opLUT4E && bits (iTT i) 15 8 != 0) || (op == opMUXR && iTT i != 0) then
    some ldENCODING
  else none

def encodingRej (b : List Nat) (l : List Seg) (v : Nat) : Option Rej :=
  (places b v).findSome? (fun p =>
    let is := insns b l v p.1 p.2.1 p.2.2
    (List.range 12).findSome? (fun bp =>
      (insnCode (period b) is bp).map (fun c => { st := c, vsec := v, vcl := p.1, course := p.2.1, bp := bp, step := p.2.2 })))

/-! ### Limits (R58, R60, R164) -/

/-- Whether two word ops of one step count toward one limit. -/
def sameLimit (o q : OpAt) : Bool :=
  let n := limitOf o.i
  o.k == q.k && n != 0 && n == limitOf q.i && (decide (4 ≤ n) || o.c == q.c)

/-- A scheduled return on RET: cluster, course, first word, words, the step in which it is written counted from the period of its issue, and the
stage of what it carries. -/
structure RetAt where
  c : Nat
  x : Nat
  w : Nat
  n : Nat
  at_ : Nat
  stg : Nat
deriving DecidableEq, Repr

/-- The scheduled returns of a virtual section (R59, R60, R523). -/
def returnsOf (b : List Nat) (l : List Seg) (w : View) : List RetAt :=
  (w.ops.filterMap (fun o =>
    if iOP o.i = opQRD then some ⟨o.c, o.x, iOPD o.i 0 / 16, opCount o.i, o.k + 3, o.stg⟩
    else if iOP o.i = opMRD ∧ (iTT o.i).testBit 5 then some ⟨o.c, o.x, iOPD o.i 2 / 16, opCount o.i, o.k + 5, o.stg⟩
    else none)) ++
  (pins b l w.v).filterMap (fun m => if m.pin.output then none else some ⟨m.pin.cl, m.pin.crs, m.pin.word, 1, m.pin.step, m.pin.stg⟩)

def limitRej (b : List Nat) (l : List Seg) (w : View) : Option Rej :=
  let counted := fun (o : OpAt) => [opQRD, opQWR, opCALL].contains (iOP o.i)
  let rs := returnsOf b l w
  firstRej [
    (w.ops.find? (fun o => (counted o && decide (w.p ≤ o.k + 8)) ||
      w.ops.any (fun q => sameLimit o q && decide (q.c * 64 + q.x < o.c * 64 + o.x)))).map (atOp ldLIMIT w.v),
    (rs.zipIdx.find? (fun r => (rs.take r.2).any (fun q => q.c == r.1.c && q.x == r.1.x && q.at_ % w.p == r.1.at_ % w.p))).map
      (fun r => atStepOf ldLIMIT w.v r.1.c r.1.x (r.1.at_ % w.p))]

/-! ### Slot tables (R99, R108, R110, R126, R549) -/

/-- A write into an import area: section, cluster, course, word, step, and where its entry stands. -/
structure WriteAt where
  v : Nat
  c : Nat
  x : Nat
  w : Nat
  k : Nat
  gb : Option Nat           -- GB port of an arrival
  bridge : Option (Nat × Nat)   -- sending section and read step of a bridge word
  place : Rej
deriving DecidableEq, Repr

/-- Rejections and writes of the cluster slot entries of a virtual section. -/
def cslotWrites (b : List Nat) (l : List Seg) (v : Nat) : List (Option Rej × Option WriteAt) :=
  let p := period b
  ((used b v).map (fun c => ((List.range p).map (fun s => ((List.range 64).map (fun x => (List.range 2).map (fun q =>
    let e := cslot b l v c s x q
    let r := atStepOf ldSLOT v c x s
    if bits e 15 9 != 0 || (e.testBit 31 && decide (p ≤ bits e 24 16)) then (some r, none)
    else if e.testBit 31 then (none, some ⟨v, c, x, 512 + bits e 8 0, (s + 2) % p, none, none, r⟩)
    else (none, none)))).flatten)).flatten)).flatten

/-- Rejections and writes of its export entries. -/
def gslotWrites (b : List Nat) (l : List Seg) (v : Nat) : List (Option Rej × Option WriteAt) :=
  let p := period b
  ((used b v).map (fun c => ((List.range p).map (fun s => (List.range 16).map (fun e =>
    let g := gslot b l v c s e
    let br := g.testBit 39
    let dsec := bits g 38 36
    let sw := bits g 31 22
    let r := atStepOf ldSLOT v c (bits g 21 16) s
    let dv := if br then dsec else v
    if bits g 62 40 != 0 || (!br && dsec != 0) then (some r, none)
    else if !(g.testBit 63) then (none, none)
    else if p ≤ sw ∧ sw < 512 then (some r, none)
    else if br && decide (nvsec b ≤ dsec) then (some { r with st := ldBRIDGE }, none)
    else if (br && dsec == v) || !(isUsed b dv (bits g 35 32)) then (some r, none)
    else (none, some ⟨dv, bits g 35 32, bits g 15 10, 512 + bits g 8 0, (s + if br then 15 else 7) % p, some (bits g 9 9),
      if br then some (v, (s + 1) % p) else none, r⟩)))).flatten)).flatten

/-- SLOT and BRIDGE over the whole image: the entries first, then the collisions and capacities of R126. -/
def slotRej (b : List Nat) (l : List Seg) (ws : List View) : Option Rej :=
  let es := (ws.map (fun w => cslotWrites b l w.v ++ gslotWrites b l w.v)).flatten
  let rets := (ws.map (fun w => ((returnsOf b l w).map (fun r => (List.range r.n).map (fun i =>
    (⟨w.v, r.c, r.x, r.w + i, r.at_ % w.p, none, none, atStepOf ldSLOT w.v r.c r.x (r.at_ % w.p)⟩ : WriteAt)))).flatten)).flatten
  let all := rets ++ es.filterMap (fun e => e.2)
  let clash := fun (x : WriteAt) (before : List WriteAt) =>
    before.any (fun y => y.v == x.v && y.c == x.c && y.x == x.x && y.w == x.w && y.k == x.k) ||
    (x.gb.isSome && before.any (fun y => y.gb == x.gb && y.v == x.v && y.c == x.c && y.x == x.x && y.k == x.k)) ||
    (x.gb.isSome && decide (16 ≤ (before.filter (fun y => y.gb.isSome && y.v == x.v && y.c == x.c && y.k == x.k)).length)) ||
    (x.bridge.isSome && decide (8 ≤ (before.filter (fun y => y.bridge == x.bridge && y.v == x.v)).length))
  firstRej [es.findSome? (fun e => e.1),
    (all.zipIdx.find? (fun e => clash e.1 (all.take e.2))).map (fun e => e.1.place)]

/-! ### Windows, queues, classes (R63, R164, R191, R252, R358) -/

/-- Whether bytes `lo` to `hi` of the image space lie in it, on one side of the scratchpad's end and below the reserve (R180, R191). -/
def fits (lo hi : Nat) : Bool := decide (hi ≤ 0xF03FFFFF) && (decide (hi < 0x800000) || decide (0x800000 ≤ lo))

/-- Whether an enabled region breaks R180 or R191, or its circular window reaches beyond the region's LIMIT (R189). -/
def regionBad (k : Nat) (r : Nat × Nat × Nat) : Bool :=
  r.1.testBit 31 && (!(fits (r.2.1 * 64) (r.2.2 * 64 + 63)) ||
    (match regionSpan k r with | some (lo, hi) => !(fits lo hi) || decide (r.2.2 * 64 + 63 < hi) | none => false))

def windowRej (b : List Nat) (l : List Seg) (w : View) : Option Rej :=
  let declared := fun c k => match region? b l w.v c k with | some (ctl, _, _) => ctl.testBit 31 | none => false
  firstRej [
    ((used b w.v).findSome? (fun c => (seg? l sgREGION w.v c).bind (fun s => (List.range 8).findSome? (fun k =>
      match region? b l w.v c k with
      | some r => rejIf (regionBad k r) (atSeg ldWINDOW s (16 * k))
      | none => none)))),
    ((memInits b l w.v).find? (fun m => m.at_.isNone)).map (fun m => { st := ldWINDOW, vsec := w.v, seg := m.seg, off := m.off }),
    (w.ops.find? (fun o => (iOP o.i == opMRD || iOP o.i == opMWR) && !(declared o.c (iPORT o.i)))).map (atOp ldWINDOW w.v)]

/-- `lanes v blane width` says whether the lanes named have that BWIDTH (R358). -/
def queueRej (b : List Nat) (l : List Seg) (lanes : Nat → Nat → Nat → Bool) (w : View) : Option Rej :=
  let qs := qmaps b l w.v
  let out := fun q => decide ((16 ≤ q ∧ q ≤ 31) ∨ (48 ≤ q ∧ q ≤ 55))
  let chan := fun (r : Nat × Nat × Nat × Nat) => (out r.1, r.2.1, decide (48 ≤ r.1), r.2.2.2)
  firstRej [
    (qs.zipIdx.find? (fun e =>
      e.1.2.1 % 2 ^ e.1.2.2.1 != 0 || !(lanes w.v e.1.2.1 e.1.2.2.1) ||
      (qs.take e.2).any (fun r => r.1 == e.1.1 || chan r == chan e.1))).bind
      (fun e => (seg? l sgQMAP w.v 0xFF).map (fun s => atSeg ldQUEUE s (8 * e.2))),
    (w.ops.find? (fun o => (iOP o.i == opQRD || iOP o.i == opQWR) && decide (16 ≤ iPORT o.i ∧ iPORT o.i ≤ 61) &&
      !(qs.any (fun r => r.1 == iPORT o.i)))).map (atOp ldQUEUE w.v)]

/-- All queue ops that name one queue carry one stage (R164). -/
def queueStageRej (w : View) : Option Rej :=
  let qop := fun (o : OpAt) => iOP o.i == opQRD || iOP o.i == opQWR
  (w.ops.find? (fun o => qop o && (match w.ops.find? (fun q => qop q && iPORT q.i == iPORT o.i) with
    | some q => q.stg != o.stg | none => false))).map (atOp ldSTAGE w.v)

def classRej (b : List Nat) (l : List Seg) (w : View) : Option Rej :=
  (w.ops.find? (fun o => iOP o.i == opCALL && (!((callClass b l w.v (iPORT o.i)).testBit 31) ||
    callClass b l w.v (iPORT o.i) % 256 == 0))).map (atOp ldCALLCLASS w.v)

/-- Credit pools above 256 (R252), and probes in unused clusters or twice at one cluster and step (R278, R307). -/
def capacityRej (b : List Nat) (l : List Seg) (w : View) : Option Rej :=
  let ps := (probes b l w.v).filter (fun r => decide (0x1000 ≤ r.1))
  let key := fun (r : Nat × Nat × Nat) => (bits r.2.1 29 26, bits r.2.1 8 0)
  let seg := (seg? l sgPROBE w.v 0xFF).map Seg.idx
  firstRej [
    (seg? l sgCALLMAP w.v 0xFF).bind (fun s =>
      rejIf (decide (256 < (List.range 16).foldl (fun a c => a + callPool b l w.v c) 0)) (atSeg ldCAPACITY s 0x100)),
    (ps.zipIdx.find? (fun e => !(isUsed b w.v (bits e.1.2.1 29 26)) ||
      (ps.take e.2).any (fun q => q.1 != e.1.1 && key q == key e.1))).map
      (fun e => { st := ldCAPACITY, vsec := w.v, vcl := bits e.1.2.1 29 26, step := bits e.1.2.1 8 0, seg := seg.getD 0xFFFF, off := e.1.2.2 })]

/-! ### Order and initial values (R94, R164, R180) -/

def orderRej (w : View) : Option Rej :=
  let far := w.ops.filter isFar
  firstRej [
    (w.guards.find? (fun g =>
      let f := g.r.k / 16
      if g.same then decide (16 * f < g.o.k + 9) else f == 0 && decide (w.p < g.o.k + 9))).map
      (fun g => atStepOf ldORDER w.v g.r.c g.r.x g.r.k),
    (far.find? (fun o => (List.range (opCount o.i)).any (fun j =>
      let word := farDst o + j
      let same := far.filter (fun q => q.c == o.c && q.x == o.x && decide (farDst q ≤ word ∧ word < farDst q + opCount q.i))
      let next := (minOf ((same.map (fun q => if o.k < q.k then q.k else q.k + w.p)))).getD (o.k + w.p)
      !(w.guards.any (fun g => g.o == o && decide ((if g.same then g.r.k else g.r.k + w.p) ≤ next)))))).map
      (fun o => atStepOf ldORDER w.v o.c o.x o.k)]

/-- Whether a step of a course is a step of stage 1 as the image holds it. -/
def stageAt (b : List Nat) (l : List Seg) (v c x k : Nat) : Nat := stageOf (insns b l v c x k)

/-- Where a word that is written into an import area in every period comes from: an op or a pin of a stage, or a slot entry's source word, as
section, cluster, course, word and the step that reads it. -/
inductive Source where
  | stage (s : Nat)
  | word (v c x w k : Nat)
deriving DecidableEq, Repr

/-- A word of an import area that is written in every period, and the step of the write counted from the period of its source. -/
structure Feed where
  v : Nat
  c : Nat
  x : Nat
  w : Nat
  at_ : Nat
  src : Source
deriving DecidableEq, Repr

/-- The feeds of a virtual section: its scheduled returns, its cluster slots and its export entries (R59, R100, R523). -/
def feedsOf (b : List Nat) (l : List Seg) (w : View) : List Feed :=
  let rows := ((used b w.v).map (fun c => (List.range w.p).map (fun s => (c, s)))).flatten
  let rets := (returnsOf b l w).map (fun r => (List.range r.n).map (fun i => (⟨w.v, r.c, r.x, r.w + i, r.at_, .stage r.stg⟩ : Feed)))
  let cs := rows.map (fun p => (List.range 128).filterMap (fun i =>
    let e := cslot b l w.v p.1 p.2 (i / 2) (i % 2)
    if e.testBit 31 then some (⟨w.v, p.1, i / 2, 512 + bits e 8 0, p.2 + 2, .word w.v p.1 (bits e 30 25) (bits e 24 16) (p.2 + 1)⟩ : Feed)
    else none))
  let gs := rows.map (fun p => (List.range 16).filterMap (fun e =>
    let g := gslot b l w.v p.1 p.2 e
    let br := g.testBit 39
    if g.testBit 63 then
      some (⟨if br then bits g 38 36 else w.v, bits g 35 32, bits g 15 10, 512 + bits g 8 0, p.2 + if br then 15 else 7,
        .word w.v p.1 (bits g 21 16) (bits g 31 22) (p.2 + 1)⟩ : Feed)
    else none))
  (rets ++ cs ++ gs).flatten

/-- The feeds of one word. -/
def feedsTo (fs : List Feed) (v c x w : Nat) : List Feed := fs.filter (fun f => f.v == v && f.c == c && f.x == x && f.w == w)

/-- How many cycles the value that a read at step k of period J finds in a word lies behind J, once the run is under way (R92, R93): a result word
holds the value of its stage, one period older where it is written at or after the step; an import word holds what the last write before the step
brought. None where nothing writes the word, or where exports that feed on each other go beyond `fuel`. -/
def heldBehind (b : List Nat) (l : List Seg) (p : Nat) (fs : List Feed) : Nat → Nat → Nat → Nat → Nat → Nat → Option Nat
  | 0, _, _, _, _, _ => none
  | fuel + 1, v, c, x, w, k =>
    if w < 512 then some (stageAt b l v c x w + b2n (decide (k ≤ w)))
    else match minBy (fun (f : Feed) => (k + 2 * p - 1 - f.at_ % p) % p) (feedsTo fs v c x w) with
      | none => none
      | some f =>
        let back := if f.at_ < k then 0 else (f.at_ - k) / p + 1
        match f.src with
        | .stage s => some (back + s)
        | .word v' c' x' w' k' => (heldBehind b l p fs fuel v' c' x' w' k').map (back + ·)

/-- Whether a read with PRI is correct and reaches its word before the run has written it (R93, R94): the word then holds the value of the cycle
before the reader's, and no write of the run falls before the read's first execution. Slots write from the run's first period on, ops and pins from
the first period of their stage. -/
def needsInit (b : List Nat) (l : List Seg) (p : Nat) (fs : List Feed) (v : Nat) (r : ReadAt) : Bool :=
  let start := fun (f : Feed) => match f.src with | .stage s => p * s + f.at_ | .word .. => f.at_
  !r.slot && r.pri == 1 && heldBehind b l p fs 16 v r.c r.x r.w r.k == some (r.stg + 1) &&
    (feedsTo fs v r.c r.x r.w).all (fun f => decide (p * r.stg + r.k ≤ start f))

def initRej (b : List Nat) (l : List Seg) (fs : List Feed) (w : View) : Option Rej :=
  let ini := fun c => inits b l w.v c
  let have_ := fun c x wd => (ini c).any (fun e => e.x == x && e.w == wd)
  let needImport := fun (g : Guard) =>
    (guardStg g == 0 && !(g.same && g.o.stg == 0)) || (guardStg g == 1 && !g.same && g.o.stg == 1)
  let needGuarded := fun (g : Guard) => !g.r.slot && g.r.pri == 1 && (g.o.stg + if g.same then 0 else 1) == g.r.stg + 1
  firstRej [
    (used b w.v).findSome? (fun c => ((ini c).zipIdx.find? (fun e =>
      ((ini c).take e.2).any (fun q => q.x == e.1.x && q.w == e.1.w))).map
      (fun e => { st := ldINITVAL, vsec := w.v, vcl := c, course := e.1.x, seg := e.1.seg, off := e.1.off })),
    (w.guards.find? (fun g => needImport g && !(have_ g.o.c g.o.x (farDst g.o)))).map (fun g => atStepOf ldINITVAL w.v g.r.c g.r.x g.r.k),
    (w.guards.find? (fun g => needGuarded g && !(have_ g.r.c g.r.x g.r.w))).map (fun g => atStepOf ldINITVAL w.v g.r.c g.r.x g.r.k),
    (w.reads.find? (fun r => needsInit b l w.p fs w.v r && !(have_ r.c r.x r.w))).map (fun r => atStepOf ldINITVAL w.v r.c r.x r.k),
    ((places b w.v).find? (fun p => (insns b l w.v p.1 p.2.1 p.2.2).any (fun i =>
      iOP i == opLUT4E && iOPD i 3 != 13) && !(have_ p.1 p.2.1 p.2.2))).map (fun p => atStepOf ldINITVAL w.v p.1 p.2.1 p.2.2)]

/-- Two outputs on one cell, or a cell that is both input and output (R188, R526). -/
def pinRej (b : List Nat) (l : List Seg) (w : View) : Option Rej :=
  let ps := pins b l w.v
  (ps.zipIdx.find? (fun e => (ps.take e.2).any (fun q => q.pin.cell == e.1.pin.cell && (q.pin.output || e.1.pin.output)))).map
    (fun e => { st := ldPIN, vsec := w.v, seg := e.1.seg, off := e.1.off })

/-- Every static check of a placed and relocated image, in the order of the codes of R188. DESIGN CHOICE (log 43): the manual does not order them. -/
def staticRej (b : List Nat) (l : List Seg) (lanes : Nat → Nat → Nat → Bool) (ws : List View) : Option Rej :=
  let onEach := fun (f : View → Option Rej) => ws.findSome? f
  let fs := (ws.map (feedsOf b l)).flatten
  firstRej [contentsRej b, onEach (capacityRej b l), onEach (fun w => encodingRej b l w.v), onEach queueStageRej, onEach (limitRej b l), slotRej b l ws,
    onEach (windowRej b l), onEach (queueRej b l lanes), onEach (classRej b l), onEach orderRej, onEach (initRej b l fs), onEach (pinRej b l)]

/-! ### Wait tables (R181 to R187) -/

/-- A number put into a rising list without repeats. -/
def insertNat (a : Nat) : List Nat → List Nat
  | [] => [a]
  | x :: r => if a < x then a :: x :: r else if a = x then x :: r else x :: insertNat a r

def waitV : Nat := 2 ^ 31

/-- The IMPORT entries of a cluster in a fret, by (COURSE, WORD, STG, PRI) (R181, R182). -/
def importEntries (w : View) (c f : Nat) : List Nat :=
  let ks := (w.guards.filter (fun g => g.r.c == c && g.r.k / 16 == f)).foldl (fun a g =>
    insertNat (g.r.x * 2 ^ 11 + (farDst g.o - 512) * 4 + guardStg g * 2 + guardPri g) a) []
  ks.map (fun k => waitV + k / 2 % 2 * 2 ^ 27 + k / 2 ^ 11 * 2 ^ 21 + k / 4 % 512 * 2 ^ 12 + k % 2 * 2 ^ 11)

/-- The ops of a kind in the window of a fret (R183, R184). -/
def inWindow (w : View) (f : Nat) : List OpAt := w.ops.filter (fun o => decide (16 * f ≤ o.k + 8 ∧ o.k ≤ 16 * f + 15))

/-- The CREDIT entries of a cluster in a fret (R184). -/
def creditEntries (w : View) (c f : Nat) : List Nat :=
  let cs := (inWindow w f).filter (fun o => iOP o.i == opCALL && o.c == c)
  (List.range 2).filterMap (fun s =>
    if cs.any (fun o => o.stg == s) then some (waitV + 4 * 2 ^ 28 + s * 2 ^ 27 + cs.length % 256) else none)

/-- The QDATA and QSPACE entries of a fret, by queue (R183). -/
def queueEntries (w : View) (f op typ : Nat) : List Nat :=
  (List.range 64).filterMap (fun q =>
    let os := (inWindow w f).filter (fun o => iOP o.i == op && iPORT o.i == q)
    let n := os.foldl (fun a o => a + opCount o.i) 0
    match os with
    | [] => none
    | o :: _ => some (waitV + typ * 2 ^ 28 + o.stg * 2 ^ 27 + q * 2 ^ 21 + n))

/-- The PIN entries of a fret, by cell (R185). -/
def pinEntries (b : List Nat) (l : List Seg) (v f : Nat) : List Nat :=
  ((List.range 12).map (fun c => ((pins b l v).filter (fun m =>
    !m.pin.output && m.ready && m.pin.cell == c && m.pin.step / 16 == f)).map (fun m =>
      waitV + 5 * 2 ^ 28 + m.pin.stg * 2 ^ 27 + m.level * 16 + c))).flatten

/-- Rows of a fret, by physical cluster. -/
abbrev Rows := List (Nat × List Nat)

/-- An entry appended to the row with the fewest entries, the lowest cluster on ties (R186). -/
def addShared (rows : Rows) (e : Nat) : Rows :=
  match minBy (fun (r : Nat × List Nat) => r.2.length * 16 + r.1) rows with
  | some m => rows.map (fun r => if r.1 = m.1 then (r.1, r.2 ++ [e]) else r)
  | none => rows

/-- The derived rows of a fret; `perm` gives the physical cluster of a virtual one. -/
def derived (b : List Nat) (l : List Seg) (perm : Nat → Nat) (w : View) (f : Nat) : Rows :=
  let vs := used b w.v
  let rows := (List.range 16).filterMap (fun pc =>
    (vs.find? (fun c => perm c == pc)).map (fun c => (pc, importEntries w c f ++ creditEntries w c f)))
  (queueEntries w f opQRD 1 ++ queueEntries w f opQWR 2 ++ pinEntries b l w.v f).foldl addShared rows

/-- Whether a hint breaks R150 or the format of R168. -/
def hintBad (p f e : Nat) : Bool :=
  let t := bits e 30 28
  let q := bits e 26 21
  !(e.testBit 31) || decide (p / 16 ≤ f) || decide (6 ≤ t) ||
  (t == 0 && bits e 10 0 != 0) || ((t == 1 || t == 2 || t == 3) && bits e 20 12 != 0) || (t == 4 && bits e 26 8 != 0) ||
  (t == 5 && (bits e 26 5 != 0 || decide (11 < bits e 3 0))) ||
  ((t == 1 || t == 3) && !(portOk opQRD q)) || (t == 2 && !(portOk opQWR q))

/-- Whether a hint is already served by a compared row, or by a derived entry of it (R187). -/
def hintServed (e : Nat) (row der : List Nat) : Bool :=
  let t := bits e 30 28
  row.any (fun x => x % 2 ^ 31 == e % 2 ^ 31) ||
  der.any (fun x => bits x 30 27 == bits e 30 27 &&
    (((t == 1 || t == 2) && bits x 26 21 == bits e 26 21 && decide (bits e 11 0 ≤ bits x 11 0)) ||
      (t == 4 && decide (bits e 7 0 ≤ bits x 7 0))))

/-- The tables of one virtual section: rows by fret, and hints dropped for want of room. -/
structure Tables where
  rows : List Rows
  drop : Nat
deriving DecidableEq, Repr

/-- One hint of virtual cluster c applied (R187). -/
def addHint (ders : List Rows) (pc : Nat) (t : Tables) (h : Nat × Nat) : Tables :=
  let typ := bits h.2 30 28
  let rows := t.rows.getD h.1 []
  let der := ders.getD h.1 []
  let sel := fun (r : Nat × List Nat) => decide (typ = 1 ∨ typ = 2 ∨ typ = 3 ∨ typ = 5) || r.1 == pc
  let own := ((rows.find? (fun r => r.1 == pc)).map (fun r => r.2)).getD []
  if hintServed h.2 ((rows.filter sel).map (fun r => r.2)).flatten ((der.filter sel).map (fun r => r.2)).flatten then t
  else if own.length < 8 then
    { t with rows := modNth (fun rs => rs.map (fun r => if r.1 = pc then (r.1, r.2 ++ [h.2]) else r)) h.1 t.rows }
  else { t with drop := t.drop + 1 }

/-- The wait tables of a virtual section, or the rejection (R186, R187). -/
def waitTables (b : List Nat) (l : List Seg) (perm : Nat → Nat) (w : View) : Tables ⊕ Rej :=
  let ders := (List.range (w.p / 16)).map (derived b l perm w)
  let full := ders.zipIdx.findSome? (fun d => (d.1.find? (fun r => decide (8 < r.2.length))).map (fun r => (r.1, d.2)))
  let vc := fun pc => ((used b w.v).find? (fun c => perm c == pc)).getD 0xFF
  match full with
  | some (pc, f) => .inr { st := ldWAIT, vsec := w.v, vcl := vc pc, step := f }
  | none =>
    let hs := ((used b w.v).map (fun c => (hints b l w.v c).map (fun h => (c, h)))).flatten
    match hs.find? (fun h => hintBad w.p h.2.1 h.2.2) with
    | some h => .inr { st := ldWAIT, vsec := w.v, vcl := h.1, step := h.2.1 }
    | none => .inl (hs.foldl (fun t h => addHint ders (perm h.1) t h.2) ⟨ders, 0⟩)

/-- The largest row of a section's tables. -/
def Tables.max (t : Tables) : Nat :=
  t.rows.foldl (fun a r => r.foldl (fun a x => Nat.max a x.2.length) a) 0

end Hvx

end Sys2Proof.Machine
end

