-- ==== Sys2Proof/Machine/HostQueue.lean ====
section
/-! DEFINITION. The order in which a function's commands begin and end (R414, R427). -/

namespace Sys2Proof.Machine

namespace Dev

/-- The command of function f that is next to begin. -/
def frontCmd (d : Dev) (f : Nat) : Option HostCmd := d.getFn f none (fun h => h.queued.head?)

/-- It leaves the commands that wait to begin. -/
def popCmd (d : Dev) (f : Nat) : Dev := d.fn f (fun h => { h with queued := h.queued.tail })

/-- The next command of function f when it has the given OPC. -/
def frontIs (d : Dev) (f opc : Nat) : Option HostCmd :=
  match d.frontCmd f with
  | some c => if c.opc = opc then some c else none
  | none => none

/-- A short command completes: it leaves the queue, and its completion is written. -/
def finish (d : Dev) (f : Nat) (c : HostCmd) (status : Nat) (data : List Nat) : Dev := (d.popCmd f).complete f c.cid status data

/-- The next command of function f when it satisfies `p` and no long command runs: it becomes the long command (R427). -/
def takeLong (d : Dev) (f : Nat) (p : HostCmd → Bool) : Option (Dev × HostCmd) :=
  match d.getFn f none (fun h => h.long), d.frontCmd f with
  | none, some x => if p x then some ((d.popCmd f).fn f (fun h => { h with long := some x }), x) else none
  | _, _ => none

/-- The long command of function f completes. -/
def finishLong (d : Dev) (f cid status : Nat) (data : List Nat) : Dev :=
  (d.fn f (fun h => { h with long := none })).complete f cid status data

end Dev

end Sys2Proof.Machine
end

