-- ==== Sys2Proof/Machine/Banks.lean ====
section
/-! DEFINITION. Scratchpad bank power (R209 to R211, R221). -/

namespace Sys2Proof.Machine

namespace Dev

/-- Target of bank b: 0 ON, 1 RET, 2 OFF (R211). -/
def bankTarget (d : Dev) (n b : Nat) : Nat := min 2 (d.fd (Reg.SPAD.BANKPWR.of n) (2 * b + 1) (2 * b))

/-- A bank whose target differs from its state is fenced and begins its transition, unless one is in progress (R209, R210, R221). -/
def bankStart (d : Dev) (n b : Nat) : Dev :=
  let st := Reg.SPAD.BANKSTAT.of n
  let cur := d.fd st (2 * b + 1) (2 * b)
  let tgt := d.bankTarget n b
  if cur = 3 ∨ cur = tgt then d
  else
    let d := d.when (cur == 0) (fun d => d.wb (Reg.SNOC.FSTAT.of n) b true)
    (d.wf st (2 * b + 1) (2 * b) 3).mem n (fun m => { m with bankMove := Sparse.put b (cur, tgt) m.bankMove })

/-- BANKPWR_WRITE. -/
def bankpwrWrite (d : Dev) (n v : Nat) : Dev :=
  (d.wr (Reg.SPAD.BANKPWR.of n) v).each (List.range 16) (fun b d => d.bankStart n b)

/-- Contents of bank b are lost, and read as the scrub leaves them when it is ON again (R209). -/
def bankClear (d : Dev) (n b : Nat) : Dev :=
  d.mem n (fun m => { m with
    spad := Sparse.keep (fun a => bankOf a != b) m.spad
    spadTag := Sparse.keep (fun l => bankOf (64 * l) != b) m.spadTag })

/-- BANK_POWER_DONE: the transition in progress completes; one to or from OFF leaves scrubbed contents. A target written during it is
then taken (R209, R221), and the fence of a bank that is ON again is lifted (R452). -/
def bankDone (d : Dev) (n b : Nat) : Dev :=
  match d.getSec n none (fun s => Sparse.find b s.mem.bankMove) with
  | none => d
  | some (old, new) =>
    let d := (d.wf (Reg.SPAD.BANKSTAT.of n) (2 * b + 1) (2 * b) new).mem n (fun m => { m with bankMove := Sparse.drop b m.bankMove })
    let d := d.when (new == 0) (fun d => d.wb (Reg.SNOC.FSTAT.of n) b false)
    (d.when (old == 2 || new == 2) (fun d => d.bankClear n b)).bankStart n b

/-- Every bank goes to OFF with the section (R211). -/
def banksOff (d : Dev) (n : Nat) : Dev :=
  let d := (d.wr (Reg.SPAD.BANKPWR.of n) 0xAAAAAAAA).wr (Reg.SPAD.BANKSTAT.of n) 0xAAAAAAAA
  d.mem n (fun m => { m with spad := [], spadTag := [], bankMove := [] })

end Dev

end Sys2Proof.Machine
end

