-- ==== Sys2Proof/Machine/Fabric.lean ====
section
/-! DEFINITION. The fabric interconnect (R99 to R126) and the RET port (R60, R80 to R84): source reads, capacities, ranking and writes;
the windows onto data stores, instruction stores and tables; clock regions and cluster resets (R127 to R132). -/

namespace Sys2Proof.Machine

namespace Dev

/-! ### The coming step -/

/-- Step and period recorded for what happens in the step in progress (R158): a drain step P + i is step i of a period that never
executes. -/
def stepNow (d : Dev) (n : Nat) : Nat × Nat :=
  match d.getSec n none (fun s => s.run.drain) with
  | some i => (i, d.dcyc n + 1)
  | none => (d.posStep n, d.dcyc n)

/-- Whether a step is in progress in section n. -/
def inStep (d : Dev) (n : Nat) : Bool := d.getSec n false (fun s => s.run.inStep)

/-- Whether a stage is suppressed in the present period: stage 1 in the prologue, stage 0 in the epilogue (R88, R89). -/
def suppressed (d : Dev) (n stg : Nat) : Bool :=
  (stg == 1 && d.fb (Reg.SCTL.STATE.of n) 7) || (stg == 0 && d.fb (Reg.SCTL.STATE.of n) 8)

/-- The place of a course in the coming step. -/
def atStep (d : Dev) (n cl crs : Nat) : At := ⟨n, cl, crs, d.posStep n, d.dcyc n, d.period n⟩

/-! ### Source reads -/

/-- The source read of a cluster slot entry of row `r` (R99, R100, R108). `ecc` = 2: the entry has an uncorrectable error (R114). -/
def clusterRead (d : Dev) (n r cl x p ecc : Nat) : Dev :=
  let e := d.cslot n cl r x p
  let t := d.stepNow n
  if ecc = 2 then d.raise n ⟨fPARITY, 0, globalCourse n cl x, 0xF, t.1, t.2⟩
  else if !(e.testBit 31) then d
  else
    let src := bits e 30 25
    let w := d.word n cl src (bits e 24 16)
    if wordBad w then d.raise n ⟨fPARITY, 6, globalCourse n cl src, 0xF, t.1, t.2⟩
    else d.fab n (fun f => { f with xfers := f.xfers ++
      [⟨false, false, if p = 0 then .cl0 else .cl1, n, src, cl, 0, cl, x, bits e 8 0, w, t.1, t.2, 1, false⟩] })

/-- The fields of an export entry (R110), its two halves as one number. -/
def exBridge (e : Nat) : Bool := bit e 39
def exSrc (e : Nat) : Nat := bits e 21 16
def exWord (e : Nat) : Nat := bits e 31 22

/-- Whether export entry `y` of row `r` sends a word onto the bridge to section m (R116): active, not stopped by an error of the table (R114), and its
source word passes its check. -/
def onBridge (d : Dev) (n r cl y m : Nat) : Bool :=
  let e := d.gslot n cl r y
  !((d.getSec n [] (fun s => s.fab.rowErr)).contains (4096 + cl * 16 + y)) && e.testBit 63 && exBridge e && bits e 38 36 == m && !(wordBad (d.word n cl (exSrc e) (exWord e)))

/-- Words toward section m that rank before entry `x` of cluster `cl` in row `r` (R115). An entry that an error stops counts no longer once its
read has met the error (log 69). -/
def bridgeRank (d : Dev) (n r cl x m : Nat) : Nat :=
  ((d.usedClusters n).filter (fun c => decide (c ≤ cl))).foldl (fun a c =>
    a + ((List.range (if c = cl then x else 16)).filter (fun y => d.onBridge n r c y m)).length) 0

/-- A word of section n is discarded at the closed bridge end toward section m (R120 to R123). DESIGN CHOICE (log 70): a word that R121 discards, whose
DSEC names its own section, counts in BRCNT too. -/
def bridgeDrop (d : Dev) (n m : Nat) : Dev :=
  (d.wb (Reg.SCTL.BRERR.of n) m true).bump (Reg.SCTL.BRCNT.of n)

/-- The source read of export entry `x` of row `r` (R109, R111, R116, R120, R121). -/
def exportRead (d : Dev) (n r cl x ecc : Nat) : Dev :=
  let e := d.gslot n cl r x
  let t := d.stepNow n
  let src := exSrc e
  let fault := fun code opnd => (⟨code, opnd, globalCourse n cl src, 0xF, t.1, t.2⟩ : FaultInfo)
  if ecc = 2 then d.raise n (fault fPARITY 0)
  else if !(e.testBit 63) then d
  else
    let w := d.word n cl src (exWord e)
    let m := if exBridge e then bits e 38 36 else n
    if wordBad w then d.raise n (fault fPARITY 6)
    else if exBridge e && (m == n || !(d.fb (Reg.SCTL.BROPEN.of n) m)) then (d.bridgeDrop n m).raise n (fault fDOMAIN_OFF 0)
    else if exBridge e && decide (8 ≤ d.bridgeRank n r cl x m) then d.raise n (fault fSLOT_COLLISION 0)
    else d.fab m (fun f => { f with xfers := f.xfers ++
      [⟨exBridge e, true, if bit e 9 then .gb1 else .gb0, n, src, cl, x, bits e 35 32, bits e 15 10, bits e 8 0, w, t.1, t.2,
        if exBridge e then 14 else 6, false⟩] })

/-- Keys of row entries already read. -/
def cslotDone (cl x p : Nat) : Nat := cl * 256 + 2 * x + p
def gslotDone (cl e : Nat) : Nat := 4096 + cl * 16 + e

/-- Reads a cluster slot entry of the row that belongs to the step in progress, once (R100, R105). -/
def readCslot (d : Dev) (n cl x p ecc : Nat) : Dev :=
  match d.getSec n none (fun s => s.fab.row) with
  | none => d
  | some r =>
    let k := cslotDone cl x p
    if !(d.inStep n) || !(d.used n cl) || (d.getSec n [] (fun s => s.fab.rowDone)).contains k then d
    else (d.fab n (fun f => { f with rowDone := k :: f.rowDone })).clusterRead n r cl x p ecc

/-- Reads an export entry of the row that belongs to the step in progress, once. -/
def readGslot (d : Dev) (n cl e ecc : Nat) : Dev :=
  match d.getSec n none (fun s => s.fab.row) with
  | none => d
  | some r =>
    let k := gslotDone cl e
    if !(d.inStep n) || !(d.used n cl) || (d.getSec n [] (fun s => s.fab.rowDone)).contains k then d
    else (d.fab n (fun f => { f with
      rowDone := k :: f.rowDone
      rowErr := if ecc = 2 then k :: f.rowErr else f.rowErr })).exportRead n r cl e ecc

/-- Every entry of the row not yet read. -/
def readRow (d : Dev) (n : Nat) : Dev :=
  d.each (d.usedClusters n) (fun cl d =>
    (d.each (List.range 128) (fun i d => d.readCslot n cl (i / 2) (i % 2) 0)).each (List.range 16) (fun e d => d.readGslot n cl e 0))

/-! ### Writes at the end of a step -/

/-- Rank of an arrival at the import lines and GB ports (R115): global before bridge, then source section, cluster and entry. -/
def xferKey (x : Xfer) : Nat := (if x.bridge then 2 ^ 20 else 0) + x.srcSec * 2 ^ 17 + x.srcCl * 16 + x.entry

/-- Priority code of a port (R78). -/
def portCode : SlotPort → Nat
  | .cl0 => 2 | .cl1 => 3 | .gb0 => 4 | .gb1 => 5

/-- Transfers whose write falls at the end of the step just executed. -/
def dueXfers (d : Dev) (n : Nat) : List Xfer := d.getSec n [] (fun s => s.fab.xfers.filter (fun x => x.left == 0))

/-- Returns whose write falls there: scheduled ones, and one that waits for a free step. -/
def dueRets (d : Dev) (n : Nat) : List Ret := d.getSec n [] (fun s => s.fab.rets.filter (fun r => r.left == 0))

/-- Whether a global or bridge arrival keeps an import line (R116); `l` is the list of arrivals of the step. -/
def keepsLine (d : Dev) (n : Nat) (l : List Xfer) (x : Xfer) : Bool :=
  decide ((l.filter (fun y => y.global && y.dcl == x.dcl && d.used n y.dcl && decide (xferKey y < xferKey x))).length < 16)

/-- Whether an arrival is delivered to its port (R116, R126). -/
def delivered (d : Dev) (n : Nat) (l : List Xfer) (x : Xfer) : Bool :=
  !x.global || (d.used n x.dcl && d.keepsLine n l x &&
    !(l.any (fun y => y.global && y.dcl == x.dcl && y.dcrs == x.dcrs && y.port == x.port && d.keepsLine n l y &&
      decide (xferKey y < xferKey x))))

/-- Whether an arrival writes its word: delivered, and no delivered arrival of a higher port writes the same word (R80, R117). -/
def writes (d : Dev) (n : Nat) (l : List Xfer) (x : Xfer) : Bool :=
  d.delivered n l x && !(l.any (fun y => y.dcl == x.dcl && y.dcrs == x.dcrs && y.dword == x.dword && decide (portCode y.port < portCode x.port) &&
    d.delivered n l y))

/-- The order of scheduled returns at one RET port (R60); smaller goes first. -/
def retKey (r : Ret) : Nat := match r.kind with | .pin => r.first | .home => 2000 | .qrd => 3000 | .nonhome => 4000

/-- Whether a return has the RET port of its course (R60): a scheduled one when none goes before it, a return of HOME = 0 that has
arrived when no scheduled one is due and no other was written. -/
def hasPort (l : List Ret) (r : Ret) : Bool :=
  let same := l.filter (fun y => y.cl == r.cl && y.crs == r.crs && y != r)
  if r.kind = .nonhome then r.waiting && !(same.any (fun y => y.kind != .nonhome || y.done))
  else !(same.any (fun y => y.kind != .nonhome && decide (retKey y < retKey r)))

/-- The first return of HOME = 0 of its course that has arrived. -/
def firstWaiting (l : List Ret) (r : Ret) : Bool :=
  (l.find? (fun y => y.kind == .nonhome && y.waiting && y.cl == r.cl && y.crs == r.crs)) == some r

/-- The write of one slot transfer, or what its loss raises (R116 to R118, R126). -/
def settleXfer (d : Dev) (n : Nat) (l : List Xfer) (x : Xfer) : Dev :=
  let at_ := d.getSec n (0, 0) (fun s => (s.run.lastStep, s.run.lastPeriod))
  let d' := d.fab n (fun f => { f with xfers := f.xfers.map (fun y => if y = x then { y with done := true } else y) })
  if x.global && !(d.used n x.dcl) then
    d'.raise x.srcSec ⟨fDOMAIN_OFF, 0, globalCourse x.srcSec x.srcCl x.srcCourse, 0xF, x.readStep, x.readPeriod⟩
  else if d.writes n l x then d'.setWord n x.dcl x.dcrs (512 + x.dword) x.word
  else d'.raise n ⟨fSLOT_COLLISION, 0, globalCourse n x.dcl x.dcrs, 0xF, at_.1, at_.2⟩

/-- Marks the first return equal to `r` as done. -/
def markFirst (r : Ret) : List Ret → List Ret
  | [] => []
  | y :: l => if y = r then { y with done := true } :: l else y :: markFirst r l

/-- The write of one return, or what its loss raises (R60, R80, R81). -/
def settleRet (d : Dev) (n : Nat) (lx : List Xfer) (lr : List Ret) (r : Ret) : Dev :=
  let at_ := d.getSec n (0, 0) (fun s => (s.run.lastStep, s.run.lastPeriod))
  let coll : FaultInfo := ⟨fSLOT_COLLISION, 0, globalCourse n r.cl r.crs, 0xF, at_.1, at_.2⟩
  let d' := d.fab n (fun f => { f with rets := markFirst r f.rets })
  if hasPort lr r then
    d'.each r.words (fun w d =>
      let a := r.first + w.1
      if lx.any (fun y => y.dcl == r.cl && y.dcrs == r.crs && 512 + y.dword == a && d.delivered n lx y) then d.raise n coll
      else d.setWord n r.cl r.crs a (mkWord w.2 r.gen 1))
  else d'.raise n coll

/-- Performs the writes due at the end of the step just executed that the selections name and that have not been performed. -/
def settleSel (d : Dev) (n : Nat) (px : Xfer → Bool) (pr : Ret → Bool) : Dev :=
  if d.inStep n || d.holding n then d
  else
    let lx := d.dueXfers n
    let lr := d.dueRets n
    let d := d.each (lx.filter (fun x => !x.done && px x)) (fun x d => d.settleXfer n lx x)
    d.each (lr.filter (fun r => !r.done && pr r && (r.kind != .nonhome || (hasPort lr r && firstWaiting lr r)))).eraseDups
      (fun r d => d.settleRet n lx lr r)

/-- All of them. -/
def settle (d : Dev) (n : Nat) : Dev := d.settleSel n (fun _ => true) (fun _ => true)

/-- All of them, in every member of the run group. -/
def settleGroup (d : Dev) (n : Nat) : Dev := d.each (d.group n) (fun m d => d.settle m)

/-! ### Stage 3 of a load -/

/-- CRST (R132): a gated cluster runs for the reset. -/
def crst (d : Dev) (n c : Nat) : Dev :=
  let st := d.runState n
  if d.fb (clkstat n c) 5 then d
  else if st = stPARKED ∨ st = stSLIPWAY ∨ st = stLOADED ∨ st = stHALTED then (d.wb (clkstat n c) 5 true).wb (clkstat n c) 3 false
  else d.wb (clkstat n c) 7 true

/-- V is 0 in every word of the clusters that satisfy `p`; the rest of a word stays (R94, R177). -/
def clearValid (d : Dev) (n : Nat) (p : Nat → Bool) : Dev :=
  d.fab n (fun f => { f with store := f.store.foldl (fun m e =>
    if p (e.1 / 65536) then Sparse.set (fun _ => 0) m e.1 (mkWord (wordData e.2) (wordG e.2) 0) else m) f.store })

/-- What stage 3 of a load writes into the data stores, once NHCNT is 0: V = 0 everywhere, and the cluster resets begin (R84, R176, R177). -/
def slipwayClear (d : Dev) (n : Nat) : Dev :=
  match d.getSec n none (fun s => s.fab.clearDue) with
  | none => d
  | some mask =>
    if d.nhCount n != 0 then d
    else ((d.fab n (fun f => { f with clearDue := none })).clearValid n (fun _ => true)).each (onesOf 16 mask) (fun c d => d.crst n c)

/-- A return of HOME = 0 that arrives outside executed steps is written at once (R83, R84): the first of the course. -/
def writeNow (d : Dev) (n cl crs : Nat) : Dev :=
  match d.getSec n none (fun s => s.fab.rets.find? (fun r => r.kind == .nonhome && r.cl == cl && r.crs == crs && !r.done)) with
  | none => d
  | some r =>
    let d := d.fab n (fun f => { f with rets := f.rets.erase r })
    d.each r.words (fun w d => d.setWord n cl crs (r.first + w.1) (mkWord w.2 r.gen 1))

/-- Whether returns of HOME = 0 are discarded: in HALTED, after a RESTART was accepted, and in SLIPWAY, PARKED and OFF (R84). -/
def discards (d : Dev) (n : Nat) : Bool :=
  d.runState n == stHALTED || decide (d.runState n ≤ stSLIPWAY) || d.getSec n false (fun s => s.run.restarting)

/-- The oldest return of HOME = 0 of a course arrives (R60, R84): discarded, written at once outside executed steps, or in the first
step whose RET port is free. -/
def nonhomeReturn (d : Dev) (n cl crs : Nat) : Dev :=
  let p := fun (r : Ret) => r.kind == .nonhome && r.cl == cl && r.crs == crs && !r.done
  if d.discards n then
    (match d.getSec n none (fun s => s.fab.rets.find? p) with
    | some r => d.fab n (fun f => { f with rets := f.rets.erase r })
    | none => d).slipwayClear n
  else if d.runState n != stRUNNING || d.holding n then d.writeNow n cl crs
  else
    let i := d.getSec n none (fun s => s.fab.rets.findIdx? (fun r => p r && !r.waiting))
    let d := match i with
      | some i => d.fab n (fun f => { f with rets := modNth (fun r => { r with waiting := true }) i f.rets })
      | none => d
    d.settleSel n (fun _ => false) p

/-! ### Leaving a run group (R119, R122, R135) -/

/-- Section x leaves its run group, the sections `going` at the same moment: what the steps so far have brought is written, its bridges close at both
ends, words in flight on them are discarded and counted by their senders. The members left behind halt with DOMAIN_OFF: at once where they are
PAUSED or LOADED, at the end of their fret or hold where they run (R122, R135). -/
def leaveGroup (d : Dev) (going : List Nat) (x : Nat) : Dev :=
  let g := onesOf 8 (d.fd (Reg.SCTL.STATE.of x) 23 16)
  let rest := g.filter (fun m => m != x)
  let d := d.each g (fun m d => d.settle m)
  let lost := fun (m : Nat) (y : Xfer) => y.bridge && !y.done && (m == x || y.srcSec == x)
  let d := d.each g (fun m d =>
    let gone := d.getSec m [] (fun s => s.fab.xfers.filter (lost m))
    (d.each gone (fun y d => d.bridgeDrop y.srcSec m)).fab m (fun f => { f with xfers := f.xfers.filter (fun y => !(lost m y)) }))
  let d := d.each rest (fun m d =>
    let st := Reg.SCTL.STATE.of m
    let d := (d.wb (Reg.SCTL.BROPEN.of m) x false).wf st 23 16 (ofOnes rest)
    (d.wf st 26 24 (rest.headD 0)).when (!(going.contains m) && d.runState m != stHALTED) (fun d => d.run m (fun r => { r with
      memberLeft := (List.range 8).filter (fun y => y == x || r.memberLeft.contains y) })))
  let d := ((d.wr (Reg.SCTL.BROPEN.of x) 0).wf (Reg.SCTL.STATE.of x) 23 16 0).wf (Reg.SCTL.STATE.of x) 26 24 0
  match rest.find? (fun m => !(going.contains m) && (d.runState m == stPAUSED || d.runState m == stLOADED)) with
  | some m => d.haltGroup m (d.fd (Reg.SCTL.POS.of m) 20 16)
  | none => d

/-! ### Data-store and code windows -/

/-- Whether the section refuses host writes to its stores and tables: RUNNING, holding or not (R71, R97, R124, R148). -/
def locked (d : Dev) (n : Nat) : Bool := d.runState n == stRUNNING

/-- A DSTORE write (R96 to R98, R76). -/
def dstoreWrite (d : Dev) (n cl crs w v : Nat) : Dev :=
  if d.locked n then d.wb (Reg.CLUS.DSSTAT.of n [cl]) 0 true
  else
    let x := mkWord (bits v 11 0) (bits v 14 14) (bits v 15 15)
    let inv := d.fb (Reg.CLUS.DSCTL.of n [cl]) 0
    (d.settle n).setWord n cl crs w (if inv then x ^^^ 0x1000 else x)

/-- What DSTORE shows: every write of the steps executed so far is in place (R79, R97). -/
def dstoreRead (d : Dev) (n cl crs w : Nat) : Nat := ((d.settle n).word n cl crs w).toNat

/-- The instruction number, BP of course, and position of an offset of the CODE window (R69); none beyond the instruction area. -/
def codeSlot (off : Nat) : Option (Nat × Nat × Nat × Nat) :=
  if off < 0x600000 then some (off / 16 / 512 / 12, off / 16 / 512 % 12, off / 16 % 512, off % 16 / 4) else none

/-- A write of a word of the CODE window (R70, R71). -/
def codeWrite (d : Dev) (n off v : Nat) : Dev :=
  match codeSlot off with
  | none => d
  | some (crs, bp, a, pos) =>
    let cl := d.fd (Reg.CODE.SEL.of n) 3 0
    let key := codeKey cl crs bp a
    if d.locked n then d.wb (Reg.CODE.STAT.of n) 1 true
    else if pos = 0 then d.fab n (fun f => { f with codeLo := some (key, BitVec.ofNat 32 v) })
    else if pos = 1 then d.fab n (fun f => { f with codeMid := some (key, BitVec.ofNat 32 v) })
    else if pos = 2 then
      let old := d.code n cl crs bp a
      d.fab n (fun f =>
        let part := fun (s : Option (Nat × BitVec 32)) (x : Nat) =>
          match s with | some (k, w) => if k = key then w.toNat else x | none => x
        let lo := part f.codeLo (old % 2 ^ 32)
        let mid := part f.codeMid (old / 2 ^ 32 % 2 ^ 32)
        { f with code := f.code.set key (BitVec.ofNat 96 (v % 2 ^ 32 * 2 ^ 64 + mid * 2 ^ 32 + lo)), codeLo := none, codeMid := none })
    else d

/-- A read of a word of the CODE window (R69, R70). -/
def codeRead (d : Dev) (n off : Nat) : Nat :=
  match codeSlot off with
  | none => 0
  | some (crs, bp, a, pos) => if pos = 3 then 0 else d.code n (d.fd (Reg.CODE.SEL.of n) 3 0) crs bp a / 2 ^ (32 * pos) % 2 ^ 32

/-- CODE.STAT as it reads. -/
def codeStat (d : Dev) (n : Nat) : Nat :=
  setBits (d.rd (Reg.CODE.STAT.of n)) 0 0 (b2n (d.getSec n false (fun s => s.fab.codeLo.isSome || s.fab.codeMid.isSome)))

/-- A write of a cluster slot entry (R108, R124). -/
def cslotWrite (d : Dev) (n cl i v : Nat) : Dev :=
  if d.locked n then d.wb (Reg.CLUS.SLSTAT.of n [cl]) 0 true
  else d.fab n (fun f => { f with cslot := f.cslot.set (cl * 65536 + i) (BitVec.ofNat 32 (v &&& 0xFFFF01FF)) })

/-- The high half of an export entry is written: the staged low half, or the low half as stored, goes with it (R7, R110, R124). -/
def gslotWrite (d : Dev) (n cl i v : Nat) : Dev :=
  if d.locked n then d.wb (Reg.CLUS.SLSTAT.of n [cl]) 0 true
  else
    let key := n * 2 ^ 32 + Reg.CLUS.GSLOTL.base + cl * 0x100000 + 8 * i
    let old := d.gslot n cl (i / 16) (i % 16) % 2 ^ 32
    let lo := match Sparse.find key d.staging with | some w => w.toNat | none => old
    let d := { d with staging := Sparse.drop key d.staging }
    d.fab n (fun f => { f with gslot := f.gslot.set (cl * 8192 + i) (BitVec.ofNat 64 ((v &&& 0x800000FF) * 2 ^ 32 + (lo &&& 0xFFFFFFFF))) })

/-- The low half of an export entry is staged, or refused while RUNNING (R110, R124). -/
def gslotStage (d : Dev) (n cl i v : Nat) : Dev :=
  if d.locked n then d.wb (Reg.CLUS.SLSTAT.of n [cl]) 0 true
  else { d with staging := Sparse.put (n * 2 ^ 32 + Reg.CLUS.GSLOTL.base + cl * 0x100000 + 8 * i) (BitVec.ofNat 32 (v &&& 0xFFFFFFFF)) d.staging }

/-- SLSTAT as it reads (R125). -/
def slStat (d : Dev) (n cl : Nat) : Nat :=
  let lo := n * 2 ^ 32 + Reg.CLUS.GSLOTL.base + cl * 0x100000
  setBits (d.rd (Reg.CLUS.SLSTAT.of n [cl])) 1 1 (b2n (d.staging.any (fun e => decide (lo ≤ e.1 ∧ e.1 < lo + 0x10000))))

/-- A write of a wait-table entry (R148). -/
def waitWrite (d : Dev) (n cl i v : Nat) : Dev :=
  if d.locked n then d.wb (Reg.CLUS.WTSTAT.of n [cl]) 0 true
  else d.fab n (fun f => { f with wait := f.wait.set (cl * 256 + i) (BitVec.ofNat 32 v) })

/-! ### Clock regions -/

/-- A CLKCTL value takes hold: USED at once, a change of source, divider or gate with BUSY until it completes (R128). -/
def clkApply (d : Dev) (n c v : Nat) : Dev :=
  let moves := (d.rd (clkctl n c)) % 16 != v % 16
  (d.wr (clkctl n c) v).when moves (fun d => d.wb (clkstat n c) 4 true)

/-- Whether the write rule of CLKCTL refuses a value (R129). -/
def clkRefused (d : Dev) (n c v : Nat) : Bool :=
  let old := d.rd (clkctl n c)
  (d.runState n == stRUNNING || d.runState n == stPAUSED) &&
    ((old.testBit 4 && v != old) || (v.testBit 4 && !(old.testBit 4)) || (v.testBit 2 && !(old.testBit 2)))

/-- CLKCTL_WRITE (R128, R129). DESIGN CHOICE (log 71): of several writes that arrive during one change, the last takes effect after it and the others
are lost. -/
def clkctlWrite (d : Dev) (n c v : Nat) : Dev :=
  let v := v % 32
  if d.clkRefused n c v then d.wb (clkstat n c) 7 true
  else if d.fb (clkstat n c) 4 then d.fab n (fun f => { f with clkNext := Sparse.put c v f.clkNext })
  else d.clkApply n c v

/-- CLOCK_CHANGE_DONE (R128): the change shows, and a write that came during it takes effect. -/
def clockDone (d : Dev) (n c : Nat) : Dev :=
  if !(d.fb (clkstat n c) 4) then d
  else
    let d := (d.wb (clkstat n c) 4 false).showClock n c
    match d.getSec n none (fun s => Sparse.find c s.fab.clkNext) with
    | some v => (d.fab n (fun f => { f with clkNext := Sparse.drop c f.clkNext })).clkApply n c v
    | none => d

/-- CLUSTER_RESET_DONE (R132): the stores of the cluster are clear, its part of every transfer is gone, and it is gated again where GATE is 1. A change
of its clock in progress shows at its own end. -/
def clusterResetDone (d : Dev) (n c : Nat) : Dev :=
  if !(d.fb (clkstat n c) 5) then d
  else
    let lo := n * 2 ^ 32 + Reg.CLUS.GSLOTL.base + c * 0x100000
    let d := d.fab n (fun f => { f with
      store := Sparse.keep (fun k => k / 65536 != c) f.store
      ran := f.ran - (f.ran &&& 2 ^ c)
      xfers := f.xfers.filter (fun x => x.dcl != c && !(x.srcSec == n && x.srcCl == c)) })
    let d := d.each ((List.range 8).filter (fun m => m != n)) (fun m d =>
      d.fab m (fun f => { f with xfers := f.xfers.filter (fun x => !(x.srcSec == n && x.srcCl == c)) }))
    let d := { d with staging := Sparse.keep (fun k => !(decide (lo ≤ k ∧ k < lo + 0x10000))) d.staging }
    let d := ((d.wr (Reg.CLUS.SLSTAT.of n [c]) 0).wr (Reg.CLUS.DSSTAT.of n [c]) 0).wb (clkstat n c) 5 false
    d.when (!(d.fb (clkstat n c) 4)) (fun d => d.wf (clkstat n c) 3 3 (bits (d.rd (clkctl n c)) 3 3))

/-- The clock conditions of R130 in section n. -/
def clocksReady (d : Dev) (n : Nat) : Bool :=
  (List.range 16).all (fun c =>
    let v := d.rd (clkctl n c)
    if v.testBit 4 then v % 16 == 0 && !(d.fb (clkstat n c) 4) else v.testBit 3 || v % 4 == 3)

end Dev

end Sys2Proof.Machine
end

