-- ==== Sys2Proof/Machine/Holds.lean ====
section
/-! DEFINITION. The hold unit (R142 to R155): sampling of a fret's conditions, held frets and their counters, pacing. -/

namespace Sys2Proof.Machine

/-- A period in which a fret is to run: its number and whether it is a prologue or an epilogue. -/
structure FretAt where
  f : Nat
  j : Nat
  pro : Bool
  epi : Bool
deriving DecidableEq, Repr

/-- Whether a stage is suppressed in that period (R147). -/
def FretAt.off (a : FretAt) (stg : Nat) : Bool := (stg == 1 && a.pro) || (stg == 0 && a.epi)

namespace Dev

/-! ### Wait entries -/

/-- The cause of an unsatisfied entry of a type (R151); none for the types that are always satisfied. -/
def waitCause (ty : Nat) : Nat := if ty = 0 then 3 else if ty = 1 ∨ ty = 3 then 1 else if ty = 2 then 2 else if ty = 4 then 4 else 5

/-- Whether an active entry of cluster c is satisfied for the fret (R149). -/
def waitOk (d : Dev) (n c : Nat) (a : FretAt) (e : Nat) : Bool :=
  let q := bits e 26 21
  let k := bits e 11 0
  match bits e 30 28 with
  | 0 =>
    let w := d.word n c q (512 + bits e 20 12)
    wordV w == 1 && wordG w == (a.j + bits e 27 27 + bits e 11 11) % 2 && !(wordBad w)
  | 1 => decide (k ≤ d.getQ n q 0 Queue.avail)
  | 2 => decide (k ≤ d.getQ n q 0 Queue.free)
  | 3 => decide (k ≤ d.getQ n q 0 Queue.pkts)
  | 4 => decide (bits e 7 0 ≤ d.credits n c)
  | 5 => decide (bits e 3 0 < 12) && d.syncOut (12 * n + bits e 3 0) (bits e 3 0) == e.testBit 4
  | _ => true

/-- Whether an active entry sets WTSTAT.BAD when it is evaluated (R149, R150). -/
def waitBad (e : Nat) : Bool := decide (6 ≤ bits e 30 28) || (bits e 30 28 == 5 && decide (12 ≤ bits e 3 0))

/-- The entries of row f of cluster c that are evaluated: active, and of a stage that runs. DESIGN CHOICE (log 72): an entry of a suppressed stage, which
counts as satisfied (R147), is not evaluated, so that a reserved TYPE or a CELL above 11 in it sets no BAD. -/
def waitRowOf (d : Dev) (n c : Nat) (a : FretAt) : List (Nat × Nat) :=
  ((List.range 8).map (fun i => (i, d.waitEnt n c a.f i))).filter (fun p => p.2.testBit 31 && !(a.off (bits p.2 27 27)))

/-- Accesses in the non-home queue of cluster c (R200). -/
def nonhomeLen (d : Dev) (n c : Nat) : Nat :=
  d.getSec n 0 (fun s => (s.mem.acc.filter (fun x => !x.home && !x.path && x.cl == c)).length)

/-- The twin hold request of section n for the fret (R388): a mirrored pin sample due in it has not arrived, or the primary leads
by more than LAGMAX. -/
def twinHold (d : Dev) (n : Nat) (a : FretAt) : Bool :=
  if d.secondary then
    (d.getSec n [] (fun s => s.fab.pinMap)).any (fun r =>
      !r.output && r.step / 16 == a.f && !(a.off r.stg) &&
        !(d.twin.pins.any (fun p => p.sec == n && p.stg == r.stg && p.step == r.step && p.cycle + r.stg == a.j)))
  else if d.pairedPrimary then
    decide (d.twin.peerDcyc.getD n 0 + d.fd Reg.TWIN.LAG.hubAt 15 0 < d.dcyc n)
  else false

/-- The throttle request of a brownout episode stands in every phase but the run at ÷2 (R146, R501). -/
def brownoutReq (d : Dev) : Bool := match d.pow.episode with | some (ph, _) => ph != .half | none => false

/-- One cluster's part of a sample: its causes, and WTSTAT (R148, R150). -/
def sampleCluster (d : Dev) (n c : Nat) (a : FretAt) : Dev × Nat :=
  let es := d.waitRowOf n c a
  let un := es.filter (fun p => !(d.waitOk n c a p.2))
  let l := Reg.CLUS.WTSTAT.of n [c]
  let full := decide (40 ≤ d.nonhomeLen n c)
  let m := (un.foldl (fun m p => m ||| 2 ^ waitCause (bits p.2 30 28)) 0) ||| (if full then 2 ^ 3 + 2 ^ 11 else 0)
  let d := d.when (es.any (fun p => waitBad p.2)) (fun d => d.wb l 1 true)
  (d.when (!un.isEmpty) (fun d => (d.wf l 28 24 a.f).wf l 23 16 (ofOnes (un.map (fun p => p.1)))), m)

/-- Section n's part of a sample: the mask of unsatisfied causes (R142, R146, R153, R201); bit 11 marks a full non-home queue. -/
def sampleSection (d : Dev) (n : Nat) (a : FretAt) : Dev × Nat :=
  let ld := d.leader n
  let pace := a.f == 0 && d.fb (Reg.SCTL.PACECTL.of ld) 31 && d.fd (Reg.SCTL.PACEPEND.of ld) 15 0 == 0
  let thr := b2n d.brownoutReq + 2 * b2n d.pow.hotReq
  let tw := d.twinHold n a
  let base := b2n pace * 2 ^ 6 + thr % 4 * 2 ^ 7 + b2n tw * 2 ^ 9
  let r := (d.usedClusters n).foldl (fun acc c => let x := acc.1.sampleCluster n c a; (x.1, acc.2 ||| x.2)) (d, base)
  (r.1.useFree 12, r.2)

/-- A sample of the run group of section n for a fret: every member's causes are noted (R142, R145). -/
def sampleGroup (d : Dev) (n : Nat) (a : FretAt) : Dev :=
  d.each (d.group n) (fun m d =>
    let x := d.sampleSection m a
    x.1.run m (fun r => { r with sample := some x.2 }))

/-- The fret whose sampling point is the start of the step in progress (R142): none in the drain and, since no fret follows it, at the end
of the epilogue. -/
def fretAhead (d : Dev) (n : Nat) : Option FretAt :=
  let k := d.posStep n
  let st := Reg.SCTL.STATE.of n
  if k % 16 != 8 || (d.getSec n none (fun s => s.run.drain)).isSome then none
  else if k + 8 = d.period n then
    if d.fb st 8 then none else some ⟨0, d.dcyc n + 1, false, d.fb (Reg.SCTL.STATE.of (d.leader n)) 5⟩
  else some ⟨(k + 8) / 16, d.dcyc n, d.fb st 7, d.fb st 8⟩

/-- The fret that POS names, for a sample in a hold or at the start of a run (R143, R145). -/
def fretHere (d : Dev) (n : Nat) : FretAt :=
  ⟨d.posStep n / 16, d.dcyc n, d.fb (Reg.SCTL.STATE.of n) 7, d.fb (Reg.SCTL.STATE.of n) 8⟩

/-- Whether the run group of section n was sampled for the coming fret. -/
def sampled (d : Dev) (n : Nat) : Bool := d.getSec n false (fun s => s.run.sample.isSome)

/-- Whether the last sample found every member ready. -/
def groupReady (d : Dev) (n : Nat) : Bool :=
  (d.group n).all (fun m => d.getSec m false (fun s => s.run.sample == some 0))

/-! ### Held frets -/

/-- One held fret of section n (R151, R201): its counters and HLAST. -/
def countHold (d : Dev) (n : Nat) : Dev :=
  let m := d.getSec n 0 (fun s => s.run.sample.getD 0)
  let causes := if m % 2 ^ 11 = 0 then 2 ^ 10 else m % 2 ^ 11
  let d := d.bump64 Reg.SCTL.HCNT n [0]
  let d := d.each ((List.range 11).filter (fun c => c != 0 && causes.testBit c)) (fun c d => d.bump64 Reg.SCTL.HCNT n [c])
  let d := d.when (m.testBit 11) (fun d => d.bump (Reg.SPAD.PQHOLD.of n))
  let l := Reg.SCTL.HLAST.of n
  ((d.wr l (causes / 2 * 2 ^ 16 + d.fd (Reg.SCTL.POS.of n) 20 16)).capBreak n)

/-- A hold begins in every member of the group (R145). DESIGN CHOICE (log 75): the count of consecutive held frets rises as the hold begins, or as H8 of
the hold before finds the fret not ready, so that HOLD_STALL is due before the last of HLIMIT frets has been held to its end. -/
def beginHold (d : Dev) (n : Nat) : Dev :=
  let d := d.each (d.group n) (fun m d => ((d.wb (Reg.SCTL.STATE.of m) 3 true).countHold m).run m (fun r => { r with resampled := false }))
  d.run (d.leader n) (fun r => { r with holdRun := r.holdRun + 1 })

/-- At a fret boundary: the next fret is held unless every member was ready; a group that is to halt does neither (R145, R156). -/
def holdCheck (d : Dev) (n : Nat) : Dev :=
  if d.haltDue n then d
  else if d.groupReady n then d.each (d.group n) (fun m d => d.run m (fun r => { r with sample := none }))
  else d.beginHold n

/-- HOLD_RESAMPLE: the sample at H8 (R145). A fret still not ready is held for one more fret. -/
def resample (d : Dev) (n : Nat) : Dev :=
  if !(d.holding n) || d.getSec n true (fun s => s.run.resampled) then d
  else
    let d := d.sampleGroup n (d.fretHere n)
    if d.groupReady n then d.each (d.group n) (fun m d => d.run m (fun r => { r with resampled := true }))
    else if d.haltDue n then d
    else d.beginHold n

/-- HOLD_STALL: HLIMIT consecutive frets of the leader have been held (R152, R161). -/
def holdStall (d : Dev) (n : Nat) : Dev :=
  let ld := d.leader n
  let lim := d.rd (Reg.SCTL.HLIMIT.of ld)
  let due := d.getSec ld false (fun s => !s.run.stallSent && decide (lim ≤ s.run.holdRun))
  if d.holding n && lim != 0 && due then (d.notice ld 0x0107 []).run ld (fun r => { r with stallSent := true }) else d

/-- A hold is over: its fret runs (R145, R152). -/
def endHold (d : Dev) (n : Nat) : Dev :=
  d.each (d.group n) (fun m d => (d.wb (Reg.SCTL.STATE.of m) 3 false).run m (fun r => { r with sample := none, resampled := false }))

/-- A fret has run: the count of consecutive held frets starts again (R152). -/
def fretRan (d : Dev) (n : Nat) : Dev := d.run (d.leader n) (fun r => { r with holdRun := 0, stallSent := false })

/-! ### Pacing -/

/-- PACE_EVENT: the oldest pace event on its way to section n arrives (R153, R155). -/
def paceEvent (d : Dev) (n : Nat) : Dev :=
  match d.getSec n [] (fun s => s.run.paceDue) with
  | [] => d
  | t :: rest =>
    let l := Reg.SCTL.PACEPEND.of n
    let d := d.run n (fun r => { r with paceDue := rest })
    let k := d.fd l 15 0
    if k = 0xFFFF then d.wb l 31 true
    else (d.wf l 15 0 (k + 1)).run n (fun r => { r with paceTimes := r.paceTimes ++ [t] })

/-- The pace events of section n are forgotten (R153). -/
def clearPace (d : Dev) (n : Nat) : Dev :=
  (d.wf (Reg.SCTL.PACEPEND.of n) 15 0 0).run n (fun r => { r with paceTimes := [] })

/-- A period starts at `now`, NS and FRAC as one number: it uses one pace event, and a late one counts (R153, R154). Returns whether it was a miss. DESIGN
CHOICE (log 76): PACELAG drops the fraction; misses within the millisecond after a notice are sent with the first miss after it. -/
def usePace (d : Dev) (n now : Nat) : Dev × Bool :=
  let ctl := Reg.SCTL.PACECTL.of n
  match d.fb ctl 31, d.getSec n [] (fun s => s.run.paceTimes) with
  | true, t :: rest =>
    let l := Reg.SCTL.PACEPEND.of n
    let d := (d.wf l 15 0 (d.fd l 15 0 - 1)).run n (fun r => { r with paceTimes := rest })
    let lag := sext 80 ((now + 2 ^ 80 - t % 2 ^ 80) % 2 ^ 80)
    if lag ≤ (d.fd ctl 15 0 * 2 ^ 32 : Nat) then (d, false)
    else
      let d := (d.bump (Reg.SCTL.PACEMISS.of n)).wr (Reg.SCTL.PACELAG.of n) (min (lag.toNat / 2 ^ 32) (2 ^ 32 - 1))
      let due := d.getSec n false (fun s => match s.run.paceSent with | some t0 => decide (t0 + 1000000 ≤ d.clk) | none => true)
      if due then
        ((d.notice n 0x0106 [d.getSec n 0 (fun s => s.run.paceUnsent) + 1]).run n
          (fun r => { r with paceUnsent := 0, paceSent := some d.clk }), true)
      else (d.run n (fun r => { r with paceUnsent := r.paceUnsent + 1 }), true)
  | _, _ => (d, false)

/-- PACECTL_WRITE (R155). -/
def pacectlWrite (d : Dev) (n v : Nat) : Dev :=
  let l := Reg.SCTL.PACECTL.of n
  let en := if d.runState n = stRUNNING then d.fd l 31 31 else bits v 31 31
  d.wr l (en * 2 ^ 31 + v % 2 ^ 16)

/-- HCTL.CLR (R152). -/
def hctlClr (d : Dev) (n : Nat) : Dev := d.each (List.range 11) (fun c d => d.wr64 Reg.SCTL.HCNT n [c] 0)

end Dev

end Sys2Proof.Machine
end

