-- ==== Sys2Proof/Machine/Steps.lean ====
section
/-! DEFINITION. Executed steps (R34 to R68, R83, R87, R103, R523, R524): what may happen within a step, one event at a time or all together, and
what happens at its end. -/

namespace Sys2Proof.Machine

/-- The CRC-64 of the section digest (R390). -/
def digestPoly : Nat := 0x42F0E1EBA9EA3693

/-- Bytes folded into a section digest, each high bit first (R390). -/
def digestBytes (c : Nat) (bs : List Nat) : Nat := bs.foldl (fun c b => crcBitsF 64 digestPoly 8 c b) c

namespace Dev

/-! ### Beginning a step -/

/-- What beginning a step does to a member: finished transfers leave, the others advance by one step (R38, R102). -/
def advance (d : Dev) (m : Nat) : Dev :=
  let d := d.fab m (fun f => { f with
    xfers := (f.xfers.filter (fun x => !x.done)).map (fun x => { x with left := x.left - 1 })
    rets := (f.rets.filter (fun r => !r.done)).map (fun r => { r with left := r.left - 1 })
    issued := [], rowDone := [], rowErr := [], pinsDone := [] })
  let d := d.mem m (fun x => { x with acc := x.acc.map (fun a => if a.path then { a with left := a.left - 1 } else a) })
  d.run m (fun r => { r with xstep := r.xstep + 1, inStep := true })

/-- Whether the run group of section n may begin its next step: running, no period end or drain end due, no halt due at a boundary, and a hold
only once its fret is ready (R145, R156). -/
def mayBegin (d : Dev) (n : Nat) : Bool :=
  (d.group n).all (fun m => d.running m) &&
  d.getSec n false (fun s => !s.run.atEnd && !s.run.effectDue && s.run.drain != some 16 &&
    (!(d.holding n) || s.run.resampled)) &&
  !(d.haltDue n && (d.holding n || (d.posStep n % 16 == 0 && d.getSec n true (fun s => s.run.drain.isNone))))

/-- The coming step of the run group of section n opens, unless it has: arrivals of the step before are written, a hold that is over ends, and what is
in flight advances. -/
def openStep (d : Dev) (n : Nat) : Dev :=
  if d.inStep n then d
  else
    let d := d.settleGroup n
    if !(d.mayBegin n) then d
    else
      let d := if d.holding n then d.endHold n else d
      d.each (d.group n) (fun m d => d.advance m)

/-- HOLD_SAMPLE: the sample whose point is the step in progress, once (R142). -/
def holdSample (d : Dev) (n : Nat) : Dev :=
  if !(d.inStep n) || d.sampled n then d
  else match d.fretAhead n with
    | some a => d.sampleGroup n a
    | none => d

/-- The coming step of the run group of section n is in progress: begun here unless it was before. A sample whose point is the start of the step is
taken with its beginning, before any of its events (R142). -/
def beginStep (d : Dev) (n : Nat) : Dev := if d.inStep n then d else (d.openStep n).holdSample n

/-- Whether instructions issue in the step in progress: not in the drain (R103). -/
def issuing (d : Dev) (n : Nat) : Bool := d.inStep n && d.getSec n false (fun s => s.run.drain.isNone)

/-! ### Instructions -/

/-- A memory access of a word op (R63, R199, R200): through the home path, or into the non-home queue. -/
def issueMem (d : Dev) (a : At) (cycle port w : Nat) (ws : List Nat) (cnt dst : Nat) (write home : Bool) : Dev :=
  match d.portAddr a.n a.cl port w cnt write home with
  | none => d.raise a.n ⟨fMEM_RANGE, 0, globalCourse a.n a.cl a.crs, 0, a.k, cycle⟩
  | some x =>
    let path := home || bankOf x == a.cl
    d.mem a.n (fun m => { m with acc := m.acc ++ [{
      write := write, home := home, path := path, cl := a.cl, crs := a.crs, port := port, w := w, words := ws, count := cnt, first := dst,
      gen := cycle % 2, step := a.k, cycle := cycle, left := if path then 3 else 0, urgent := false }] })

/-- What a word op of cycle `cycle` does (R59 to R65). `errs` are the bank errors that a QRD meets (R229). -/
def wordEffect (d : Dev) (a : At) (cycle : Nat) (errs : List (Nat × Nat)) (e : OpEff) : Dev :=
  match e with
  | .none => d
  | .qrd q dst cnt =>
    let r := d.queueTake a.n q cnt errs
    let fault := fun c => r.1.raise a.n ⟨c, 0, globalCourse a.n a.cl a.crs, 0, a.k, cycle⟩
    if r.2.any (fun w => w.poison && w.integ) then fault fINTEGRITY
    else if r.2.any (fun w => w.poison) then fault fPOISONED
    else if r.2.isEmpty then r.1
    else r.1.fab a.n (fun f => { f with rets := f.rets ++ [{
      kind := .qrd, cl := a.cl, crs := a.crs, first := dst, words := r.2.zipIdx.map (fun p => (p.2, p.1.data.toNat)),
      gen := cycle % 2, left := 3, done := false, waiting := false }] })
  | .qwr q ws eop =>
    let org := some (globalCourse a.n a.cl a.crs, a.k, cycle)
    let qs := ws.zipIdx.map (fun p => (⟨BitVec.ofNat 12 p.1, eop && p.2 + 1 == ws.length, false, false, org, none⟩ : QWord))
    d.queueWrite a.n q qs ⟨none, false, false⟩
  | .mrd port w dst cnt home => d.issueMem a cycle port w [] cnt dst false home
  | .mwr port w ws home => d.issueMem a cycle port w ws ws.length 0 true home
  | .call cls args tag => d.postCall a.n cycle (globalCourse a.n a.cl a.crs) cls args tag
  | .digest ws =>
    d.wr64 Reg.TWIN.SDIG 8 [a.n] (digestBytes (d.rd64 Reg.TWIN.SDIG 8 [a.n]) ((ws.map (fun w => toBytes 2 w)).flatten))

/-- Key of a BP among those that have issued. -/
def bpKey (cl crs bp : Nat) : Nat := (cl * 64 + crs) * 12 + bp

/-- One BP issues its instruction of the step in progress, once (R34 to R37, R66 to R68). -/
def issueBp (d : Dev) (n cl crs bp : Nat) (errs : List (Nat × Nat)) : Dev :=
  let key := bpKey cl crs bp
  if !(d.issuing n) || !(d.used n cl) || d.getSec n true (fun s => s.fab.issued.any (fun p => p.1 == key)) then d
  else
    let a := d.atStep n cl crs
    let is := d.insns a
    let i := is.getD bp 0
    if d.suppressed n (stageOf is) then d.fab n (fun f => { f with issued := (key, false) :: f.issued })
    else
      let o := d.bpOut a bp (d.suppressed n)
      let d := d.fab n (fun f => { f with issued := (key, o.bit) :: f.issued })
      match o.fault with
      | some (c, opnd) => d.raise n ⟨c, opnd, globalCourse n cl crs, bp, a.k, cycleOf a i⟩
      | none => d.wordEffect a (cycleOf a i) errs o.eff

/-- BP0 of every course of the section up to the given one issues where its opcode is `op`: calls and digest words keep the order of their
global course numbers (R65, R248). -/
def issueUpTo (d : Dev) (n cl crs op : Nat) : Dev :=
  d.each ((d.usedClusters n).filter (fun c => decide (c ≤ cl))) (fun c d =>
    d.each (List.range (if c = cl then crs else 64)) (fun x d =>
      if iOP (d.code n c x 0 (d.posStep n)) = op then d.issueBp n c x 0 [] else d))

/-- The event of one BP executing an instruction of opcode `op`: it begins the step where none is in progress, and does not occur where the
instruction has another opcode. -/
def opEvent (d : Dev) (n cl crs bp op : Nat) (errs : List (Nat × Nat)) : Dev :=
  let d := d.beginStep n
  if !(d.issuing n) || iOP (d.code n cl crs bp (d.posStep n)) != op then d
  else
    let d := if op = opCALL ∨ op = opDIGEST then d.issueUpTo n cl crs op else d
    d.issueBp n cl crs bp errs

/-! ### Pins -/

/-- The sample of section n that a stage takes in the step in progress: the synchroniser outputs, or in a paired secondary the mirrored
sample; none where that has not arrived (R384, R523). -/
def pinSample (d : Dev) (n k stg cycle : Nat) : Dev × Option Nat :=
  if d.secondary then
    match d.twin.pins.find? (fun p => p.sec == n && p.stg == stg && p.step == k && p.cycle == cycle) with
    | some p => (d.twn (fun t => { t with pins := t.pins.filter (fun q => q != p) }), some p.data)
    | none => (d, none)
  else
    let v := d.syncWord (12 * n) 12
    let d := d.useFree 12
    let d := d.when d.pairedPrimary (fun d => d.sendMir 4 ([n, stg * 512 + k] ++ words12 6 cycle ++ [v]))
    (d, some v)

/-- The input records of section n that belong to the step in progress and have not been served, by place in the pin map. -/
def duePins (d : Dev) (n : Nat) (output : Bool) : List (Nat × PinRec) :=
  d.getSec n [] (fun s => ((s.fab.pinMap.zipIdx.map (fun p => (p.2, p.1))).filter (fun p =>
    p.2.output == output && p.2.step == d.posStep n && !(d.suppressed n p.2.stg) && !(s.fab.pinsDone.contains p.1))))

/-- INPUT_PIN_SAMPLE: every input record of the step is taken (R523, R81). -/
def samplePins (d : Dev) (n : Nat) : Dev :=
  if !(d.issuing n) then d
  else
    d.each [0, 1] (fun stg d =>
      let rs := (d.duePins n false).filter (fun p => p.2.stg == stg)
      if rs.isEmpty then d
      else
        let cycle := d.dcyc n - stg
        let x := d.pinSample n (d.posStep n) stg cycle
        let d := x.1.fab n (fun f => { f with pinsDone := rs.map (fun p => p.1) ++ f.pinsDone })
        match x.2 with
        | none => d
        | some v => d.fab n (fun f => { f with rets := f.rets ++ rs.map (fun p =>
            ({ kind := .pin, cl := p.2.cl, crs := p.2.crs, first := p.2.word, words := [(0, v)], gen := cycle % 2, left := 0,
               done := false, waiting := false } : Ret)) }))

/-- OUTPUT_UPDATE: the output record of a cell, when it belongs to the step in progress (R524). -/
def updateOutput (d : Dev) (n cell : Nat) : Dev :=
  if !(d.issuing n) then d
  else
    match (d.duePins n true).find? (fun p => p.2.cell == cell) with
    | none => d
    | some (i, r) =>
      let v := (wordData (d.word n r.cl r.crs r.word)).testBit r.bit
      (d.loadOut (12 * n + cell) v).fab n (fun f => { f with pinsDone := i :: f.pinsDone })

/-! ### The rest of a step, and its end -/

/-- The home path of every cluster of section n performs what it has to in the step in progress (R199). -/
def homePaths (d : Dev) (n : Nat) : Dev :=
  d.each (List.range 16) (fun c d => d.performFirst n (fun a => a.path && a.cl == c && a.left == 0) 0)

/-- Every BP of section n that has not issued does so, in ascending course and BP (R34). -/
def issueAll (d : Dev) (n : Nat) : Dev :=
  d.each (d.usedClusters n) (fun cl d =>
    d.each (List.range 64) (fun crs d => d.each (List.range 12) (fun bp d => d.issueBp n cl crs bp [])))

/-- The result words of step k (R36, R81, R87). -/
def writeResults (d : Dev) (n : Nat) : Dev :=
  let k := d.posStep n
  let bits_ := d.getSec n [] (fun s => s.fab.issued)
  d.each (d.usedClusters n) (fun cl d =>
    d.each (List.range 64) (fun crs d =>
      let stg := stageOf (d.insns (d.atStep n cl crs))
      if d.suppressed n stg then d
      else
        let v := ofOnes ((List.range 12).filter (fun bp => bits_.any (fun p => p.1 == bpKey cl crs bp && p.2)))
        d.setWord n cl crs k (mkWord v (d.dcyc n + stg) 1)))

/-- Everything of the step in progress that has not happened yet in section n. -/
def finishStep (d : Dev) (n : Nat) : Dev :=
  let d := (d.homePaths n).readRow n
  if !(d.issuing n) then d
  else
    let d := (d.capTaps n (d.posStep n) (d.dcyc n) (d.suppressed n)).issueAll n
    let d := d.samplePins n
    let d := d.each (List.range 12) (fun c d => d.updateOutput n c)
    d.writeResults n

/-- The step in progress is over in section n: POS advances (R141), the row read next is that of the step (R100), and a period may be at
its end. -/
def closeStep (d : Dev) (n : Nat) : Dev :=
  let t := d.stepNow n
  let k := d.posStep n
  match d.getSec n none (fun s => s.run.drain) with
  | some i => (d.run n (fun r => { r with drain := some (i + 1), inStep := false, lastStep := t.1, lastPeriod := t.2 })).fab n
      (fun f => { f with row := none })
  | none =>
    let last := k + 1 == d.period n
    let k' := if last then 0 else k + 1
    let d := d.wr (Reg.SCTL.POS.of n) (k' / 16 * 2 ^ 16 + k')
    (d.run n (fun r => { r with atEnd := last, inStep := false, lastStep := t.1, lastPeriod := t.2 })).fab n
      (fun f => { f with row := some k })

/-! ### Reads of DSTORE (R97, R278) -/

/-- Whether the tap port of cluster c takes a tap in the step in progress or to come: none in a hold, in the drain and outside RUNNING. -/
def tapBusy (d : Dev) (n c : Nat) : Bool :=
  d.running n && !(d.holding n) && d.getSec n false (fun s => s.run.drain.isNone) && d.tapAt n c (d.posStep n) (d.suppressed n)

/-- What a read of DSTORE answers now. -/
def tapBytes (d : Dev) (n : Nat) (r : TapRead) : List (BitVec 8) :=
  (toBytes r.size (d.dstoreRead n r.cl r.crs r.w / 2 ^ (8 * r.at_) % 2 ^ (8 * r.size))).map (BitVec.ofNat 8)

/-- The reads of DSTORE that wait in section n and need not any more are answered, the oldest first. -/
def serveReads (d : Dev) (n : Nat) : Dev :=
  let due := (d.getSec n [] (fun s => s.run.reads)).filter (fun r => !(d.tapBusy n r.cl))
  if due.isEmpty then d
  else
    let bs := (due.map (d.tapBytes n)).flatten
    { d.run n (fun x => { x with reads := x.reads.filter (fun r => d.tapBusy n r.cl) }) with
      rdata := bs
      rstat := 0 }

/-- The same in every section, after its run group has left RUNNING. -/
def serveGroup (d : Dev) : Dev := d.each (List.range 8) (fun n d => d.serveReads n)

/-- A read of DSTORE: answered at once, or by the first step in which the tap port is free. -/
def dstoreTap (d : Dev) (n : Nat) (r : TapRead) : Dev :=
  if d.tapBusy n r.cl then d.run n (fun x => { x with reads := x.reads ++ [r] })
  else { d with
    rdata := d.tapBytes n r
    rstat := 0 }

/-- EXECUTE_STEP: the run group of section n executes one step (R34). `ph` counts the step clocks since the last tick of TIME (R281). At the
end of a fret, and of the drain, the writes of the step take place with it; elsewhere they may follow one by one. -/
def executeStep (d : Dev) (n ph : Nat) : Dev :=
  let d := d.beginStep n
  if !(d.inStep n) then d
  else
    let g := d.group n
    let d :=
      if d.issuing n && d.posStep n == 0 then
        let x := d.usePace (d.leader n) ((d.stampAt ph).num % 2 ^ 80)
        x.1.each g (fun m d => d.capPeriod m (d.dcyc m) ph (d.fb (Reg.SCTL.STATE.of m) 8) x.2)
      else d
    let d := d.each g (fun m d => d.finishStep m)
    let d := d.each g (fun m d => (d.closeStep m).serveReads m)
    let drain := d.getSec n none (fun s => s.run.drain)
    if drain = some 16 then d.settleGroup n
    else if drain.isSome || d.posStep n % 16 != 0 then d
    else
      let d := (d.settleGroup n).fretRan n
      if d.getSec n false (fun s => s.run.atEnd) then d else (d.holdCheck n).each g (fun m d => d.serveReads m)

/-! ### Single events of a step -/

/-- CLUSTER_SLOT_READ and EXPORT_SLOT_READ. -/
def clusterSlotRead (d : Dev) (n cl x p ecc : Nat) : Dev := (d.beginStep n).readCslot n cl x p ecc
def exportSlotRead (d : Dev) (n cl e ecc : Nat) : Dev := (d.beginStep n).readGslot n cl e ecc

/-- CLUSTER_SLOT_WRITE: the write due through port CLp of a course. -/
def clusterSlotWrite (d : Dev) (n cl crs p : Nat) : Dev :=
  d.settleSel n (fun x => !x.global && x.dcl == cl && x.dcrs == crs && x.port == (if p = 0 then .cl0 else .cl1)) (fun _ => false)

/-- EXPORT_SLOT_WRITE: what arrives at port GBp of a course (R116). -/
def exportSlotWrite (d : Dev) (n cl crs p : Nat) : Dev :=
  d.settleSel n (fun x => x.global && x.dcl == cl && x.dcrs == crs && x.port == (if p = 0 then .gb0 else .gb1)) (fun _ => false)

/-- QRD_RETURN and HOME_MRD_RETURN (R59, R60). -/
def scheduledReturn (d : Dev) (n cl crs : Nat) (k : RetKind) : Dev :=
  d.settleSel n (fun _ => false) (fun r => r.kind == k && r.cl == cl && r.crs == crs)

/-- HOME_PATH_ACCESS: the home path of cluster c performs the access due in the coming step, with the halfword error it meets (R194, R199);
one of HOME = 0 goes on outside executed steps too (R84). -/
def homePathAccess (d : Dev) (n c ecc : Nat) : Dev :=
  if d.runState n = stRUNNING then
    let d := d.beginStep n
    if d.inStep n then d.performFirst n (fun a => a.path && a.cl == c && a.left == 0) ecc else d
  else (d.performFirst n (fun a => a.path && a.cl == c && !a.home) ecc).slipwayClear n

/-- NONHOME_BANK_ACCESS: the oldest entry of the non-home queue of cluster c is granted at its bank (R200); `lost` arbitrations that it lost
before make it urgent at the 64th (R198). It waits while another request goes first there (R196). -/
def nonhomeAccess (d : Dev) (n c lost ecc : Nat) : Dev :=
  let p := fun (a : MemAcc) => !a.home && !a.path && a.cl == c
  let d := d.when (decide (64 ≤ lost)) (fun d => d.requestUrgent n c 0)
  match (d.presented n).find? (fun a => a.cl == c) with
  | none => d
  | some a =>
    match d.accAddr n a with
    | some x => if d.wins n (bankOf x) c a.urgent then (d.performFirst n p ecc).slipwayClear n else d
    | none => (d.performFirst n p ecc).slipwayClear n

/-- INPUT_PIN_SAMPLE with what the board drives onto the cells then. -/
def inputPinSample (d : Dev) (n mask level : Nat) : Dev := ((d.boardDrive n mask level).beginStep n).samplePins n

/-- OUTPUT_UPDATE. -/
def outputUpdate (d : Dev) (n cell : Nat) : Dev := (d.beginStep n).updateOutput n cell

/-- HOLD_SAMPLE: the step whose start is a sampling point begins, with what the board drives onto the cells of section n then. -/
def holdSampleEvent (d : Dev) (n mask level : Nat) : Dev := (d.boardDrive n mask level).beginStep n

end Dev

end Sys2Proof.Machine
end

