-- ==== Sys2Proof/Machine/RunCtl.lean ====
section
/-! DEFINITION. Run control (R85 to R90, R103, R134 to R140, R153, R156 to R162, R548): commands, period ends, and when commands take effect. -/

namespace Sys2Proof.Machine

/-- OP codes of SCTL.CMD (R141). -/
abbrev rcSTART : Nat := 1
abbrev rcPAUSE : Nat := 2
abbrev rcRESUME : Nat := 3
abbrev rcSTEP : Nat := 4
abbrev rcSTOP : Nat := 5
abbrev rcRESTART : Nat := 6

namespace Dev

def cmdstat (n : Nat) : Loc := Reg.SCTL.CMDSTAT.of n
def sctlState (n : Nat) : Loc := Reg.SCTL.STATE.of n

/-- Whether section n waits with an armed START or STEP (R140). -/
def armed (d : Dev) (n : Nat) : Bool := d.fb (sctlState n) 4

/-- Whether a run command may be accepted in the present state (R137). -/
def acceptedIn (d : Dev) (n op : Nat) : Bool :=
  let st := d.runState n
  let a := d.armed n
  if op = rcSTART then st == stLOADED && !a
  else if op = rcPAUSE then st == stRUNNING
  else if op = rcRESUME then st == stPAUSED
  else if op = rcSTEP then (st == stLOADED && !a) || st == stPAUSED
  else if op = rcSTOP then st == stRUNNING || st == stPAUSED || (st == stLOADED && a)
  else st == stLOADED || st == stPAUSED || st == stHALTED

/-- The error of a run command, 0 when it is accepted (R548). `fwd`: the primary has forwarded it (R387). DESIGN CHOICE: START and STEP of a group are
refused with CLOCK or FAULT where one member's clocks or record demand it (log 73); so is, with CLOCK, a command that would enter RUNNING from PAUSED
against R130 (log 74). -/
def runErr (d : Dev) (n op mode : Nat) (fwd : Bool) : Nat :=
  let starts := (op == rcSTART || op == rcSTEP) && d.runState n == stLOADED
  let enters := starts || ((op == rcRESUME || op == rcSTEP || op == rcSTOP) && d.runState n == stPAUSED)
  if op = 0 ∨ rcRESTART < op then 6
  else if d.fd (sctlState n) 23 16 = 0 then 1
  else if d.leader n ≠ n then 2
  else if d.fb (cmdstat n) 31 && !(op == rcSTOP && d.armed n) then 3
  else if !(d.acceptedIn n op) || (!fwd && d.secondary && d.twinState == 2) then 1
  else if (starts && mode == 3) || (op == rcSTEP && d.rd (Reg.SCTL.STEPK.of n) == 0) then 7
  else if enters && !((d.group n).all (fun m => d.clocksReady m)) then 4
  else if starts && (d.group n).any (fun m => d.fb (Reg.SFLT.FSTAT.of m) 31) then 5
  else 0

/-- A section that begins to run in an episode runs at ÷2 from its first step (R502). -/
def thrOn (d : Dev) (n : Nat) : Dev :=
  match d.pow.episode with
  | some (ph, _) =>
    if ph = .reqHalf ∨ ph = .clearing then d
    else d.each (d.usedClusters n) (fun c d => (d.wb (clkstat n c) 6 true).showClock n c)
  | none => d

/-- The run group of section n starts to execute at its present DCYC: fret 0 is sampled now, and held if it is not ready (R143). -/
def beginRun (d : Dev) (n : Nat) (pro epi : Bool) : Dev :=
  let g := d.group n
  let d := d.each g (fun m d =>
    let s := sctlState m
    let d := ((((d.setState m stRUNNING).wb s 7 pro).wb s 8 epi).wb s 4 false).wr (Reg.SCTL.POS.of m) 0
    let d := (d.thrOn m).fab m (fun f => { f with ran := f.ran ||| ofOnes (d.usedClusters m) })
    d.run m (fun r => { r with armed := none, trigSeen := false, late := false, timeHit := false, atEnd := false, effectDue := false, sample := none,
                               resampled := false }))
  let d := d.sampleGroup n (d.fretHere n)
  d.holdCheck n

/-- A run from LOADED begins (R140, R153): STARTED carries the TIME. -/
def startRun (d : Dev) (n : Nat) (step : Bool) : Dev :=
  let late := d.getSec n false (fun s => s.run.late)
  let d := d.each (d.group n) (fun m d => d.clearPace m)
  let d := d.run n (fun r => { r with stepsLeft := if step then some (d.rd (Reg.SCTL.STEPK.of n)) else none, holdRun := 0, stallSent := false })
  let d := (d.beginRun n true false).wb (cmdstat n) 31 false
  (d.notice n 0x0101 [d.wrapNs]).when late (fun d => d.notice n 0x0105 [])

/-- An accepted START or STEP from LOADED (R140). In a paired primary a start at once becomes one at TIME plus 20 µs (R387). -/
def acceptStart (d : Dev) (n mode : Nat) (step : Bool) : Dev :=
  let arm := fun (d : Dev) (m : ArmMode) =>
    let d := (d.wb (cmdstat n) 31 true).each (d.group n) (fun m d => d.wb (sctlState m) 4 true)
    d.run n (fun r => { r with armed := some m, armStep := step, trigSeen := false, late := m == .atTime && d.timeReached n, timeHit := false })
  if mode = 1 then arm d .atTime
  else if mode = 2 then arm d .onTrigger
  else if d.pairedPrimary then arm (d.wr64 Reg.SCTL.STIME n [] ((d.time.ns + 20000) % 2 ^ 48)) .atTime
  else d.startRun n step

/-- The effect of an accepted run command (R137). -/
def runApply (d : Dev) (n op mode : Nat) : Dev :=
  let g := d.group n
  let st := d.runState n
  let busy := fun (d : Dev) => d.wb (cmdstat n) 31 true
  let flag := fun (b : Nat) (d : Dev) => d.each g (fun m d => d.wb (sctlState m) b true)
  if op = rcSTART then d.acceptStart n mode false
  else if op = rcPAUSE then flag 6 (busy d)
  else if op = rcRESUME then (d.each g (fun m d => d.clearPace m)).beginRun n false false
  else if op = rcSTEP then
    if st = stLOADED then d.acceptStart n mode true
    else
      let d := d.each g (fun m d => d.clearPace m)
      (d.run n (fun r => { r with stepsLeft := some (d.rd (Reg.SCTL.STEPK.of n)) })).beginRun n false false
  else if op = rcSTOP then
    if st = stLOADED then
      let d := d.each g (fun m d => d.wb (sctlState m) 4 false)
      (d.wb (cmdstat n) 31 false).run n (fun r => { r with armed := none, trigSeen := false, late := false, timeHit := false })
    else if st = stPAUSED then (flag 5 d).beginRun n false true
    else flag 5 (busy d)
  else
    d.each g (fun m d => ((d.discardFlight m).capRunEnd m).run m (fun r => { r with restarting := true }))
      |>.wb (cmdstat n) 31 true

/-- A run command that a paired primary has accepted goes to the secondary (R387, R401). -/
def forwardRun (d : Dev) (n op mode : Nat) (asker : Option Asker) : Dev :=
  if !d.pairedPrimary then d
  else
    let m := if (op == rcSTART || op == rcSTEP) && mode == 0 && d.armed n then 1 else mode
    let d := d.sendMir 0 ([4, n % 8 + d.fd (sctlState n) 23 16 * 8, m * 16 + op] ++ words12 4 (d.rd64 Reg.SCTL.STIME n) ++
      [d.rd (Reg.SCTL.STRIG.of n) % 512] ++ words12 3 (d.rd (Reg.SCTL.STEPK.of n)))
    d.twn (fun t => { t with fwd := t.fwd ++ [⟨n, m * 16 + op, asker⟩] })

/-- A write of SCTL.CMD (R136 to R140, R548): LASTOP and ERR, and the command's effect when it is accepted. A START or STEP on a trigger goes to the
secondary when the trigger has come, with the STIME that both then have, and a STOP before that concerns the primary alone (R387). -/
def runCmd (d : Dev) (n op mode : Nat) (asker : Option Asker) : Dev :=
  let e := d.runErr n op mode false
  let waits := (op == rcSTOP && d.getSec n false (fun s => s.run.armed == some .onTrigger)) ||
    ((op == rcSTART || op == rcSTEP) && mode == 2 && d.runState n == stLOADED)
  let d := (d.wf (cmdstat n) 7 4 op).wf (cmdstat n) 3 0 e
  if e != 0 then d
  else
    let d := d.runApply n op mode
    if waits then d else d.forwardRun n op mode asker

/-- A run command that the primary has forwarded to this secondary, which applies it (R387, R401). -/
def runForwarded (d : Dev) (n op mode : Nat) : Dev :=
  let e := d.runErr n op mode true
  let d := (d.wf (cmdstat n) 7 4 op).wf (cmdstat n) 3 0 e
  if e != 0 then d else d.runApply n op mode

/-- ARMED_START_FIRE (R140, R321): a tick has found the target TIME reached, or the trigger has arrived. The clock conditions of R130 hold the run back. -/
def armedFire (d : Dev) (n : Nat) : Dev :=
  let due := d.getSec n false (fun s => match s.run.armed with
    | some .atTime => s.run.timeHit
    | some .onTrigger => s.run.trigSeen
    | none => false)
  if !due || !((d.group n).all (fun m => d.clocksReady m)) || d.haltDue n then d
  else if d.getSec n false (fun s => s.run.armed == some .onTrigger) && d.pairedPrimary then
    let step := d.getSec n false (fun s => s.run.armStep)
    (d.acceptStart n 0 step).forwardRun n (if step then rcSTEP else rcSTART) 0 none
  else d.startRun n (d.getSec n false (fun s => s.run.armStep))

/-! ### Digest records of a twin pair (R391) -/

/-- Compares the digests of section m and period j where both are present. With no self-detected fault in either twin (R403), a mismatch halts its run group at the end of the fret;
the pair's state is then HALTED (R403's register table). -/
def digestCompare (d : Dev) (m j : Nat) : Dev :=
  let pick := fun (l : List DigestRec) => l.find? (fun r => r.sec == m && r.period == j)
  match pick d.twin.own, pick d.twin.other with
  | some a, some b =>
    let drop := fun (l : List DigestRec) => l.filter (fun r => !(r.sec == m && r.period == j))
    let d := d.twn (fun t => { t with own := drop t.own, other := drop t.other })
    let d := d.when (d.fb Reg.TWIN.STAT.hubAt 0) (fun d => d.bump Reg.TWIN.DIGCMP.hubAt)
    if a.value = b.value || !d.twin.selfDue.isEmpty then d
    else
      let t := d.getSec m (0, 0) (fun s => (s.run.lastStep, s.run.lastPeriod))
      let d := d.fresh 13 (fun c d => d.raise m ⟨fDOMAIN_OFF, 0, c, 0xF, t.1, t.2⟩)
      ((d.wf Reg.TWIN.STAT.hubAt 31 28 5).wf Reg.TWIN.STAT.hubAt 27 24 3).hubNotice 0x0709 [m, j]
  | _, _ => d

/-- At the end of period j with (j + 1) mod 4,096 = 0 each twin records the digest of section m and sends it (R391, R401). -/
def twinDigest (d : Dev) (m j : Nat) : Dev :=
  if d.twinState != 2 || (j + 1) % 4096 != 0 then d
  else
    let v := d.rd64 Reg.TWIN.SDIG 8 [m]
    let d := (d.sendMir 0 ([3, m] ++ words12 6 j ++ words12 6 v)).twn (fun t => { t with own := t.own ++ [⟨m, j, v⟩] })
    d.digestCompare m j

/-! ### Period ends and effects -/

/-- PERIOD_END (R85, R89, R103, R390): the digest takes the period number, DCYC advances, and the next period begins or a command is due; after
the epilogue the drain begins. -/
def periodEnd (d : Dev) (n : Nat) : Dev :=
  if !(d.getSec n false (fun s => s.run.atEnd)) || !(d.running n) then d
  else if d.haltDue n then d
  else
    let g := d.group n
    let d := d.each g (fun m d => d.run m (fun r => { r with atEnd := false }))
    if d.fb (sctlState n) 8 then d.each g (fun m d => d.run m (fun r => { r with drain := some 0 }))
    else
      let d := d.each g (fun m d =>
        let j := d.dcyc m
        let d := d.wr64 Reg.TWIN.SDIG 8 [m] (digestBytes (d.rd64 Reg.TWIN.SDIG 8 [m]) (toBytes 8 j))
        ((d.twinDigest m j).wr64 Reg.SCTL.DCYC m [] ((j + 1) % 2 ^ 64)).wb (sctlState m) 7 false)
      let ld := d.leader n
      let d := d.run ld (fun r => { r with stepsLeft := r.stepsLeft.map (fun k => k - 1) })
      let due := d.fb (sctlState ld) 5 || d.fb (sctlState ld) 6 || d.getSec ld false (fun s => s.run.stepsLeft == some 0)
      if due then d.each g (fun m d => d.run m (fun r => { r with effectDue := true })) else d.holdCheck n

/-- Whether a period has ended at which something takes effect, and what the leader waits for. -/
def effectDue (d : Dev) (n : Nat) : Bool := d.getSec n false (fun s => s.run.effectDue) && !(d.haltDue n)

/-- The run group of section n enters PAUSED (R137, R162): the sample taken is discarded. -/
def enterPaused (d : Dev) (n : Nat) : Dev :=
  let d := d.each (d.group n) (fun m d =>
    let s := sctlState m
    ((((d.setState m stPAUSED).wb s 6 false).wb s 7 false).capBreak m).run m (fun r => { r with effectDue := false, sample := none, stepsLeft := none }))
  d.wb (cmdstat (d.leader n)) 31 false

/-- PAUSE_EFFECT (R137): a pending STOP and a completed STEP go first (R162). -/
def pauseEffect (d : Dev) (n : Nat) : Dev :=
  let ld := d.leader n
  if !(d.effectDue n) || d.fb (sctlState ld) 5 || !(d.fb (sctlState ld) 6) || d.getSec ld false (fun s => s.run.stepsLeft == some 0) then d
  else (d.enterPaused n).notice ld 0x0102 []

/-- STEP_COMPLETE (R137, R162): STEP_DONE, then PAUSED where a PAUSE was pending. -/
def stepComplete (d : Dev) (n : Nat) : Dev :=
  let ld := d.leader n
  if !(d.effectDue n) || d.fb (sctlState ld) 5 || !(d.getSec ld false (fun s => s.run.stepsLeft == some 0)) then d
  else
    let pausing := d.fb (sctlState ld) 6
    ((d.enterPaused n).notice ld 0x0104 []).when pausing (fun d => d.notice ld 0x0102 [])

/-- STOP_EFFECT (R89, R137, R138): the epilogue begins, held first where its fret 0 was not ready, and the command has taken effect. DESIGN CHOICE (log
72): the sample taken before a STOP was accepted decides, although it was not taken as one of an epilogue. -/
def stopEffect (d : Dev) (n : Nat) : Dev :=
  let ld := d.leader n
  if !(d.effectDue n) || !(d.fb (sctlState ld) 5) then d
  else
    let d := d.each (d.group n) (fun m d =>
      let s := sctlState m
      ((d.wb s 8 true).wb s 6 false).run m (fun r => { r with effectDue := false, stepsLeft := none }))
    (d.wb (cmdstat ld) 31 false).holdCheck n

/-- EPILOGUE_DRAIN_END (R89, R103): LOADED, with every arrival in place. DESIGN CHOICE (log 67): a PAUSE or STOP accepted in the epilogue or drain is
over here too. -/
def drainEnd (d : Dev) (n : Nat) : Dev :=
  if d.getSec n none (fun s => s.run.drain) != some 16 || d.haltDue n then d
  else
    let d := d.each (d.group n) (fun m d =>
      let s := sctlState m
      let d := ((((d.setState m stLOADED).wb s 8 false).wb s 7 false).wb s 6 false).wb s 5 false
      let d := (d.fab m (fun f => { f with xfers := [], rets := f.rets.filter (fun r => !r.done), row := none })).capBreak m
      d.run m (fun r => { r with drain := none, sample := none }))
    (d.wb (cmdstat (d.leader n)) 31 false).notice (d.leader n) 0x0103 []

/-- FAULT_HALT (R22, R104, R156, R158): at the end of the fret, hold or drain in which a member faulted or left. -/
def faultHalt (d : Dev) (n : Nat) : Dev :=
  let d := d.settleGroup n
  let drain := d.getSec n none (fun s => s.run.drain)
  let boundary := drain == some 16 || (drain.isNone && (d.holding n || d.posStep n % 16 == 0))
  if !(d.running n) || d.inStep n || !boundary || !(d.haltDue n) then d
  else
    let fret := if drain.isSome then 0 else if d.holding n then d.posStep n / 16 else d.getSec n 0 (fun s => s.run.lastStep) / 16
    d.haltGroup n fret

/-- GROUP_MEMBER_LEAVE: a group that section x has left while it ran halts at the end of its fret or hold (R122). -/
def memberLeave (d : Dev) (x : Nat) : Dev :=
  match (List.range 8).find? (fun m => d.getSec m false (fun s => s.run.memberLeft.contains x)) with
  | some m => d.faultHalt m
  | none => d

/-- FAULT_RECORD_CLEAR (R159). -/
def faultClear (d : Dev) (n : Nat) : Dev :=
  let st := d.runState n
  if st = stLOADED ∨ st = stHALTED then d.clearFault n else d

end Dev

end Sys2Proof.Machine
end

