-- ==== Sys2Proof/Machine/Starts.lean ====
section
/-! DEFINITION. The state of each part of a section at its reset, and the parts of entering SLIPWAY or PARKED that loads, soft resets and
power-down share (R94, R132, R135, R177, R238, R264, R506, R508). -/

namespace Sys2Proof.Machine

namespace Dev

/-- Run control of section m at rest, its executed steps kept. -/
def runRest (d : Dev) (m : Nat) : Dev :=
  d.run m (fun r => { RunSt.start with xstep := r.xstep })

/-- SCTL.STATE with a run state and nothing else. -/
def stateOnly (d : Dev) (m st : Nat) : Dev := d.wr (Reg.SCTL.STATE.of m) st

/-- Every queue of section n is reset, its words counted and announced, and runs in start-up chain mode (R177, R238, R243). A queue whose
banks had passed their scrub keeps that. -/
def queuesToChain (d : Dev) (n : Nat) : Dev :=
  d.each (List.range 64) (fun q d =>
    (d.queueReset n q).queue n q (fun x => { x with mode := 1, passed := x.passed || x.mode == 0, span := .none, taken := [] }))

end Dev

end Sys2Proof.Machine
end

