-- ==== Sys2Proof/Machine/Load.lean ====
section
/-! DEFINITION. The loader (R163 to R188): placement, relocation, the stages of a load, COMMIT, abandonment, and the initial values that
RESTART writes again. -/

namespace Sys2Proof.Machine

open Hvx

/-- SMA of an image-space offset (R191). -/
def imageSma (x : Nat) : Nat := if x < 0x800000 then x else hbmBase + (x - 0x800000)

/-- The line of a section memory address that an image-space line becomes (R173). -/
def imageLine (l : Nat) : Nat := imageSma (64 * l) / 64

/-- Offset of the initial-value reserve in the HBM3 range (R180). -/
def reserveAt : Nat := 0xEFC00000

/-- The load report (R188). -/
def loadReport (st : Nat) (r : Rej) (place : List Nat) (hdrop wmax : Nat) : List Nat :=
  toBytes 2 st ++ [0, 0, r.vsec % 256, r.vcl % 256, r.course % 256, r.bp % 256] ++ toBytes 2 r.step ++ toBytes 2 r.seg ++ toBytes 4 r.off ++
    (List.range 8).map (fun v => place.getD v 0xFF) ++ toBytes 2 (min hdrop 0xFFFF) ++ toBytes 2 (min wmax 0xFFFF) ++ [0, 0, 0, 0]

/-- Physical cluster of a virtual one under a permutation. -/
def permOf (perms : List (List Nat)) (v c : Nat) : Nat := (perms.getD v []).getD c c

/-! ### Relocation (R174, R268, R271) -/

/-- The SMA bounds of what region k of a virtual cluster reaches (R174, R191). -/
def relocRegion (b : List Nat) (l : List Seg) (v c k : Nat) : Option (Nat × Nat) :=
  (regionAt b l v c k).map (fun r => (imageSma r.1, imageSma r.2))

/-- What one relocation record writes: byte offset in the image and bytes; none where it is invalid. -/
def relocOne (b : List Nat) (l : List Seg) (place : List Nat) (perms : List (List Nat)) (o : Nat) : Option (Nat × List Nat) :=
  let typ := leAt b o 1
  let shift := leAt b (o + 1) 1
  let toff := leAt b (o + 4) 4
  let ref := leAt b (o + 8) 4
  let add := sext 32 (leAt b (o + 12) 4)
  let v := ref / 2 ^ 24
  let c := ref / 2 ^ 16 % 256
  let i := ref % 2 ^ 16
  let size := if typ = 1 then 4 else if typ = 2 then 8 else if typ ≤ 4 then 2 else 1
  match l.find? (fun s => s.idx == leAt b (o + 2) 2) with
  | none => none
  | some t =>
    if typ = 0 ∨ 6 < typ ∨ nvsec b ≤ v ∨ t.typ ≠ (if typ = 3 then sgINIT else sgTCM) ∨ t.len < toff + size then none
    else
      let put := fun (x : Int) (bits_ : Nat) => if 0 ≤ x ∧ x < 2 ^ bits_ then some (t.off + toff, toBytes size x.toNat) else none
      if typ = 1 then
        match relocRegion b l v c i with
        | none => none
        | some (lo, hi) =>
          if lo < 0x800000 then put (0x80000000 + lo + add) 32
          else if (lo - hbmBase) / 2 ^ 30 ≠ (hi - hbmBase) / 2 ^ 30 then none
          else put (((0xC0000000 + (lo - hbmBase) % 2 ^ 30 : Nat) : Int) + add) 32
      else if typ = 2 then
        match relocRegion b l v c i with
        | none => none
        | some (lo, _) => put (0x4000000000 + lo + add) 64
      else if typ = 3 then
        match relocRegion b l v c i with
        | none => none
        | some (lo, _) =>
          if !([0, 12, 24, 36].contains shift) || toff % 8 != 4 then none
          else put (((lo / 2 / 2 ^ shift % 4096 : Nat) : Int) + add) 12
      else if typ = 4 then
        if isUsed b v c && decide (i < 64) then put ((globalCourse (place.getD v 0) (permOf perms v c) i : Nat) : Int) 16 else none
      else if typ = 5 then put ((place.getD v 0 : Nat) : Int) 8
      else if i < 12 then put ((12 * place.getD v 0 + i : Nat) : Int) 8 else none

/-- The image with every relocation applied, or the record that is invalid (R174). -/
def relocate (b : List Nat) (l : List Seg) (place : List Nat) (perms : List (List Nat)) : List Nat ⊕ Rej :=
  match seg? l sgRELOC 0xFF 0xFF with
  | none => .inl b
  | some s => match records s 16 with
  | none => .inr (atSeg ldRELOC s 0)
  | some os =>
    os.foldl (fun acc o =>
      match acc with
      | .inr r => .inr r
      | .inl x =>
        match relocOne b l place perms (s.off + o) with
        | none => .inr { st := ldRELOC, vsec := leAt b (s.off + o + 11) 1, seg := s.idx, off := o }
        | some (at_, bs) => .inl (x.take at_ ++ bs ++ x.drop (at_ + bs.length))) (.inl b)

namespace Dev

/-! ### Sources -/

/-- A byte of flash; erased flash reads 0xFF (log 11). -/
def flashByte (d : Dev) (a : Nat) : Nat := (Sparse.get (fun _ => 255) d.boot.flash a).toNat

def flashRead (d : Dev) (a n : Nat) : List Nat := (List.range n).map (fun i => d.flashByte (a + i))

/-- The image bytes of a load: host memory, or flash for the autostart (R175, R180). -/
def imageBytes (d : Dev) (x : LoadSt) : List Nat := if x.auto then d.flashRead x.buf x.len else d.hostRead x.buf x.len

/-- The placement map (R425, R493); empty when there is none. -/
def placeMap (d : Dev) (x : LoadSt) : List Nat :=
  if x.auto then (match d.boot.booted with | some r => span r.auto 0x10 72 | none => [])
  else if x.buf2 = 0 then [] else d.hostRead x.buf2 72

/-- The signing policy of the booted record (R171, R483). -/
def policyBytes (d : Dev) : List Nat := match d.boot.booted with | some r => r.policy | none => []

/-! ### Placement (R172, R176, R425) -/

/-- The sections that loads past stage 2 hold. -/
def loadTargets (d : Dev) : List Nat := ((d.loads.filter (fun x => decide (3 ≤ x.stage))).map (fun x => x.place)).flatten

/-- Whether section n may be a target of a load through function f, whatever its run group. -/
def eligible0 (d : Dev) (f n : Nat) : Bool :=
  let st := d.runState n
  d.fd (Reg.PWR.SECT.STAT.hubAt [n]) 30 29 == 2 && !(d.fb (Reg.PWR.SECT.STAT.hubAt [n]) 31) &&
  (st == stPARKED || st == stLOADED || st == stHALTED) && !(d.loadTargets.contains n) && (f == 0 || n == f - 1)

/-- Whether it is eligible beside the other targets (R172). -/
def eligibleIn (d : Dev) (f : Nat) (targets : List Nat) (n : Nat) : Bool :=
  d.eligible0 f n && (onesOf 8 (d.fd (Reg.SCTL.STATE.of n) 23 16)).all (fun m => targets.contains m)

/-- The sections that FIXSEC and the placement map name, 0xFF where neither does, or a rejection. -/
def fixedPlaces (b : List Nat) (l : List Seg) (map : List Nat) : List Nat ⊕ Rej :=
  (List.range (nvsec b)).foldl (fun acc v =>
    match acc with
    | .inr r => .inr r
    | .inl p =>
      let fix := fixsec b v
      let s := if fix = 0xFF then map.getD v 0xFF else fix
      if fix = 0xFF ∧ (!(Hvx.pins b l v).isEmpty || !(qmaps b l v).isEmpty) then .inr { st := ldPLACEMENT, vsec := v }
      else if s ≠ 0xFF ∧ (7 < s ∨ p.contains s) then .inr { st := ldPLACEMENT, vsec := v }
      else .inl (p ++ [s])) (.inl [])

/-- The default rule: the lowest-numbered eligible section still free, in ascending order of v. DESIGN CHOICE (log 79): a section of a run group is
eligible only where the other members are among the places given so far, so that a freely placed image takes over no group of several sections. -/
def freePlaces (d : Dev) (f : Nat) (p : List Nat) : List Nat ⊕ Rej :=
  (List.range p.length).foldl (fun acc v =>
    match acc with
    | .inr r => .inr r
    | .inl q =>
      if q.getD v 0 ≠ 0xFF then .inl q
      else match (List.range 8).find? (fun n => !(q.contains n) && d.eligible0 f n && d.eligibleIn f (n :: q) n) with
        | some n => .inl (q.set v n)
        | none => .inr { st := ldTARGET, vsec := v }) (.inl p)

/-- The cluster permutations, or a rejection (R425). -/
def permutations (nv : Nat) (map : List Nat) : List (List Nat) ⊕ Rej :=
  (List.range nv).foldl (fun acc v =>
    match acc with
    | .inr r => .inr r
    | .inl ps =>
      let w := leAt map (8 + 8 * v) 8
      let p := if w = 0 then List.range 16 else (List.range 16).map (fun c => bits w (4 * c + 3) (4 * c))
      if p.eraseDups.length = 16 then .inl (ps ++ [p]) else .inr { st := ldPLACEMENT, vsec := v }) (.inl [])

/-- Placement as a whole. -/
def placement (d : Dev) (f : Nat) (b : List Nat) (l : List Seg) (map : List Nat) : (List Nat × List (List Nat)) ⊕ Rej :=
  if f ≠ 0 ∧ 1 < nvsec b then .inr { st := ldTARGET }
  else match fixedPlaces b l map with
    | .inr r => .inr r
    | .inl p =>
      match d.freePlaces f p with
      | .inr r => .inr r
      | .inl q =>
        match (List.range q.length).find? (fun v => !(d.eligibleIn f q (q.getD v 0))) with
        | some v => .inr { st := ldTARGET, vsec := v }
        | none =>
          match permutations (nvsec b) map with
          | .inr r => .inr r
          | .inl ps => .inl (q, ps)

/-- Whether the lanes from `blane` on in section n have the given BWIDTH (R358). -/
def lanesHave (d : Dev) (n blane w : Nat) : Bool :=
  ((List.range 32).map (· + 32 * n)).all (fun m =>
    !(decide (blane ≤ d.secLane m ∧ d.secLane m < blane + 2 ^ w)) || d.fd (laneLoc Reg.LANE.CTL m) 24 23 == w)

/-! ### Pass 1 (R176) -/

/-- What pass 1 decides: the relocated image, the views and the tables, or a rejection with the placement made so far. -/
structure Pass1 where
  img : List Nat
  place : List Nat
  perms : List (List Nat)
  tabs : List Tables
deriving DecidableEq, Repr

def pass1 (d : Dev) (f : Nat) (b map : List Nat) : Pass1 ⊕ (Rej × List Nat) :=
  let l := segs b
  let st := Reg.BOOT.OTPSTAT.hubAt
  match firstRej [formatRej b, versionRej b, policyRej b d.policyBytes (d.fd st 11 8) (d.fd st 15 12), recordsRej b] with
  | some r => .inr (r, [])
  | none =>
    match d.placement f b l map with
    | .inr r => .inr (r, [])
    | .inl (place, perms) =>
      match relocate b l place perms with
      | .inr r => .inr (r, place)
      | .inl img =>
        let ws := (List.range (nvsec b)).map (view img l)
        match staticRej img l (fun v bl w => d.lanesHave (place.getD v 0) bl w) ws with
        | some r => .inr (r, place)
        | none =>
          let ts := ws.map (fun w => waitTables img l (permOf perms w.v) w)
          match ts.findSome? (fun t => match t with | .inr r => some r | .inl _ => none) with
          | some r => .inr (r, place)
          | none => .inl ⟨img, place, perms, ts.filterMap (fun t => match t with | .inl x => some x | .inr _ => none)⟩

/-- The security notice of a rejection for SIGNATURE (R496). The manual numbers no check for an unsigned image: a free value. -/
def rejectNotice (d : Dev) (r : Rej) : Dev :=
  if r.st ≠ ldSIGNATURE then d
  else match r.check with
    | some c => d.hubNotice 0x0A03 [r.vsec, c]
    | none => d.fresh 8 (fun c d => d.hubNotice 0x0A03 [r.vsec, c])

/-- A load ends: its completion, or the autostart's ASTAT (R188, R421, R493). -/
def loadEnd (d : Dev) (x : LoadSt) (st : Nat) (report : List Nat) : Dev :=
  let a := Reg.BOOT.ASTAT.hubAt
  if x.auto then (d.wf a 31 16 st).wf a 2 0 (if st = 0 then 1 else 4)
  else d.finishLong x.fn x.cid (if st = 0 then 0 else 0x0200 + st) report

/-- Whether a load is in stages 1 to 4 (R179). -/
def loadBusy (d : Dev) : Bool := d.loads.any (fun x => decide (x.stage < 5))

/-- The sections a waiting load is certain to claim: those that FIXSEC or the map name, or the function's own. -/
def certainTargets (d : Dev) (x : LoadSt) : List Nat :=
  let b := d.imageBytes x
  let own := if x.fn = 0 then [] else [x.fn - 1]
  match fixedPlaces b (segs b) (d.placeMap x) with
  | .inl p => own ++ p.filter (· != 0xFF)
  | .inr _ => own

/-- Stage 1 and pass 1 of a load (R176): decided now, acted on when pass 1 completes. Behind a load in stages 1 to 4 it waits, or is
refused where their targets overlap (R179). -/
def loadBegin (d : Dev) (x : LoadSt) : Dev :=
  if d.loadBusy then
    let held := ((d.loads.filter (fun y => decide (y.stage < 5))).map (fun y => y.place)).flatten
    if (d.certainTargets x).any (fun n => held.contains n) then d.loadEnd x ldTARGET (loadReport ldTARGET { st := ldTARGET } [] 0 0) else d
  else
    let b := d.imageBytes x
    let r := d.pass1 x.fn b (d.placeMap x)
    let y : LoadSt := match r with
      | .inr (r, place) => { x with rej := some (loadReport r.st r place 0 0), place := [] }
      | .inl p => { x with
          nv := nvsec b, period := Hvx.period b, place := p.place, perms := p.perms
          masks := (List.range (nvsec b)).map (fun v => ofOnes ((Hvx.used b v).map (permOf p.perms v)))
          digest := digestNow b, imgid := span b 0x40 16, secver := secver b
          hdrop := p.tabs.foldl (fun a t => a + t.drop) 0, wmax := p.tabs.foldl (fun a t => Nat.max a t.max) 0 }
    let d := match r with | .inr (r, _) => d.rejectNotice r | .inl _ => d
    { d with loads := d.loads ++ [y] }

/-- A load of a function, with nothing decided. -/
def newLoad (f cid : Nat) (auto : Bool) (buf len buf2 : Nat) : LoadSt :=
  { fn := f, cid := cid, auto := auto, buf := buf, len := len, buf2 := buf2, stage := 2, rej := none, nv := 0, period := 0, place := [],
    perms := [], masks := [], digest := [], imgid := [], secver := 0, hdrop := 0, wmax := 0 }

/-! ### Stages 3 to 5 -/

/-- One of the targets `all` enters SLIPWAY (R84, R119, R141, R159, R176, R177, R264, R310). Its data stores are cleared when NHCNT is 0. -/
def enterSlipway (d : Dev) (all : List Nat) (mask n : Nat) : Dev :=
  let d := (((d.capRunEnd n).leaveGroup all n).stateOnly n stSLIPWAY).runRest n
  let d := ((((d.discardFlight n).clearFault n).clearCells n).dropPulse n).queuesToChain n
  let d := ((d.wb (Reg.SCTL.CMDSTAT.of n) 31 false).wr (Reg.SCTL.PERIOD.of n) 0).clearCalls n true
  let ran := d.getSec n 0 (fun s => s.fab.ran)
  (d.fab n (fun f => { f with clearDue := some (mask &&& ran) })).slipwayClear n

/-- The banks that an image's regions touch in a section (R211); a MEMINIT record lies in one of them. -/
def touchedBanks (b : List Nat) (l : List Seg) (v : Nat) : List Nat :=
  let regs := ((Hvx.used b v).map (fun c => (List.range 8).filterMap (regionAt b l v c))).flatten
  (List.range 16).filter (fun k => regs.any (fun r => inSpad r.1 && decide (bankOf r.1 ≤ k ∧ k ≤ bankOf r.2)))

/-- Sets ON the banks a section needs. -/
def banksUp (d : Dev) (n : Nat) (bs : List Nat) : Dev :=
  if bs.isEmpty then d
  else d.bankpwrWrite n (bs.foldl (fun a k => setBits a (2 * k + 1) (2 * k) 0) (d.rd (Reg.SPAD.BANKPWR.of n)))

/-- The load in stages 2 to 4, if there is one. -/
def loadNow (d : Dev) : Option LoadSt := d.loads.find? (fun x => decide (x.stage < 5))

/-- The loads with the first one that equals `x` replaced or removed. -/
def loadSet (d : Dev) (x : LoadSt) (y : Option LoadSt) : Dev :=
  { d with loads := (d.loads.map (fun z => if z = x then y else some z)).filterMap (fun z => z) }

/-- LOAD_PASS1_COMPLETE (R176): a rejection completes the command and changes nothing else; otherwise every target enters SLIPWAY and
stage 4 begins. -/
def loadPass1Done (d : Dev) : Dev :=
  match d.loadNow with
  | none => d
  | some x =>
    if x.stage ≠ 2 then d
    else match x.rej with
      | some r => (d.loadSet x none).loadEnd x (ofBytes (r.take 2)) r
      | none =>
        if !(x.place.all (d.eligibleIn x.fn x.place)) then
          (d.loadSet x none).loadEnd x ldTARGET (loadReport ldTARGET { st := ldTARGET } x.place 0 0)
        else
          let b := d.imageBytes x
          let d := d.each x.place.zipIdx (fun p d => d.enterSlipway x.place (x.masks.getD p.2 0) p.1)
          let d := d.each x.place (fun n d => d.runRest n)
          let d := d.each x.place.zipIdx (fun p d => d.banksUp p.1 (touchedBanks b (segs b) p.2))
          d.loadSet x (some { x with stage := 4 })

/-- Whether stage 4 can end (R84, R132, R211): no access with HOME = 0 counts, no cluster reset runs, and the banks are ON. -/
def loadReady (d : Dev) (x : LoadSt) : Bool :=
  let b := d.imageBytes x
  x.place.zipIdx.all (fun p => d.nhCount p.1 == 0 && (List.range 16).all (fun c => !(d.fb (clkstat p.1 c) 5)) &&
    (touchedBanks b (segs b) p.2).all (d.bankOn p.1))

/-- The registers of a region (R203): CTL, BASE and LIMIT of an image-space declaration. -/
def putRegion (d : Dev) (ctl base lim : Loc) (k : Nat) (r : Option (Nat × Nat × Nat)) : Dev :=
  match r with
  | none => ((d.wr ctl 0).wr base 0).wr lim 0
  | some (c, b, l) => ((d.wr ctl (c &&& (if k < 4 then 0xC0001F03 else 0x80001F03))).wr base (imageLine b)).wr lim (imageLine l)

/-- Data written into section memory by the loader, line by line, each whole line with its tally; the section controller's cache does not keep the
lines (R272). -/
def putData (d : Dev) (n a : Nat) (bs : List Nat) : Dev :=
  (d.flushWhere n (fun l => decide (a / 64 ≤ l ∧ l ≤ (a + bs.length) / 64))).each (List.range (bs.length / 64 + 2)) (fun i d =>
    let lo := max a ((a / 64 + i) * 64)
    let hi := min (a + bs.length) ((a / 64 + i + 1) * 64)
    if hi ≤ lo then d
    else
      let part := (bs.drop (lo - a)).take (hi - lo)
      d.writeLine n lo part (if part.length = 64 then some ⟨some (BitVec.ofNat 32 (crc32c part)), false⟩ else none))

/-- The relocated initial values of a section stand in its reserve (R180). -/
def putReserve (d : Dev) (n : Nat) (perm : Nat → Nat) (ini : List (Nat × Init)) : Dev :=
  let inR := fun a => decide (reserveAt ≤ a ∧ a < reserveAt + 0x200000)
  let d := (d.flushWhere n (fun l => inR (64 * l - hbmBase))).mem n (fun m => { m with
    hbm := Sparse.keep (fun a => !(inR a)) m.hbm
    hbmTag := Sparse.keep (fun l => !(inR (64 * l - hbmBase))) m.hbmTag })
  d.each ini (fun e d =>
    d.setBytes n (hbmBase + reserveAt + 2 * (65536 * perm e.1 + 1024 * e.2.x + e.2.w)) (toBytes 2 (0x8000 + e.2.v)))

/-- The areas of the capture engine: regions 0 to 2 of master 16 cover DBASE, HBASE and ABASE exactly (R307). -/
def captureRegions (d : Dev) (n : Nat) : Dev :=
  let area := fun (k base size : Nat) (d : Dev) =>
    let on := decide (0 < size)
    ((d.wr (Reg.SPAD.REG.CTL.of n [16, k]) (if on then 0x80000003 else 0)).wr (Reg.SPAD.REG.BASE.of n [16, k]) base).wr
      (Reg.SPAD.REG.LIMIT.of n [16, k]) (base + (size - 1) / 64)
  let cnt := d.fd (Reg.CAPT.ACTCTL.of n) 19 10
  let rows := d.capNseg n * (d.capPre n + d.capPost n) * d.rowStride n
  let acts := max 1 (d.rd (Reg.CAPT.ANB.of n)) * (64 + 64 * ((48 * cnt + 63) / 64))
  let d := area 0 (d.rd (Reg.CAPT.DBASE.of n)) rows d
  let d := area 1 (d.rd (Reg.CAPT.HBASE.of n)) (64 * d.capNseg n) d
  area 2 (d.rd (Reg.CAPT.ABASE.of n)) acts d

/-- The PROBE records of a section (R173, R307). -/
def putProbes (d : Dev) (n : Nat) (perm : Nat → Nat) (ps : List (Nat × Nat × Nat)) : Dev :=
  if ps.isEmpty then d
  else (d.each ps (fun r d =>
    match probeReg r.1 with
    | none => d
    | some f =>
      let v := if f.row = Reg.CAPT.PROBE then setBits r.2.1 29 26 (perm (bits r.2.1 29 26))
        else if f.row = Reg.CAPT.DBASE ∨ f.row = Reg.CAPT.HBASE ∨ f.row = Reg.CAPT.ABASE then imageLine r.2.1
        else r.2.1
      d.wr (f.loc n) (v &&& f.row.mask f.hi (fun t => t == .rw)))).captureRegions n

/-- Pass 2 for one cluster: instruction store, slot tables and wait table (R72, R113, R148, R173). -/
def putCluster (d : Dev) (n v c pc : Nat) (b : List Nat) (l : List Seg) (place : List Nat) (perms : List (List Nat)) (t : Tables) : Dev :=
  let p := Hvx.period b
  let xs := ((List.range 64).map (fun x => ((List.range 12).map (fun bp => (List.range p).map (fun k => (x, bp, k)))).flatten)).flatten
  let d := d.fab n (fun f => { f with
    code := xs.foldl (fun tb e => let i := Hvx.code b l v c e.1 e.2.1 e.2.2
      if i = 0 then tb else tb.set (codeKey pc e.1 e.2.1 e.2.2) (BitVec.ofNat 96 i)) (f.code.fill codeCl codeRow pc p)
    cslot := ((List.range p).map (fun s => (List.range 128).map (fun i => (s, i)))).flatten.foldl (fun tb e =>
      let w := Hvx.cslot b l v c e.1 (e.2 / 2) (e.2 % 2)
      if w = 0 then tb else tb.set (cslotKey pc e.1 (e.2 / 2) (e.2 % 2)) (BitVec.ofNat 32 w)) (f.cslot.fill (· / 65536) cslotRow pc p)
    gslot := ((List.range p).map (fun s => (List.range 16).map (fun i => (s, i)))).flatten.foldl (fun tb e =>
      let g := Hvx.gslot b l v c e.1 e.2
      let dv := if g.testBit 39 then bits g 38 36 else v
      let g := if nvsec b ≤ dv then g
        else setBits (setBits g 35 32 (permOf perms dv (bits g 35 32))) 38 36 (if g.testBit 39 then place.getD dv 0 else bits g 38 36)
      if g = 0 then tb else tb.set (gslotKey pc e.1 e.2) (BitVec.ofNat 64 g)) (f.gslot.fill (· / 8192) gslotRow pc p)
    wait := ((t.rows.zipIdx.map (fun r => match r.1.find? (fun x => x.1 == pc) with
        | some x => x.2.zipIdx.map (fun e => (r.2, e.2, e.1))
        | none => [])).flatten).foldl (fun tb e => tb.set (waitKey pc e.1 e.2.1) (BitVec.ofNat 32 e.2.2))
      (f.wait.fill (· / 256) waitRow pc (p / 16)) })
  d.each (List.range 8) (fun k d =>
    d.putRegion (Reg.SPAD.REG.CTL.of n [pc, k]) (Reg.SPAD.REG.BASE.of n [pc, k]) (Reg.SPAD.REG.LIMIT.of n [pc, k]) k (region? b l v c k))

/-- Pass 2 for one section (R176 stage 4). -/
def putSection (d : Dev) (n v : Nat) (x : Pass1) : Dev :=
  let b := x.img
  let l := segs b
  let perm := permOf x.perms v
  let t := x.tabs.getD v ⟨[], 0⟩
  let d := d.each (List.range 16) (fun pc d => d.each (List.range 8) (fun k d =>
    d.putRegion (Reg.SPAD.REG.CTL.of n [pc, k]) (Reg.SPAD.REG.BASE.of n [pc, k]) (Reg.SPAD.REG.LIMIT.of n [pc, k]) k none))
  let d := d.each (Hvx.used b v) (fun c d => d.putCluster n v c (perm c) b l x.place x.perms t)
  let d := d.each (List.range 8) (fun k d =>
    d.putRegion (Reg.HBMC.FREG.CTL.of n [k]) (Reg.HBMC.FREG.BASE.of n [k]) (Reg.HBMC.FREG.LIMIT.of n [k]) k (freg? b l v k))
  let d := d.each (memInits b l v) (fun m d => match m.at_ with | some a => d.putData n (imageSma a) m.data | none => d)
  let qs := qmaps b l v
  let d := d.each ((List.range 46).map (· + 16)) (fun q d =>
    d.wr (Reg.LINKQ.MAP.of n [q - 16]) (match qs.find? (fun r => r.1 == q) with
      | some r => 2 ^ 31 + r.2.1 * 2 ^ 8 + r.2.2.1 * 2 ^ 6 + r.2.2.2
      | none => 0))
  let d := d.each (List.range 64) (fun k d => d.wr (classLoc n k) (callClass b l v k &&& 0xFF0000FF))
  let d := d.each (List.range 16) (fun pc d => d.wr (Reg.CALL.CRPOOL.of n [pc])
    (match (Hvx.used b v).find? (fun c => perm c == pc) with | some c => Hvx.callPool b l v c | none => 0))
  let d := (d.wr (Reg.CALL.AGELIM.of n) (callWord b l v 0x110 &&& Reg.CALL.AGELIM.mask false (fun t => t == .rw))).wr
    (Reg.CALL.WDOG.of n) (callWord b l v 0x114 &&& Reg.CALL.WDOG.mask false (fun t => t == .rw))
  let tc := tcms b l v
  let d := d.sec n (fun s => { s with
    cores := Vector.ofFn (fun (i : Fin 8) =>
      let k := vget s.cores i.val (Core.start 0)
      { k with mem := (tc.filter (fun r => r.1.testBit i.val)).foldl (fun m r =>
          r.2.2.zipIdx.foldl (fun m e => Sparse.set (fun _ => 0) m (r.2.1 + e.2) (BitVec.ofNat 8 e.1)) m) [] })
    fab := { s.fab with pinMap := (Hvx.pins b l v).map (fun m => { m.pin with cl := perm m.pin.cl }) } })
  let d := d.putProbes n perm (probes b l v)
  d.putReserve n perm (((Hvx.used b v).map (fun c => (inits b l v c).map (fun e => (c, e)))).flatten)

/-- A load is abandoned: targets that had entered SLIPWAY go to PARKED (R179). -/
def loadAbandon (d : Dev) (x : LoadSt) : Dev :=
  let d := d.loadSet x none
  if x.stage < 3 then d
  else d.each x.place (fun n d => d.when (d.runState n == stSLIPWAY) (fun d => d.stateOnly n stPARKED))

/-- The words of LOADCHK (R401). -/
def loadChkWords (x : LoadSt) : List Nat :=
  [ofOnes x.place] ++ (List.range 8).map (fun v => x.place.getD v 0xFF) ++ words12 32 (ofBytes x.digest)

/-! ### COMMIT and initial values (R94, R178, R180) -/

/-- The initial values from the reserve: V = 0 in every other word of the used clusters, V = 1 and G = 1 in those named (R94). DESIGN CHOICE (log 78):
DSCTL.PINV, which inverts PAR[0] of host writes, does not act on them. -/
def writeInitials (d : Dev) (n : Nat) : Dev :=
  let used := d.usedClusters n
  let d := d.flushWhere n (fun l => decide (reserveAt ≤ 64 * l - hbmBase))
  let d := d.clearValid n (fun c => used.contains c)
  let ks := d.getSec n [] (fun s => s.mem.hbm.filterMap (fun e =>
    if reserveAt ≤ e.1 ∧ e.1 < reserveAt + 0x200000 ∧ e.1 % 2 = 1 ∧ e.2.toNat.testBit 7 then some ((e.1 - reserveAt) / 2) else none))
  d.each ks (fun k d =>
    let v := d.fabWord n (hbmBase + reserveAt + 2 * k)
    if used.contains (k / 65536) then d.setWord n (k / 65536) (k / 1024 % 64) (k % 1024) (mkWord v 1 1) else d)

/-- COMMIT for one target: clocks, initial values, period, position and counters, queues, cores and the recorded digest (R141, R178, R264, R390).
A clock change in progress completes first, what waited behind it gives way to COMMIT's write, the later one, and that is complete before any target
reports LOADED (R128, R178, log 71). -/
def commitOne (d : Dev) (x : LoadSt) (v n : Nat) : Dev :=
  let mask := x.masks.getD v 0
  let d := d.fab n (fun f => { f with clkNext := [] })
  let d := d.each (List.range 16) (fun c d =>
    ((d.wr (clkctl n c) (if mask.testBit c then 0x10 else 0x03)).wb (clkstat n c) 4 false).showClock n c)
  let d := ((d.writeInitials n).wr (Reg.SCTL.PERIOD.of n) x.period).wr (Reg.SCTL.POS.of n) 0
  let d := ((d.wr64 Reg.SCTL.DCYC n [] 0).wr64 Reg.TWIN.SDIG 8 [n] 0).hctlClr n
  let d := ((d.clearPace n).wr (Reg.SCTL.PACEPEND.of n) 0).each (List.range 64) (fun q d => d.queueService n q)
  let d := d.releaseCores n
  { d with images := Sparse.put n ⟨x.imgid, x.digest, x.secver⟩ d.images }

/-- COMMIT of a load in stage 5: the targets form one run group with open bridges and enter LOADED together. -/
def commitLoad (d : Dev) (x : LoadSt) : Dev :=
  let g := ofOnes x.place
  let ld := (minOf x.place).getD 0
  let d := d.each x.place.zipIdx (fun p d => d.commitOne x p.2 p.1)
  let d := d.each x.place (fun n d =>
    (d.wr (Reg.SCTL.BROPEN.of n) (g - (g &&& 2 ^ n))).wr (Reg.SCTL.STATE.of n) (ld * 2 ^ 24 + g * 2 ^ 16 + stLOADED))
  d.loadSet x none

/-- Whether the twin rule lets a paired primary commit a load (R387). -/
def twinAgrees (d : Dev) (x : LoadSt) : Bool := !d.pairedPrimary || d.twin.loadChk == some (loadChkWords x)

/-- The start that an autostart image selects (R493). -/
def autoStart (d : Dev) (x : LoadSt) : Dev :=
  match d.boot.booted with
  | none => d
  | some r =>
    let mode := leAt r.auto 8 1
    let ld := (minOf x.place).getD 0
    let a := Reg.BOOT.ASTAT.hubAt
    if mode = 1 then (d.runCmd ld rcSTART 0 none).wf a 2 0 3
    else if mode = 2 then ((d.wr (Reg.SCTL.STRIG.of ld) (leAt r.auto 0xC 4)).runCmd ld rcSTART 2 none).wf a 2 0 3
    else d

/-- LOAD_PASS2_COMPLETE (R175, R176, R180): a changed image abandons the load; otherwise pass 2 is in place, the report completes the command
and the load awaits COMMIT. The autostart commits at once. -/
def loadPass2Done (d : Dev) : Dev :=
  match d.loadNow with
  | none => d
  | some x =>
    if x.stage ≠ 4 || !(d.loadReady x) then d
    else
      let b := d.imageBytes x
      let l := segs b
      if digestNow b != x.digest then (d.loadAbandon x).loadEnd x ldCHANGED (loadReport ldCHANGED { st := ldCHANGED } x.place x.hdrop x.wmax)
      else match relocate b l x.place x.perms with
        | .inr _ => d
        | .inl img =>
          let ws := (List.range x.nv).map (view img l)
          let ts := ws.map (fun w => match waitTables img l (permOf x.perms w.v) w with | .inl t => t | .inr _ => ⟨[], 0⟩)
          let p : Pass1 := ⟨img, x.place, x.perms, ts⟩
          let d := d.each x.place.zipIdx (fun e d => d.putSection e.1 e.2 p)
          let y := { x with stage := 5 }
          let d := (d.loadSet x (some y)).loadEnd x 0 (loadReport 0 { st := 0 } x.place x.hdrop x.wmax)
          let d := d.when (d.secondary && d.twinState == 2) (fun d => d.sendMir 0 (6 :: loadChkWords y))
          if x.auto && d.twinAgrees y && x.place.all d.queuesTested then ((d.commitLoad y).wf Reg.BOOT.ASTAT.hubAt 2 0 2).autoStart y else d

/-- COMMIT by function f (R178, R387): only its issuer's load in stage 5, the earliest where it has more. Completion with FUNCTION where there
is none. DESIGN CHOICE (log 44). It waits, with no completion, for the start-up scrub and test of every queue of the targets (R231). -/
def commitCmd (d : Dev) (f : Nat) : Dev × Option Nat × List Nat :=
  match d.loads.find? (fun x => x.stage == 5 && x.fn == f && !x.auto) with
  | none => (d, some 0x05, [])
  | some x =>
    if !(d.twinAgrees x) then (d, some (0x0200 + ldTARGET), [])
    else if !(x.place.all d.queuesTested) then (d, none, [])
    else (d.commitLoad x, some 0, [ofOnes x.place, (minOf x.place).getD 0])

/-- A target of a load is reset or powered down: rejected before stage 3, abandoned after (R179). -/
def loadLost (d : Dev) (n : Nat) : Dev :=
  match d.loads.find? (fun x => x.place.contains n) with
  | none => d
  | some x =>
    let d' := d.loadAbandon x
    if x.stage = 5 then d' else d'.loadEnd x ldTARGET (loadReport ldTARGET { st := ldTARGET } x.place x.hdrop x.wmax)

/-- The loads of function f are abandoned (R179, R428); nothing completes. -/
def loadsOfFn (d : Dev) (f : Nat) : Dev :=
  d.each (d.loads.filter (fun x => x.fn == f && !x.auto)) (fun x d => d.loadAbandon x)

/-! ### RESTART (R94, R137, R264) -/

/-- RESTART_COMPLETE: once NHCNT is 0 in every member and every current call has completed, the initial values are written and the group is
LOADED with DCYC 0. -/
def restartDone (d : Dev) (n : Nat) : Dev :=
  let g := d.group n
  let ready := d.getSec n false (fun s => s.run.restarting) && g.all (fun m => d.nhCount m == 0 &&
    (List.range 8).all (fun i => d.getSlot m i true (fun s => s.cur.isNone)))
  if !ready || d.leader n != n then d
  else
    let d := d.each g (fun m d =>
      let d := (((d.discardFlight m).writeInitials m).clearFault m).wr (Reg.SCTL.POS.of m) 0
      let d := ((d.wr64 Reg.SCTL.DCYC m [] 0).wr64 Reg.TWIN.SDIG 8 [m] 0).clearCalls m false
      let keep := d.rd (Reg.SCTL.STATE.of m) / 2 ^ 16 * 2 ^ 16
      ((d.queueReset m 62).wr (Reg.SCTL.STATE.of m) (keep + stLOADED)).runRest m)
    (d.wb (Reg.SCTL.CMDSTAT.of n) 31 false).notice n 0x0108 []

end Dev

end Sys2Proof.Machine
end

