-- ==== Sys2Proof/Machine/HostShort.lean ====
section
/-! DEFINITION. The checks of a command entry and the commands that complete before the next one begins (R419 to R428). -/

namespace Sys2Proof.Machine

/-- OPC codes (R423). -/
abbrev ocOPEN : Nat := 0x01
abbrev ocCLOSE : Nat := 0x02
abbrev ocLOAD : Nat := 0x10
abbrev ocCOMMIT : Nat := 0x11
abbrev ocSTART : Nat := 0x20
abbrev ocSTEP : Nat := 0x23
abbrev ocRESTART : Nat := 0x25
abbrev ocQRESET : Nat := 0x30
abbrev ocCARM : Nat := 0x31
abbrev ocCDISARM : Nat := 0x32
abbrev ocFAULTS : Nat := 0x33
abbrev ocTIME : Nat := 0x40
abbrev ocATTEST : Nat := 0x41
abbrev ocSTATUS : Nat := 0x42

/-- STATUS codes of class 0 (R421). -/
abbrev scNOTOPEN : Nat := 1
abbrev scVERSION : Nat := 2
abbrev scBADOPC : Nat := 3
abbrev scBADARG : Nat := 4
abbrev scFUNCTION : Nat := 5
abbrev scBUFFER : Nat := 6
abbrev scHOSTERR : Nat := 7
abbrev scNODE : Nat := 8

/-- Whether an OPC is a run command. -/
def isRunOpc (o : Nat) : Bool := decide (ocSTART ≤ o ∧ o ≤ ocRESTART)

/-- Whether the command table has an OPC (R423). -/
def knownOpc (o : Nat) : Bool :=
  isRunOpc o || [ocOPEN, ocCLOSE, ocLOAD, ocCOMMIT, ocQRESET, ocCARM, ocCDISARM, ocFAULTS, ocTIME, ocATTEST, ocSTATUS].contains o

/-- Whether byte i of ARG belongs to a field of the command (R423). -/
def argByte (o i : Nat) : Bool :=
  if o = ocOPEN then decide (i < 2)
  else if o = ocSTART then i == 0 || decide (i = 2 ∨ i = 3) || decide (8 ≤ i)
  else if o = ocSTEP then i == 0 || decide (2 ≤ i)
  else if isRunOpc o then decide (16 ≤ i)
  else if o = ocQRESET ∨ o = ocFAULTS then i == 0
  else if o = ocTIME then i == 0 || decide (4 ≤ i ∧ i < 16)
  else o == ocATTEST

/-- NODES of a command: the nodes named, rising (R423). -/
def nodesOf (c : HostCmd) : List Nat := onesOf 128 (ofBytes (c.arg.drop 16))

/-- Whether a command runs in the background (R427). -/
def isLong (c : HostCmd) : Bool :=
  c.opc == ocLOAD || c.opc == ocATTEST || c.opc == ocSTATUS || (isRunOpc c.opc && !(nodesOf c).isEmpty)

/-- A command that acts on a section (Own). -/
def isOwn (o : Nat) : Bool := isRunOpc o || decide (ocQRESET ≤ o ∧ o ≤ ocFAULTS)

namespace Dev

/-- The role of the device (R372): 0 standalone, 1 manager, 2 worker. -/
def role (d : Dev) : Nat := d.fd Reg.SYS.CFG.hubAt 31 30

/-- Its node number. -/
def nodeNo (d : Dev) : Nat := d.fd Reg.SYS.CFG.hubAt 22 16

/-- The section a command of function f acts on (R419). -/
def cmdSect (f : Nat) (c : HostCmd) : Nat := if f = 0 then c.sect else f - 1

/-- Whether section n is ON and not in reset: its registers answer (R411, R508). -/
def sectionOn (d : Dev) (n : Nat) : Bool :=
  d.fd (Reg.PWR.SECT.STAT.hubAt [n]) 30 29 == 2 && !(d.fb (Reg.PWR.SECT.STAT.hubAt [n]) 31)

/-- The stage of boot, 0xF in SAFE (R488, R491). -/
def bootStage (d : Dev) : Nat := d.fd Reg.BOOT.STAT.hubAt 31 28
def inSafe (d : Dev) : Bool := d.bootStage == 0xF

/-- The STATUS with which a command is refused before it acts, 0 when it is not (R421, R423, R491). -/
def cmdErr (d : Dev) (f : Nat) (c : HostCmd) : Nat :=
  let arg := fun (i : Nat) => c.arg.getD i 0
  if c.opc ≠ ocOPEN ∧ !(d.sessionOpen f) then scNOTOPEN
  else if !(knownOpc c.opc) then scBADOPC
  else if d.inSafe && !([ocOPEN, ocCLOSE, ocATTEST].contains c.opc) then scFUNCTION
  else if f ≠ 0 ∧ (c.opc = ocTIME ∨ c.opc = ocSTATUS) then scFUNCTION
  else if !c.clean || (List.range 32).any (fun i => !(argByte c.opc i) && arg i != 0) then scBADARG
  else if isRunOpc c.opc && !(nodesOf c).isEmpty && (f != 0 || d.role != 1) then scBADARG
  else if isOwn c.opc ∧ 7 < cmdSect f c then scBADARG
  else if (c.opc = ocSTART ∨ c.opc = ocSTEP) ∧ 3 < arg 0 then scBADARG
  else if c.opc = ocQRESET ∧ 63 < arg 0 then scBADARG
  else if (c.opc = ocFAULTS ∨ c.opc = ocTIME) ∧ 1 < arg 0 then scBADARG
  else 0

/-- A run command of the host or a manager (R424): its registers, then SCTL.CMD. Answers the STATUS, or none while a paired primary waits for
RUNACK (R387). A section whose registers do not answer refuses it as WRONG_STATE. -/
def runHhp (d : Dev) (n : Nat) (c : HostCmd) (asker : Asker) : Dev × Option Nat :=
  let v := fun (i k : Nat) => ofBytes ((c.arg.drop i).take k)
  if !(d.sectionOn n) then (d, some 0x0101)
  else
    let d := d.when (c.opc == ocSTEP) (fun d => d.wr (Reg.SCTL.STEPK.of n) (v 4 4))
    let d := d.when (c.opc == ocSTART || c.opc == ocSTEP) (fun d =>
      (d.wr64 Reg.SCTL.STIME n [] (v 8 6)).wr (Reg.SCTL.STRIG.of n) (v 2 2 &&& Reg.SCTL.STRIG.mask false (fun t => t == .rw)))
    let sent := d.twin.fwd.length
    let d := d.runCmd n (c.opc - 0x1F) (if c.opc = ocSTART ∨ c.opc = ocSTEP then v 0 1 else 0) (some asker)
    let e := d.fd (cmdstat n) 3 0
    if e ≠ 0 then (d, some (0x0100 + e))
    else (d, if sent < d.twin.fwd.length then none else some 0)

/-- OPEN (R422, R423): STATUS and DATA. -/
def openCmd (d : Dev) (f : Nat) (c : HostCmd) : Dev × Nat × List Nat :=
  if d.sessionOpen f then (d, scBADARG, [])
  else if c.arg.getD 0 0 ≠ 1 then (d, scVERSION, [])
  else
    let minor := min 1 (c.arg.getD 1 0)
    let d := (d.wb (Reg.HQ.CTL.hubAt [f]) 1 true).fn f (fun h => { h with minor := minor })
    (d, 0, [1, minor, Config.loaderMinor.toNat, f] ++ toBytes 4 Config.firmwareVersion.toNat ++ toBytes 8 Config.serial.toNat)

/-- The notices due at an OPEN of PF0: RESET_CAUSE and BOOT_BACKUP once, BOOT_SAFE in SAFE (R491, R496, R512). -/
def openNotices (d : Dev) (f : Nat) : Dev :=
  if f != 0 || !(d.sessionOpen 0) then d
  else
    let st := Reg.BOOT.STAT.hubAt
    let cause := d.boot.causeDue
    let backup := d.boot.backupDue
    let d := { d with boot := { d.boot with causeDue := false, backupDue := false } }
    let d := d.when cause (fun d => d.hubNotice 0x0805 [d.rd Reg.PWR.RSTCAUSE.hubAt])
    let d := d.when backup (fun d => d.hubNotice 0x0A01 [d.fd st 15 8])
    d.when d.inSafe (fun d => d.hubNotice 0x0A02 [d.fd st 15 8, d.fd st 23 16])

/-- The end of a session (R417, R428): loads abandoned, long commands and waiting notices discarded. -/
def endSession (d : Dev) (f : Nat) : Dev :=
  let d := (d.loadsOfFn f).fn f (fun h => { h with long := none, waiting := [], lost := false })
  { d.wb (Reg.HQ.CTL.hubAt [f]) 1 false with sys := { d.sys with relays := d.sys.relays.map (fun r => if r.asker.any (fun a => a.1 == f) then { r with asker := none } else r) } }

/-- The fault record as READ_FAULTS returns it. -/
def faultBytes (d : Dev) (n : Nat) : List Nat :=
  toBytes 4 (d.rd (Reg.SFLT.FSTAT.of n)) ++ toBytes 4 (d.rd (Reg.SFLT.FLOC.of n)) ++ toBytes 8 (d.rd64 Reg.SFLT.FCYC n) ++
    toBytes 4 (d.rd (Reg.SFLT.FLATER.of n)) ++ toBytes 4 (d.rd (Reg.SFLT.FHALT.of n))

/-- DATA of SYSTEM_STATUS. -/
def statusBytes (d : Dev) : List Nat :=
  toBytes 4 (d.rd Reg.SYS.CFG.hubAt) ++ toBytes 4 (d.rd Reg.SYS.STAT.hubAt) ++ toBytes 8 (d.rd64 Reg.SYS.READYT 8)

/-- The effect of a short command that cmdErr has let pass, its STATUS and DATA; no STATUS while it waits for RUNACK. `ph` is the nanosecond
of the tick at which a capture command acts. -/
def shortCmd (d : Dev) (f : Nat) (c : HostCmd) (ph : Nat) (asker : Asker) : Dev × Option Nat × List Nat :=
  let n := cmdSect f c
  let a0 := c.arg.getD 0 0
  let on := d.sectionOn n
  if c.opc = ocCLOSE then (d.endSession f, some 0, [])
  else if c.opc = ocCOMMIT then
    d.commitCmd f
  else if isRunOpc c.opc then
    let r := d.runHhp n c asker
    (r.1, r.2, [])
  else if c.opc = ocQRESET then
    let k := d.getQ n a0 0 (fun x => x.words.length)
    (d.when on (fun d => d.queueReset n a0), some 0, if on then toBytes 2 k else [])
  else if c.opc = ocCARM then
    let d := d.when on (fun d => d.capArm n ph)
    let e := d.fd (Reg.CAPT.STAT.of n) 31 28
    (d, some (if e = 0 then 0 else 0x0300 + e), [])
  else if c.opc = ocCDISARM then (d.when on (fun d => d.capDisarm n ph), some 0, [])
  else if c.opc = ocFAULTS then
    (d.when (on && a0 == 1) (fun d => d.faultClear n), some 0, if on then d.faultBytes n else [])
  else if c.opc = ocTIME then
    let v := fun (i : Nat) => ofBytes ((c.arg.drop i).take 4)
    let d := ((d.wr Reg.TIME.SETF.hubAt (v 4)).wr Reg.TIME.SETL.hubAt (v 8)).wr Reg.TIME.SETH.hubAt (v 12)
    (d.setcmdWrite (if a0 = 0 then 1 else 2), some 0, [])
  else (d, some 0, d.statusBytes)

end Dev

end Sys2Proof.Machine
end

