-- ==== Sys2Proof/Machine/Systems.lean ====
section
/-! DEFINITION. Systems of devices (R372 to R381, R400, R404, R426): the service channels, start-up stages, census, registration, relayed
commands and notices. -/

namespace Sys2Proof.Machine

namespace Dev

def sysg (d : Dev) (f : SysSt → SysSt) : Dev := { d with sys := f d.sys }

/-- SYS.STAT.STAGE (R377). -/
def stage (d : Dev) : Nat := d.fd Reg.SYS.STAT.hubAt 31 28
def setStage (d : Dev) (s : Nat) : Dev := d.wf Reg.SYS.STAT.hubAt 31 28 s

/-- The ACTIVE bundles that carry SVC (R374), rising. -/
def svcBundles (d : Dev) : List Nat := (d.bundles.filter (fun e => e.2.classes.testBit 4 && d.bundleActive e.1)).map (fun e => e.1)

/-- Serial number of the device (R484). -/
def serialNo (d : Dev) : Nat := d.rd64 Reg.BOOT.SERIAL 8

/-- An SVC packet on virtual channel vc (R375). -/
def sendSvc (d : Dev) (k vc dst hops type : Nat) (body : List Nat) : Dev :=
  d.sendPkt k (26 + vc) ([dst * 32, d.nodeNo * 32, hops * 256, type] ++ body)

/-- The first received packet of a channel of bundle k. -/
def frontPkt (d : Dev) (k chan : Nat) : Option LinkPkt := (d.getBundle k).inPkts.find? (fun p => p.chan == chan)

/-- It is taken from the hub buffer. -/
def popPkt (d : Dev) (k chan : Nat) : Dev :=
  match d.frontPkt k chan with
  | some p => d.bundle k (fun b => { b with inPkts := b.inPkts.erase p })
  | none => d

/-- The channel an SVC packet of a type travels on (R400). -/
def svcVc (type : Nat) : Nat := if type = 4 then 0 else if type = 3 ∨ type = 5 ∨ type = 6 then 1 else if type ≤ 2 then 2 else 3

/-- Whether a packet of an SVC channel cannot be used by anyone: poisoned, cut short, or of a type that does not travel there. -/
def svcUnusable (chan : Nat) (p : LinkPkt) : Bool :=
  p.poison || decide (p.words.length < 4) ||
  !([1, 2, 3, 4, 5, 6, 16, 17, 18, 19, 20].contains (p.words.getD 3 0) && svcVc (p.words.getD 3 0) + 26 == chan)

/-- Unusable packets at the front of an SVC channel are dropped. -/
def svcClean : Nat → Dev → Nat → Nat → Dev
  | 0, d, _, _ => d
  | f + 1, d, k, chan =>
    match d.frontPkt k chan with
    | some p => if svcUnusable chan p then svcClean f (d.popPkt k chan) k chan else d
    | none => d

/-- Words 4 on of the packet at the front of an SVC channel, when it has a type and is addressed to this device; and its source. -/
def takeSvc (d : Dev) (k type : Nat) : Dev × Option (Nat × List Nat) :=
  let chan := 26 + svcVc type
  let d := svcClean ((d.getBundle k).inPkts.length + 1) d k chan
  match d.frontPkt k chan with
  | some p =>
    let w := fun (i : Nat) => p.words.getD i 0
    if w 3 = type ∧ (svcVc type ≥ 2 ∨ w 0 / 32 = d.nodeNo) then (d.popPkt k chan, some (w 1 / 32, p.words.drop 4)) else (d, none)
  | none => (d, none)

/-! ### Census and registration (R373, R377 to R380) -/

/-- TIMROLE of a lane (R320). -/
def setTimRole (d : Dev) (l role : Nat) : Dev := d.wf (laneLoc Reg.LANE.CTL l) 26 25 role

/-- CENSUS on every SVC bundle but one (R378); the lanes it goes out on are TIM servers (R379). The MIR bundle's roles are those of the twins
(R383). -/
def sendCensus (d : Dev) (mgr depth seq : Nat) (skip : Option Nat) : Dev :=
  d.each (d.svcBundles.filter (fun k => skip != some k)) (fun k d =>
    let d := if k = d.mirKey && d.fb Reg.TWIN.CTL.hubAt 31 then d else d.each (d.bundleLanes (d.lane0 k)) (fun l d => d.setTimRole l 2)
    d.sendSvc k 2 0x7F 0 2 (words12 6 mgr ++ [depth, seq % 4096]))

/-- The manager's next CENSUS. -/
def managerCensus (d : Dev) : Dev :=
  (d.sendCensus d.serialNo 0 d.sys.censusSeq none).sysg (fun s => { s with censusSeq := (s.censusSeq + 1) % 4096, censusT := d.clk })

/-- Whether time domain A is locked. -/
def lockA (d : Dev) : Bool := d.fb (domLoc Reg.TIME.D.STAT 0) 31

/-- The start MODE of the autostart entry, 0 where there is none (R493). -/
def autoMode (d : Dev) : Nat := match d.boot.booted with | some r => leAt r.auto 8 1 | none => 0

/-- A worker's REGISTER to its manager (R400). -/
def sendRegister (d : Dev) : Dev :=
  match d.sys.parent with
  | none => d
  | some k =>
    let w10 := b2n (d.autoMode == 3) * 2 ^ 11 + b2n d.lockA * 2 ^ 10 + d.sys.parentDepth % 8 * 2 ^ 7 + d.nodeNo
    (d.sendSvc k 1 0 0 3 (words12 6 d.serialNo ++ [w10, d.twinState * 2 ^ 8])).sysg (fun s => { s with reported := some d.lockA })

/-- NEIGHBOUR_RECEIVE. -/
def neighbourReceive (d : Dev) (k : Nat) : Dev :=
  match d.takeSvc k 1 with
  | (d, none) => d
  | (d, some (_, b)) =>
    let w := fun (i : Nat) => b.getD (i - 4) 0
    let x : Neighbour := ⟨ofWords12 (b.take 6), bits (w 10) 11 10, bits (w 10) 6 0, bits (w 11) 11 8, (w 11).testBit 7⟩
    d.sysg (fun s => { s with neigh := Sparse.put k x s.neigh })

/-- Time domain A takes OXL as its source, on lane z (R379, R383). The secondary of a pair follows the primary and no other lane. -/
def followLane (d : Dev) (z : Nat) : Dev :=
  let cfg := domLoc Reg.TIME.D.CFG 0
  if d.secondary && z != d.lane0 d.mirKey then d
  else ((d.wf cfg 31 30 1).wf cfg 17 12 (z / 4)).wf cfg 11 10 (z % 4)

/-- A worker adopts bundle k at a depth and floods the census onward (R378, R379). -/
def adopt (d : Dev) (k mgr depth seq : Nat) (first : Bool) : Dev :=
  let z := d.lane0 k
  let par := Reg.SYS.PARENT.hubAt
  let d := (d.wr par (2 ^ 31 + z / 4 * 2 ^ 8 + z % 4)).wf Reg.SYS.STAT.hubAt 19 16 (depth + 1)
  let d := d.sysg (fun s => { s with
    manager := some mgr
    parent := some k
    parentDepth := depth
    parentT := if first then d.clk else s.parentT
    seen := seq })
  let d := (d.followLane z).setTimRole z 1
  if depth < 7 then d.sendCensus mgr (depth + 1) seq (some k) else d

/-- CENSUS_RECEIVE (R373, R378). -/
def censusReceive (d : Dev) (k : Nat) : Dev :=
  match d.takeSvc k 2 with
  | (d, none) => d
  | (d, some (_, b)) =>
    let mgr := ofWords12 (b.take 6)
    let depth := bits (b.getD 6 0) 2 0
    let seq := b.getD 7 0 % 4096
    if d.role ≠ 2 then d
    else if d.sys.manager.any (fun m => m != mgr) then d.hubNotice 0x0705 [d.nodeNo, (d.sys.manager.getD 0), mgr]
    else match d.sys.parent with
      | none => d.adopt k mgr depth seq true
      | some p =>
        let order := fun (x : Nat) => let z := d.lane0 x; z / 4 * 4 + z % 4
        if p ≠ k ∧ d.clk ≤ d.sys.parentT + 1000000 ∧
            (depth < d.sys.parentDepth ∨ (depth = d.sys.parentDepth ∧ order k < order p)) then d.adopt k mgr depth seq false
        else if p = k ∧ d.sys.seen ≠ seq ∧ depth < 7 then
          (d.sysg (fun s => { s with seen := seq })).sendCensus mgr (depth + 1) seq (some k)
        else d

/-- COUNT shows the workers registered. -/
def showCount (d : Dev) : Dev :=
  d.wf Reg.SYS.STAT.hubAt 6 0 (d.sys.registry.filter (fun e => !e.2.lost)).length

/-- REGISTER_RECEIVE by the manager (R373, R380, R400). -/
def registerReceive (d : Dev) (k : Nat) : Dev :=
  if d.role ≠ 1 then d
  else match d.takeSvc k 3 with
    | (d, none) => d
    | (d, some (_, b)) =>
      let w10 := b.getD 6 0
      let node := bits w10 6 0
      let serial := ofWords12 (b.take 6)
      let old := Sparse.find node d.sys.registry
      match old with
      | some o =>
        if o.serial ≠ serial then d.hubNotice 0x0705 [node, o.serial, serial]
        else
          let d := d.sysg (fun s => { s with
            registry := Sparse.put node ⟨serial, w10.testBit 11, w10.testBit 10, bits w10 9 7, bits (b.getD 7 0) 11 8, k, false⟩ s.registry
            routes := Sparse.put node k s.routes
            lostNodes := Sparse.drop node s.lostNodes })
          (d.showCount).when o.lost (fun d => d.hubNotice 0x0704 [node])
      | none =>
        let d := d.sysg (fun s => { s with
          registry := Sparse.put node ⟨serial, w10.testBit 11, w10.testBit 10, bits w10 9 7, bits (b.getD 7 0) 11 8, k, false⟩ s.registry
          routes := Sparse.put node k s.routes })
        (d.showCount).when (d.sys.partialSent || d.sys.readySent) (fun d => d.hubNotice 0x0704 [node])

/-- NWORK of the manager. -/
def nwork (d : Dev) : Nat := d.fd Reg.SYS.CFG.hubAt 6 0

/-- SYSTEM_DEADLINE (R380): 2.0 s after power-good; the missing nodes as a mask of the node numbers 1 to NWORK, in two items. -/
def systemDeadline (d : Dev) : Dev :=
  if d.role ≠ 1 || d.sys.readySent || d.sys.partialSent || decide (d.clk < d.boot.releaseT + 2000000000) then d
  else
    let gone := ((List.range d.nwork).map (· + 1)).filter (fun n =>
      match Sparse.find n d.sys.registry with | some x => !x.lock || x.lost | none => true)
    let m := ofOnes gone
    ((d.sysg (fun s => { s with partialSent := true })).setStage 8).hubNotice 0x0702 [m % 2 ^ 64, m / 2 ^ 64]

/-- CENSUS_TIMER (R380). -/
def censusTimer (d : Dev) : Dev :=
  if d.role ≠ 1 || !d.sys.readySent || decide (d.clk < d.sys.censusT + 100000000) then d else d.managerCensus

/-! ### Forwarding (R376) -/

/-- A discard counted in FWDDROP, with FWD_DROP at most once per millisecond. -/
def forwardDrop (d : Dev) : Dev :=
  let d := d.bump Reg.SYS.FWDDROP.hubAt
  let due := match d.sys.dropT with | some t => decide (t + 1000000 ≤ d.clk) | none => true
  if due then (d.sysg (fun s => { s with dropUnsent := 0, dropT := some d.clk })).hubNotice 0x0706 [d.sys.dropUnsent + 1]
  else d.sysg (fun s => { s with dropUnsent := s.dropUnsent + 1 })

/-- SVC_FORWARD of a worker on VC0 or VC1; the packets of VC2 and VC3 go no further (R374). -/
def svcForward (d : Dev) (k vc : Nat) : Dev :=
  let chan := 26 + vc
  let d := svcClean ((d.getBundle k).inPkts.length + 1) d k chan
  match d.frontPkt k chan with
  | none => d
  | some p =>
    let w := fun (i : Nat) => p.words.getD i 0
    let dst := w 0 / 32
    if d.role ≠ 2 || 2 ≤ vc || dst == d.nodeNo then d
    else
      let d := d.popPkt k chan
      let hops := bits (w 2) 11 8 + 1
      let d := d.when (w 3 == 3 && vc == 1) (fun d => d.sysg (fun s => { s with routes := Sparse.put (bits (w 10) 6 0) k s.routes }))
      match (if vc = 0 then Sparse.find dst d.sys.routes else d.sys.parent) with
      | none => d.forwardDrop
      | some o => if 8 < hops then d.forwardDrop else d.sendPkt o chan (p.words.set 2 (setBits (w 2) 11 8 hops))

/-! ### SYSTEM_STATUS (R426) -/

/-- One registry entry. -/
def regEntry (node state depth parent serial : Nat) : List Nat := [node, state, depth, parent, 0, 0, 0, 0] ++ toBytes 8 serial

/-- The 2,048 bytes of the registry. A manager does not learn the parent of a node more than one hop away: `parents` supplies it, free. -/
def registryBytes (d : Dev) (parents : Nat) : List Nat :=
  let blank := List.replicate 16 0
  let own := d.nodeNo
  ((List.range 128).map (fun n =>
    if d.role = 1 then
      if n = own then regEntry n 2 0 0 d.serialNo
      else match Sparse.find n d.sys.registry with
        | some x => regEntry n (if x.lost then 3 else if x.lock then 2 else 1) x.depth
            (if x.depth = 0 then own else (parents + n) % 128) x.serial
        | none => blank
    else if n ≠ own then blank
    else if d.role = 2 then
      match d.sys.parent with
      | some k => regEntry n (if d.sys.reported.isNone then 0 else if d.lockA then 2 else 1) d.sys.parentDepth
          (((Sparse.find k d.sys.neigh).map (fun x => x.node)).getD 0) d.serialNo
      | none => regEntry n 0 0 0 d.serialNo
    else regEntry n 1 0 0 d.serialNo)).flatten

/-- SYSTEM_STATUS of function f completes: the registry is written where a buffer was given (R426). A refused host write is found before. -/
def statusDone (d : Dev) (f cid buf : Nat) : Dev :=
  let d := if buf = 0 then d else d.fresh 7 (fun p d => d.hostWrite buf (d.registryBytes p))
  d.finishLong f cid 0 d.statusBytes

/-! ### Relayed commands and notices (R376, R381, R400, R423) -/

/-- The 64 bytes of a completion entry with PHASE 0. -/
def entryBytes (cid status : Nat) (data : List Nat) : List Nat :=
  [0, 0] ++ toBytes 2 cid ++ toBytes 2 status ++ [0, 0] ++ (data ++ List.replicate 56 0).take 56

/-- The 64 bytes of a command entry without buffers and NODES. -/
def commandBytes (c : HostCmd) : List Nat :=
  [c.opc, 0] ++ toBytes 2 c.cid ++ [c.sect, 0, 0, 0] ++ List.replicate 8 0 ++ toBytes 8 c.blen ++ List.replicate 8 0 ++
    c.arg.take 16 ++ List.replicate 16 0

/-- A command entry from its 64 bytes (R419). -/
def parseCmd (b : List Nat) : HostCmd :=
  let v := fun (i n : Nat) => ofBytes ((b.drop i).take n)
  { opc := v 0 1, cid := v 2 2, sect := v 4 1, buf := v 8 8, blen := v 0x10 8, buf2 := v 0x18 8,
    arg := (List.range 32).map (fun i => b.getD (0x20 + i) 0 % 256), clean := v 1 1 == 0 && v 5 3 == 0 }

/-- A worker's RESPONSE. -/
def respondTo (d : Dev) (src ctag cid status : Nat) (data : List Nat) : Dev :=
  match d.sys.parent with
  | none => d
  | some k => d.sendSvc k 1 src 0 5 (ctag :: entryBytes cid status data)

/-- What a COMMAND does as if PF0 had received it: its STATUS and DATA, none while it waits for RUNACK. No session is asked for: the session is
the manager's. -/
def relayedCmd (d : Dev) (c : HostCmd) (asker : Asker) : Dev × Option Nat × List Nat :=
  let open_ := d.wb (Reg.HQ.CTL.hubAt [0]) 1 true
  let e := open_.cmdErr 0 c
  if e ≠ 0 then (d, some e, [])
  else if c.opc = ocOPEN then
    let r := d.openCmd 0 c
    (r.1, some r.2.1, r.2.2)
  else if c.opc = ocLOAD ∨ c.opc = ocATTEST then (d, some scBUFFER, [])
  else d.shortCmd 0 c 0 asker

/-- COMMAND_RECEIVE by a worker. -/
def commandReceive (d : Dev) (k : Nat) : Dev :=
  if d.role ≠ 2 then d
  else match d.takeSvc k 4 with
    | (d, none) => d
    | (d, some (src, b)) =>
      let ctag := b.getD 0 0
      let c := parseCmd ((b.drop 1).map (fun w => w % 256))
      match d.relayedCmd c (.node src ctag c.cid) with
      | (d, some st, data) => d.respondTo src ctag c.cid st data
      | (d, none, _) => d

/-- A COMMAND to a node, or none where it has no route. -/
def sendCommand (d : Dev) (node tag : Nat) (c : HostCmd) : Option Dev :=
  (Sparse.find node d.sys.routes).map (fun k => d.sendSvc k 0 node 0 4 (tag :: (commandBytes c)))

/-- The answer of a node to a relayed command, 0 for done. -/
def relayAnswer (d : Dev) (tag node status : Nat) : Dev :=
  d.sysg (fun s => { s with relays := s.relays.map (fun r =>
    if r.tag = tag ∧ r.left.contains node then { r with
      left := r.left.filter (fun x => x != node)
      done := if status = 0 then r.done ++ [node] else r.done
      bad := if status ≠ 0 && r.bad.isNone then some (node, status) else r.bad }
    else r) })

/-- STOP to a node that had armed a system start another node refused (R381). -/
def stopNode (d : Dev) (sect node : Nat) : Dev :=
  let c : HostCmd := ⟨0x24, 0, sect, 0, 0, 0, List.replicate 32 0, true⟩
  if node = d.nodeNo then d.runCmd sect rcSTOP 0 none
  else (d.sendCommand node (d.sys.nextTag % 4096) c).getD d |>.sysg (fun s => { s with nextTag := s.nextTag + 1 })

/-- A relayed command that every node has answered completes (R381, R421). -/
def relayDone (d : Dev) (tag : Nat) : Dev :=
  match d.sys.relays.find? (fun r => r.tag == tag && r.left.isEmpty) with
  | none => d
  | some r =>
    let d := d.sysg (fun s => { s with relays := s.relays.filter (fun x => x.tag != tag) })
    let d := match r.start, r.bad with
      | some sect, some _ => d.each r.done (fun n d => d.stopNode sect n)
      | _, _ => d
    match r.asker, r.bad with
    | some (f, cid), none =>
      match r.registry with
      | some buf => d.statusDone f cid buf
      | none => d.finishLong f cid 0 []
    | some (f, cid), some (n, st) => d.finishLong f cid scNODE ([n, 0] ++ toBytes 2 st)
    | none, _ => d

/-- The manager relays a command to nodes (R381, R423). A START at TIME takes an STIME at least 1 ms ahead that its firmware chooses: a free
value. A node that is absent has refused, with a STATUS that is free. -/
def relay (d : Dev) (c : HostCmd) (nodes : List Nat) (asker : Option (Nat × Nat)) : Dev :=
  let sys := (c.opc == ocSTART || c.opc == ocSTEP) && c.arg.getD 0 0 == 1
  d.fresh 32 (fun ahead d =>
    let t := (d.time.ns + 1000000 + ahead) % 2 ^ 48
    let buf := c.buf
    let c := if sys then { c with arg := c.arg.take 8 ++ toBytes 8 t ++ List.replicate 16 0 }
             else { c with arg := c.arg.take 16 ++ List.replicate 16 0 }
    let tag := d.sys.nextTag % 4096
    let d := d.sysg (fun s => { s with nextTag := s.nextTag + 1, relays := s.relays ++
      [⟨tag, asker, nodes, [], none, if sys then some c.sect else none, if c.opc = ocSTATUS then some buf else none⟩] })
    let d := d.each nodes (fun n d =>
      if n = d.nodeNo then
        match d.runHhp c.sect c (.node n tag c.cid) with
        | (d, some st) => d.relayAnswer tag n st
        | (d, none) => d
      else match (if (Sparse.find n d.sys.registry).any (fun x => !x.lost) then d.sendCommand n tag c else none) with
        | some d => d
        | none => d.fresh 16 (fun st d => d.relayAnswer tag n (if st = 0 then 1 else st)))
    d.relayDone tag)

/-- RESPONSE_RECEIVE by the manager. -/
def responseReceive (d : Dev) (k : Nat) : Dev :=
  if d.role ≠ 1 then d
  else match d.takeSvc k 5 with
    | (d, none) => d
    | (d, some (src, b)) =>
      let tag := b.getD 0 0
      let st := b.getD 5 0 % 256 + 256 * (b.getD 6 0 % 256)
      (d.relayAnswer tag src st).relayDone tag

/-- A node that is lost answers no relayed command any more: it counts as having refused, with a STATUS that is free (R380, R381). -/
def nodeSilent (d : Dev) (node : Nat) : Dev :=
  d.each ((d.sys.relays.filter (fun r => r.left.contains node)).map (fun r => r.tag)) (fun tag d =>
    d.fresh 16 (fun st d => (d.relayAnswer tag node (if st = 0 then 1 else st)).relayDone tag))

/-- NODE_LOST_TIMEOUT (R380): a registered node that has been unreachable for 100 ms. For a node behind this device's own bundle the clock is
the model's; for one further away the event says so. -/
def nodeLost (d : Dev) (node : Nat) : Dev :=
  match Sparse.find node d.sys.registry with
  | none => d
  | some x =>
    let due := match Sparse.find node d.sys.lostNodes with
      | some t => decide (t + 100000000 ≤ d.clk)
      | none => x.depth != 0
    if d.role ≠ 1 || x.lost || !due then d
    else
      let d := d.sysg (fun s => { s with
        registry := Sparse.put node { x with lost := true } s.registry
        routes := Sparse.drop node s.routes
        lostNodes := Sparse.drop node s.lostNodes })
      (d.showCount.hubNotice 0x0703 [node]).nodeSilent node

/-- NOTICE_RECEIVE by the manager: the entry enters its own ring with RELAYED and the source node (R400, R420). -/
def noticeReceive (d : Dev) (k : Nat) : Dev :=
  if d.role ≠ 1 then d
  else match d.takeSvc k 6 with
    | (d, none) => d
    | (d, some (src, b)) =>
      let e := b.map (fun w => w % 256)
      let v := fun (i n : Nat) => ofBytes ((e.drop i).take n)
      d.sendTo 0 ⟨v 2 2, v 4 2, v 8 8, (List.range 6).map (fun i => v (16 + 8 * i) 8), 128 + src % 128⟩

/-! ### Start-up stages (R377) -/

/-- SYSTEM_READY, and the system start of the nodes whose autostart asks for it (R381, R493). The section whose leader a node starts is not
in its REGISTER: a free value. -/
def systemReady (d : Dev) : Dev :=
  let d := (d.wr64 Reg.SYS.READYT 8 [] d.time.ns).setStage 7
  let d := (d.sysg (fun s => { s with readySent := true, censusT := d.clk })).hubNotice 0x0701 [d.fd Reg.SYS.STAT.hubAt 6 0, d.time.ns]
  let nodes := (d.sys.registry.filter (fun e => e.2.sysStart)).map (fun e => e.1)
  let own := if d.autoMode = 3 then [d.nodeNo] else []
  if (own ++ nodes).isEmpty then d
  else d.fresh 3 (fun sect d => d.relay ⟨ocSTART, 0, sect, 0, 0, 0, 1 :: List.replicate 31 0, true⟩ (own ++ nodes) none)

/-- Whether every lane that trains by itself is ACTIVE or has failed. -/
def lanesSettled (d : Dev) : Bool :=
  (List.range 256).all (fun l => !(d.laneAuto l) || d.laneState l == lnACTIVE || (d.getLane l).failT.isSome)

/-- Pairing begins (R382): the state is PAIRING, and PAIR goes out. -/
def sendPair (d : Dev) : Dev :=
  let c := Reg.TWIN.CTL.hubAt
  d.sendMir 0 ([1] ++ words12 6 d.serialNo ++ [d.fd c 30 30 + d.fd c 18 16 * 2 + d.fd c 4 0 * 16])

def pairStart (d : Dev) : Dev :=
  if d.fb Reg.TWIN.CTL.hubAt 31 then
    ((d.wf Reg.TWIN.STAT.hubAt 31 28 1).twn (fun t => { t with pairT := d.clk })).sendPair
  else d

/-- The stage machine of R377: one stage is passed when its work is done. The manager takes the first registration as the end of stage 4. -/
def sysAdvance (d : Dev) : Dev :=
  let st := d.stage
  let r := d.role
  if d.held || d.bootStage != 5 then d
  else if st = 0 then d.setStage 1
  else if st = 1 then if d.lanesSettled then (d.setStage 2).pairStart else d
  else if st = 2 then
    if d.twinState = 1 then d
    else if r = 0 ∨ r = 3 then d.setStage 7
    else (d.setStage 3).each d.svcBundles (fun k d => d.sendNeighbour k)
  else if st = 3 then
    if d.svcBundles.all (fun k => (Sparse.find k d.sys.neigh).isSome) then
      (d.setStage 4).when (r == 1) (fun d => d.managerCensus)
    else d
  else if st = 4 then
    if r = 1 then d.when (d.nwork == 0 || !d.sys.registry.isEmpty) (fun d => d.setStage 5)
    else d.when d.sys.parent.isSome (fun d => (d.setStage 5).sendRegister)
  else if st = 5 then
    if r = 1 then d.when (decide (d.nwork ≤ d.fd Reg.SYS.STAT.hubAt 6 0)) (fun d => d.setStage 6)
    else d.setStage 6
  else if st = 6 then
    if r = 1 then d.when (d.sys.registry.all (fun e => e.2.lock)) (fun d => d.systemReady)
    else d.when d.lockA (fun d => (d.setStage 7).sendRegister)
  else d

/-- A worker registers again when LOCK changes (R400). -/
def registerAgain (d : Dev) : Dev :=
  match d.sys.reported with
  | some x => d.when (d.role == 2 && x != d.lockA) (fun d => d.sendRegister)
  | none => d

end Dev

end Sys2Proof.Machine
end

