-- ==== Sys2Proof/Machine/Twin.lean ====
section
/-! DEFINITION. The twin pair (R382 to R403): pairing, heartbeats, digests, forwarded run commands, the mirror, stepdown and takeover. -/

namespace Sys2Proof.Machine

namespace Dev

/-- TWIN.STAT with a state and a cause. -/
def twinSet (d : Dev) (st cause : Nat) : Dev := (d.wf Reg.TWIN.STAT.hubAt 31 28 st).wf Reg.TWIN.STAT.hubAt 27 24 cause

/-- ACTPRI. -/
def actPri (d : Dev) : Bool := d.fb Reg.TWIN.STAT.hubAt 0

/-- The first message of MIR virtual channel vc, poisoned ones before it dropped. -/
def mirClean : Nat → Dev → Nat → Dev
  | 0, d, _ => d
  | f + 1, d, vc =>
    match d.frontPkt d.mirKey (30 + vc) with
    | some p =>
      let bad := (p.poison && vc != 1) || p.words.isEmpty || (vc == 0 && !([1, 2, 3, 4, 5, 6, 7].contains (p.words.getD 0 0)))
      if bad then mirClean f (d.popPkt d.mirKey (30 + vc)) vc else d
    | none => d

/-- The words from word 1 on of the MIR VC0 message at the front, when it has the type. -/
def takeMsg (d : Dev) (mtype : Nat) : Dev × Option (List Nat) :=
  let d := mirClean ((d.getBundle d.mirKey).inPkts.length + 1) d 0
  match d.frontPkt d.mirKey 30 with
  | some p => if p.words.getD 0 0 = mtype then (d.popPkt d.mirKey 30, some (p.words.drop 1)) else (d, none)
  | none => (d, none)

/-- The packet at the front of MIR virtual channel vc, in a secondary. -/
def takeMirror (d : Dev) (vc : Nat) : Dev × Option LinkPkt :=
  let d := mirClean ((d.getBundle d.mirKey).inPkts.length + 1) d vc
  if !d.secondary then (d, none)
  else match d.frontPkt d.mirKey (30 + vc) with
    | some p => (d.popPkt d.mirKey (30 + vc), some p)
    | none => (d, none)

/-- TWIN_LOST with a cause the manual gives no code: a free value. -/
def twinLost (d : Dev) : Dev := d.fresh 64 (fun c d => d.hubNotice 0x0708 [c])

/-! ### Pairing (R382) -/

/-- MIR lane 0 carries TIM: the primary serves it, and the secondary's domain A follows it (R383). -/
def pairTime (d : Dev) (primary : Bool) : Dev :=
  let z := d.lane0 d.mirKey
  if primary then d.setTimRole z 2 else (d.setTimRole z 1).followLane z

/-- PAIR_RECEIVE. -/
def pairReceive (d : Dev) : Dev :=
  match d.takeMsg 1 with
  | (d, none) => d
  | (d, some b) =>
    if d.twinState ≠ 1 then d
    else
      let serial := ofWords12 (b.take 6)
      let mine := d.fb Reg.TWIN.CTL.hubAt 30
      if (b.getD 6 0).testBit 0 == mine then d.fresh 4 (fun c d => (d.twinSet 0 c).twinLost)
      else
        let d := ((d.wf Reg.TWIN.STAT.hubAt 31 28 2).wb Reg.TWIN.STAT.hubAt 0 mine).pairTime mine
        (d.twn (fun t => { t with peerSerial := some serial, heard := true, missRun := 0 })).hubNotice 0x0707 [serial]

/-- PAIR_REPEAT: PAIR again while the other twin's has not come. -/
def pairRepeat (d : Dev) : Dev := if d.twinState = 1 then d.sendPair else d

/-- PAIRING_TIMEOUT: the bundle is not ACTIVE 20 ms after pairing began. -/
def pairingTimeout (d : Dev) : Dev :=
  if d.twinState ≠ 1 || decide (d.clk < d.twin.pairT + 20000000) || d.bundleActive d.mirKey then d
  else d.fresh 4 (fun c d => (d.twinSet 0 c).twinLost)

/-! ### Halting the device's run groups -/

/-- Every run group halts: one that executes at the end of its fret or hold, another at once (R394, R397). -/
def haltAll (d : Dev) : Dev :=
  d.each (List.range 8) (fun n d =>
    if !(d.committed n) || d.runState n == stHALTED || d.leader n != n then d
    else if d.running n then d.run n (fun r => { r with haltDue := true })
    else d.haltGroup n (d.fd (Reg.SCTL.POS.of n) 20 16))

/-! ### Heartbeats (R392, R395, R403) -/

/-- The queues whose outbound packets the twins account for (R386, R402). -/
def outTwinQueues : List Nat := (List.range 16).map (· + 16) ++ (List.range 8).map (· + 48)

/-- HEARTBEAT_SEND: from a twin that has paired; a paired primary adds its disposal reports. -/
def heartbeatSend (d : Dev) : Dev :=
  if !(d.fb Reg.TWIN.CTL.hubAt 31) || d.twinState == 1 || d.twin.peerSerial.isNone then d
  else
    let secs := (List.range 8).filter d.committed
    let dcyc := ((List.range 8).map (fun n => words12 6 (d.dcyc n))).flatten
    let d := d.sendMir 0 ([2, d.twinState * 2 ^ 8 + ofOnes secs] ++ dcyc ++ [d.twin.hbSeq % 4096])
    let d := d.when d.pairedPrimary (fun d => d.each secs (fun n d =>
      d.sendMir 5 (n :: (outTwinQueues.map (fun q =>
        words12 2 ((Sparse.get (fun _ => 0) d.twin.disposed (64 * n + q)) % 2 ^ 24))).flatten)))
    d.twn (fun t => { t with hbSeq := t.hbSeq + 1, heard := false })

/-- The standby or peer bundles: every ACTIVE SVC bundle but the MIR bundle. -/
def peerBundles (d : Dev) : List Nat := d.svcBundles.filter (fun k => k != d.mirKey)

/-- Node number of the neighbour on bundle k; the neighbour address where it is not known. -/
def nodeAt (d : Dev) (k : Nat) : Nat := match Sparse.find k d.sys.neigh with | some x => x.node | none => 0x7F

/-- A twin packet on SVC VC3 (R400). -/
def sendTwin (d : Dev) (k type : Nat) (body : List Nat) : Dev := d.sendSvc k 3 (d.nodeAt k) 0 type body

/-- Entries of the ready lists, in all sections. -/
def openCalls (d : Dev) : Nat := (List.range 8).foldl (fun a n => a + (d.ready n).length) 0

/-- The queues that face instruments, as bits 14·section + queue − 48 (R398). -/
def instrumentQueues (d : Dev) : Nat :=
  ofOnes (((List.range 8).map (fun n => (List.range 14).filterMap (fun i =>
    if d.fb (Reg.LINKQ.MAP.of n [32 + i]) 31 then some (14 * n + i) else none))).flatten)

/-- The secondary becomes primary (R398). -/
def becomePrimary (d : Dev) : Dev :=
  let cause := d.twin.takingCause
  let redo := d.openCalls
  let d := ((d.twinSet 3 cause).wb Reg.TWIN.STAT.hubAt 0 true).bump Reg.TWIN.FOCNT.hubAt
  let q := d.instrumentQueues
  (d.hubNotice 0x070C [redo]).hubNotice 0x070A [cause, q % 2 ^ 64, q / 2 ^ 64]

/-- A paired secondary starts a takeover (R395). -/
def startTakeover (d : Dev) (cause : Nat) : Dev :=
  if d.twinState ≠ 2 || !d.secondary then d
  else
    let old := d.twin.peerSerial.getD 0
    let ks := d.peerBundles
    let d := (d.wf Reg.TWIN.STAT.hubAt 31 28 4).twn (fun t => { t with
      takingT := d.clk, takingCause := cause, accepted := [], resumed := [], standby := ks })
    let d := d.each ks (fun k d => d.sendTwin k 0x11 (words12 6 d.serialNo ++ words12 6 old))
    if ks.isEmpty then d.becomePrimary else d

/-- HEARTBEAT_MISS (R392, R395, R403): every interval without one counts, from pairing on, whatever the state; in a pair five in a row start a
takeover, or leave the primary alone. -/
def heartbeatMiss (d : Dev) : Dev :=
  if d.twin.heard || !(d.fb Reg.TWIN.CTL.hubAt 31) || d.twinState == 1 || d.twin.peerSerial.isNone then d
  else
    let d := (d.bump Reg.TWIN.HBMISS.hubAt).twn (fun t => { t with missRun := t.missRun + 1 })
    if d.twin.missRun < 5 || d.twinState ≠ 2 then d
    else if d.actPri then (d.twinSet 3 2).hubNotice 0x0708 [2]
    else d.startTakeover 2

/-- HEARTBEAT_RECEIVE: a secondary that shows UNPAIRED has left the pair (R403). -/
def heartbeatReceive (d : Dev) : Dev :=
  match d.takeMsg 2 with
  | (d, none) => d
  | (d, some b) =>
    let d := d.twn (fun t => { t with
      heard := true
      missRun := 0
      peerState := bits (b.getD 0 0) 11 8
      peerMask := bits (b.getD 0 0) 7 0
      peerDcyc := (List.range 8).map (fun m => ofWords12 ((b.drop (1 + 6 * m)).take 6)) })
    if d.pairedPrimary && d.twin.peerState == 0 then d.fresh 4 (fun c d => (d.twinSet 3 c).twinLost) else d

/-- DIGEST_RECEIVE (R391). -/
def digestReceive (d : Dev) : Dev :=
  match d.takeMsg 3 with
  | (d, none) => d
  | (d, some b) =>
    if d.twinState ≠ 2 then d
    else
      let m := bits (b.getD 0 0) 2 0
      let j := ofWords12 ((b.drop 1).take 6)
      (d.twn (fun t => { t with other := t.other ++ [⟨m, j, ofWords12 ((b.drop 7).take 6)⟩] })).digestCompare m j

/-! ### Forwarded commands (R387, R401) -/

/-- RUNCMD_RECEIVE: the command's registers, the command, and RUNACK with the error it gave. -/
def runcmdReceive (d : Dev) : Dev :=
  match d.takeMsg 4 with
  | (d, none) => d
  | (d, some b) =>
    if !d.secondary then d
    else
      let n := bits (b.getD 0 0) 2 0
      let cmd := bits (b.getD 1 0) 5 0
      let d := (d.wr64 Reg.SCTL.STIME n [] (ofWords12 ((b.drop 2).take 4) % 2 ^ 48)).wr (Reg.SCTL.STRIG.of n) (b.getD 6 0 % 512 &&&
        Reg.SCTL.STRIG.mask false (fun t => t == .rw))
      let d := (d.wr (Reg.SCTL.STEPK.of n) (ofWords12 ((b.drop 7).take 3) % 2 ^ 32)).runForwarded n (cmd % 16) (cmd / 16)
      d.sendMir 0 [5, n, d.fd (cmdstat n) 3 0]

/-- The command of function f with a CID, first in its queue, completes. -/
def finishShort (d : Dev) (f cid status : Nat) : Dev :=
  match d.frontCmd f with
  | some c => if c.cid = cid then d.finish f c status [] else d
  | none => d

/-- RUNACK_RECEIVE: the oldest command forwarded for the leader completes. -/
def runackReceive (d : Dev) : Dev :=
  match d.takeMsg 5 with
  | (d, none) => d
  | (d, some b) =>
    let n := bits (b.getD 0 0) 2 0
    let e := bits (b.getD 1 0) 3 0
    let st := if e = 0 then 0 else 0x0100 + e
    match d.twin.fwd.find? (fun x => x.leader == n) with
    | none => d
    | some x =>
      let d := d.twn (fun t => { t with fwd := t.fwd.erase x })
      match x.asker with
      | some (.host f cid) => d.finishShort f cid st
      | some (.node src tag cid) =>
        if d.role = 1 ∧ src = d.nodeNo then (d.relayAnswer tag src st).relayDone tag else d.respondTo src tag cid st []
      | none => d

/-- LOADCHK_RECEIVE. -/
def loadchkReceive (d : Dev) : Dev :=
  match d.takeMsg 6 with
  | (d, none) => d
  | (d, some b) => d.twn (fun t => { t with loadChk := some b })

/-! ### The mirror (R384 to R386, R402) -/

/-- MIRROR_PACKET_RECEIVE. -/
def mirrorPacket (d : Dev) : Dev :=
  match d.takeMirror 1 with
  | (d, none) => d
  | (d, some p) =>
    let n := bits (p.words.getD 0 0) 8 6
    let q := bits (p.words.getD 0 0) 5 0
    let d := d.twn (fun t => { t with
      mirGot := Sparse.put (64 * n + q) (Sparse.get (fun _ => 0) t.mirGot (64 * n + q) + 1) t.mirGot })
    d.queueWrite n q (packetWords (p.words.drop 1) true) ⟨some p.tally, p.poison, false⟩

/-- MIRROR_CALL_RETURN. -/
def mirrorReturn (d : Dev) : Dev :=
  match d.takeMirror 2 with
  | (d, none) => d
  | (d, some p) =>
    let n := bits (p.words.getD 0 0) 2 0
    let post := ofWords12 ((p.words.drop 1).take 2)
    (d.calls n (fun c => { c with mirror := c.mirror ++ [(post, p.words.drop 3)] })).mirrorSettle n

/-- MIRROR_MAILBOX: a whole packet into queue 63. -/
def mirrorMailbox (d : Dev) : Dev :=
  match d.takeMirror 3 with
  | (d, none) => d
  | (d, some p) => d.queueWrite (bits (p.words.getD 0 0) 2 0) 63 (packetWords (p.words.drop 1) true) ⟨none, false, false⟩

/-- MIRROR_PIN_SAMPLE. -/
def mirrorPin (d : Dev) : Dev :=
  match d.takeMirror 4 with
  | (d, none) => d
  | (d, some p) =>
    let w := fun (i : Nat) => p.words.getD i 0
    let s : PinSample := ⟨bits (w 0) 2 0, bits (w 1) 9 9, bits (w 1) 8 0, ofWords12 ((p.words.drop 2).take 6), w 8 % 4096⟩
    d.twn (fun t => { t with pins := t.pins ++ [s] })

/-- A whole packet at the head of queue q is taken by the twin logic; none where the end of the first packet is not there yet. -/
def takePacket (d : Dev) (n q : Nat) : Option (Dev × List QWord) :=
  let ws := d.getQ n q [] (fun x => x.words.take x.avail)
  (ws.findIdx? (fun w => w.eop)).map (fun i => d.queueTake n q (i + 1) [])

/-- The secondary takes packets of queue q of section n until it has taken as many as the report shows. -/
def dispose : Nat → Dev → Nat → Nat → Nat → Dev
  | 0, d, _, _, _ => d
  | f + 1, d, n, q, want =>
    let key := 64 * n + q
    let took := Sparse.get (fun _ => 0) d.twin.took key
    if took % 2 ^ 24 = want then d
    else match d.takePacket n q with
      | none => d
      | some (d, _) => dispose f (d.twn (fun t => { t with took := Sparse.put key (took + 1) t.took })) n q want

/-- DISPOSAL_REPORT (R386). -/
def disposalReport (d : Dev) : Dev :=
  match d.takeMirror 5 with
  | (d, none) => d
  | (d, some p) =>
    let n := bits (p.words.getD 0 0) 2 0
    d.each outTwinQueues.zipIdx (fun e d =>
      let want := ofWords12 ((p.words.drop (1 + 2 * e.2)).take 2)
      let d := d.twn (fun t => { t with reported := Sparse.put (64 * n + e.1) want t.reported })
      dispose 2048 d n e.1 want)

/-- MAILBOX_WRITE (R243, R384, R385, R402): a paired secondary ignores and counts it; a paired primary mirrors each packet when its marked word
is written. -/
def mailboxWrite (d : Dev) (n w : Nat) (eop : Bool) : Dev :=
  if d.secondary then d.bump (Reg.FERRY.OVRCNT.of n [63])
  else
    let d := d.mailbox n w eop
    if !d.pairedPrimary then d
    else
      let ws := Sparse.get (fun _ => []) d.twin.mboxOpen n ++ [w % 4096]
      if eop then (d.sendMir 3 (n :: ws)).twn (fun t => { t with mboxOpen := Sparse.drop n t.mboxOpen })
      else d.twn (fun t => { t with mboxOpen := Sparse.put n ws t.mboxOpen })

/-- FREE of queue 63 in a paired primary: the smaller of its own and the free words of the mirror buffer (R385). -/
def mailboxFree (d : Dev) (n : Nat) : Nat :=
  let own := d.getQ n 63 0 Queue.free
  if !d.pairedPrimary then own
  else
    min own (d.mirrorRoom 3)

/-! ### Failover (R393 to R398) -/

/-- SELF_FAULT_STEPDOWN with the cause of R400: a fault the device has detected (R393), or the error of a hub unit that device firmware reports. The
primary stops its outputs and steps down; a secondary leaves the pair (R403), its outputs off as they were. -/
def selfFault (d : Dev) (cause : Nat) : Dev :=
  if d.twinState ≠ 2 || !(cause == 0x22 || d.twin.selfDue.contains cause) then d
  else
    let pri := d.actPri
    let d := (d.twn (fun t => { t with stopped := true, selfDue := [] })).wb Reg.TWIN.STAT.hubAt 0 false
    if pri then
      let body := words12 6 d.serialNo ++ [cause % 256]
      let d := (d.sendMir 0 (7 :: body)).each d.peerBundles (fun k d => d.sendTwin k 0x10 body)
      (d.twinSet 0 5).haltAll
    else (d.haltAll).twinSet 0 5

/-- STEPDOWN_RECEIVE on bundle k: from the primary on MIR VC0, which starts the takeover, or from another pair's primary on SVC VC3, which a
peer remembers (R395). -/
def stepdownReceive (d : Dev) (k : Nat) : Dev :=
  if k = d.mirKey && d.secondary then
    match d.takeMsg 7 with
    | (d, some _) => d.startTakeover 1
    | (d, none) => d
  else match d.takeSvc k 0x10 with
    | (d, none) => d
    | (d, some (_, b)) => d.twn (fun t => { t with stepdownFrom := t.stepdownFrom ++ [ofWords12 (b.take 6)] })

/-- The bundle whose neighbour has a serial number. -/
def bundleOf (d : Dev) (serial : Nat) : Option Nat := (d.sys.neigh.find? (fun e => e.2.serial == serial)).map (fun e => e.1)

/-- Queues of a section bound to bundle k. -/
def boundTo (d : Dev) (qs : List Nat) (k : Nat) : List Nat :=
  qs.filter (fun q => let m := Reg.LINKQ.MAP.of (k / 32) [q - 16]; d.fb m 31 && d.fd m 12 8 == k % 32)

/-- The words of RESUME: the complete packets received on each FAB and STR channel that `count` gives (R400). -/
def resumeWords (d : Dev) (k : Nat) (count : Nat → Nat → Nat) : List Nat :=
  let qs := d.boundTo inQueues k
  let entry := fun (q : Nat) =>
    let c := queueChan q (d.fd (Reg.LINKQ.MAP.of (k / 32) [q - 16]) 3 0)
    [if isFab c then c - 1 else 16 + (c - 17)] ++ words12 2 (count q c % 2 ^ 24)
  qs.length :: (qs.map entry).flatten

/-- The count that a RESUME body gives for a channel. -/
def resumeCount (b : List Nat) (c : Nat) : Option Nat :=
  let id := if isFab c then c - 1 else 16 + (c - 17)
  ((List.range (b.getD 0 0 % 512)).find? (fun i => b.getD (1 + 3 * i) 0 % 32 == id)).map (fun i =>
    ofWords12 ((b.drop (2 + 3 * i)).take 2))

/-- A peer's packets to the old primary that were not acknowledged: those the new primary does not hold go out again whole, before the rest of
the queue (R396). -/
def resendQueue (d : Dev) (old q : Nat) (skip : Nat) : Dev :=
  let mine := (d.getBundle old).sent.filter (fun s => s.queue == some q)
  let again := mine.filter (fun s => s.ended) |>.drop skip
  let part := mine.filter (fun s => !s.ended)
  let words := ((again ++ part).map (fun s => (packetWords s.pkt.words s.ended).map (fun w =>
    if w.eop then { w with poison := s.pkt.poison } else w))).flatten
  (d.bundle old (fun b => { b with sent := b.sent.filter (fun s => s.queue != some q) })).queue (old / 32) q
    (fun x => { x with taken := words ++ x.taken })

/-- TAKEOVER_RECEIVE on bundle k by a peer (R395, R396): REJECT, or ACCEPT with every channel of the old primary's bundle moved to k, and
RESUME. -/
def takeoverReceive (d : Dev) (k : Nat) : Dev :=
  match d.takeSvc k 0x11 with
  | (d, none) => d
  | (d, some (_, b)) =>
    let old := ofWords12 ((b.drop 6).take 6)
    let kp := d.bundleOf old
    let down := d.twin.stepdownFrom.contains old || !(kp.any d.bundleActive)
    let mine := words12 6 d.serialNo
    if !down then
      let none_ := kp.all (fun x => (d.boundTo inQueues x ++ d.boundTo outQueues x).isEmpty)
      d.sendTwin k 0x13 (mine ++ [if none_ then 2 else 1])
    else
      let d := d.sendTwin k 0x12 mine
      match kp with
      | none => d.sendTwin k 0x14 [0]
      | some p =>
        let body := d.resumeWords p (fun _ c => Sparse.get (fun _ => 0) (d.getBundle p).got c)
        let qs := if p / 32 = k / 32 then d.boundTo inQueues p ++ d.boundTo outQueues p else []
        let d := d.each qs (fun q d => d.wf (Reg.LINKQ.MAP.of (k / 32) [q - 16]) 12 8 (k % 32))
        (d.twn (fun t => { t with moved := Sparse.put k p t.moved })).sendTwin k 0x14 body

/-- ACCEPT_RECEIVE by a secondary that takes over: RESUME goes back with what it holds from the mirror (R396). -/
def acceptReceive (d : Dev) (k : Nat) : Dev :=
  match d.takeSvc k 0x12 with
  | (d, none) => d
  | (d, some _) =>
    if d.twinState ≠ 4 then d
    else
      let body := d.resumeWords k (fun q _ => Sparse.get (fun _ => 0) d.twin.mirGot (64 * (k / 32) + q))
      (d.twn (fun t => { t with accepted := k :: t.accepted })).sendTwin k 0x14 body

/-- The takeover fails: run groups halt, TWIN_SPLIT, UNPAIRED, with the outputs off as they were (R397). -/
def split (d : Dev) (node : Nat) : Dev :=
  (((d.twn (fun t => { t with stopped := true })).haltAll).twinSet 0 4).hubNotice 0x070B [node]

/-- REJECT_RECEIVE. -/
def rejectReceive (d : Dev) (k : Nat) : Dev :=
  match d.takeSvc k 0x13 with
  | (d, none) => d
  | (d, some (src, _)) => if d.twinState = 4 then d.split src else d

/-- TAKEOVER_TIMEOUT: a peer has been silent for 100 µs. -/
def takeoverTimeout (d : Dev) : Dev :=
  match d.twin.standby.find? (fun k => !(d.twin.accepted.contains k)) with
  | none => d
  | some k => if d.twinState = 4 ∧ d.twin.takingT + 100000 ≤ d.clk then d.split (d.nodeAt k) else d

/-- Packets already held by the peer are skipped from the head of queue q (R396). -/
def skipPackets : Nat → Dev → Nat → Nat → Dev
  | 0, d, _, _ => d
  | f + 1, d, n, q => match d.takePacket n q with | some (d, _) => skipPackets f d n q | none => d

/-- RESUME_RECEIVE: the new primary skips what the peer holds, and becomes primary when every standby bundle has resumed; the peer resends
what the new primary does not hold (R396). -/
def resumeReceive (d : Dev) (k : Nat) : Dev :=
  match d.takeSvc k 0x14 with
  | (d, none) => d
  | (d, some (_, b)) =>
    let n := k / 32
    let chan := fun (d : Dev) (q : Nat) => queueChan q (d.fd (Reg.LINKQ.MAP.of n [q - 16]) 3 0)
    if d.twinState = 4 then
      if !(d.twin.accepted.contains k) || d.twin.resumed.contains k then d
      else
        let d := d.each (d.boundTo outQueues k) (fun q d =>
          match resumeCount b (chan d q) with
          | none => d
          | some c =>
            let took := Sparse.get (fun _ => 0) d.twin.took (64 * n + q)
            let skip := (c + 2 ^ 24 - took % 2 ^ 24) % 2 ^ 24
            if skip < 2 ^ 23 then skipPackets (min skip 2048) d n q else d)
        let d := d.twn (fun t => { t with resumed := k :: t.resumed })
        if d.twin.standby.all (fun x => d.twin.resumed.contains x) then d.becomePrimary else d
    else match Sparse.find k d.twin.moved with
      | none => d
      | some p =>
        let d := d.each (d.boundTo outQueues k) (fun q d =>
          match resumeCount b (chan d q) with
          | none => d
          | some c =>
            let acked := Sparse.get (fun _ => 0) d.twin.disposed (64 * n + q)
            d.resendQueue p q ((c + 2 ^ 24 - acked % 2 ^ 24) % 2 ^ 24))
        d.twn (fun t => { t with moved := Sparse.drop k t.moved })

end Dev

end Sys2Proof.Machine
end

