-- ==== Sys2Proof/Machine/HostCmds.lean ====
section
/-! DEFINITION. The host port (R405 to R428, R495, R510): rings, commands as they begin and complete, data windows, function and hot resets. -/

namespace Sys2Proof.Machine

namespace Dev

/-! ### Rings (R413 to R415, R418) -/

/-- Commands at the front whose OPC the table does not have complete in their turn (R421). -/
def refuseFront : Nat → Dev → Nat → Dev
  | 0, d, _ => d
  | k + 1, d, f =>
    match d.frontCmd f with
    | some c => if knownOpc c.opc then d else refuseFront k (d.finish f c (d.cmdErr f c) []) f
    | none => d

/-- A command has ended: those of unknown OPC behind it complete. -/
def settleQueue (d : Dev) (f : Nat) : Dev := refuseFront 9 d f

/-- A write of HQ.CTL (R413). -/
def hqCtlWrite (d : Dev) (f v : Nat) : Dev :=
  let l := Reg.HQ.CTL.hubAt [f]
  let was := d.fb l 0
  let d := d.wb l 0 (v.testBit 0)
  if was || !(v.testBit 0) then d
  else
    let d := ((d.wr (Reg.HQ.CMDHEAD.hubAt [f]) 0).wr (Reg.HQ.CMDTAIL.hubAt [f]) 0).wr (Reg.HQ.CPLHEAD.hubAt [f]) 0
    let d := (d.wr (Reg.HQ.CPLTAIL.hubAt [f]) 0x10000).fn f (fun h => { h with halted := false })
    drainNotices 65 d f

/-- CMDTAIL_WRITE (R414): an overrun sets RINGERR and stops fetching. An index beyond the ring names no entry and overruns too. -/
def cmdtailWrite (d : Dev) (f v : Nat) : Dev :=
  let l := Reg.HQ.CMDTAIL.hubAt [f]
  let old := d.fd l 11 0
  let n := d.cmdSize f
  let head := d.fd (Reg.HQ.CMDHEAD.hubAt [f]) 11 0
  let new := v % 4096
  let held := (old + n - head % n) % n + (new + n - old % n) % n
  let d := d.wr l new
  if d.ringsOn f ∧ (n ≤ new ∨ n ≤ held) then
    (d.wb (Reg.HQ.STAT.hubAt [f]) 2 true).fn f (fun h => { h with halted := true })
  else d

/-- CPLHEAD_WRITE (R415): freed entries let waiting notices be written. -/
def cplheadWrite (d : Dev) (f v : Nat) : Dev := drainNotices 65 (d.wr (Reg.HQ.CPLHEAD.hubAt [f]) (v % 4096)) f

/-- Whether function f accepts HHP (R488, R491). -/
def hhpUp (d : Dev) (f : Nat) : Bool := d.bootStage == 5 || (d.inSafe && f == 0)

/-- Whether function f has a command to fetch and may fetch it (R414). -/
def canFetch (d : Dev) (f : Nat) : Bool :=
  d.hhpUp f && d.ringsOn f && !(d.getFn f true (fun h => h.halted)) &&
    d.fd (Reg.HQ.CMDHEAD.hubAt [f]) 11 0 != d.fd (Reg.HQ.CMDTAIL.hubAt [f]) 11 0 &&
    decide (d.outstanding f < 8) && decide (d.outstanding f < d.freeEntries f)

/-- The endpoint serves function f: the next one after it is looked for from f on (R25). -/
def serve (d : Dev) (f : Nat) : Dev := { d with served := f }

/-- Whether function f is the next of those with a command to fetch, in round-robin order from the function served last (R25). -/
def turn (d : Dev) (f : Nat) : Bool := ((List.range 9).map (fun i => (d.served + 1 + i) % 9)).find? d.canFetch == some f

/-- COMMAND_FETCH (R414): one entry, in the function's turn; `err` says the access failed on the link. -/
def commandFetch (d : Dev) (f : Nat) (err : Bool) : Dev :=
  let hd := Reg.HQ.CMDHEAD.hubAt [f]
  let head := d.fd hd 11 0
  if !(d.turn f) then d
  else if err then (d.serve f).wb (Reg.HQ.STAT.hubAt [f]) 2 true
  else
    let c := parseCmd (d.hostRead (d.rd64 Reg.HQ.CMDBASE 8 [f] + 64 * head) 64)
    let d := ((d.serve f).wr hd ((head + 1) % d.cmdSize f)).fn f (fun h => { h with queued := h.queued ++ [c] })
    (d.showBusy f).settleQueue f

/-- MSIX_COALESCE_TIMEOUT (R418). -/
def coalesceTimeout (d : Dev) (f v : Nat) : Dev :=
  match d.getFn f none (fun h => Sparse.find v h.unsig) with
  | none => d
  | some (k, t) =>
    if k = 0 ∨ d.clk < t + 1000 * d.fd (Reg.HQ.IRQ.hubAt [f]) 31 24 then d
    else (d.fn f (fun h => { h with unsig := Sparse.drop v h.unsig })).msix f v

/-! ### Commands (R422 to R428) -/

/-- OPEN by function f. -/
def hhpOpen (d : Dev) (f : Nat) : Dev :=
  match d.frontIs f ocOPEN with
  | none => d
  | some c =>
    let e := d.cmdErr f c
    if e ≠ 0 then (d.finish f c e []).settleQueue f
    else
      let r := d.openCmd f c
      let d := r.1.finish f c r.2.1 r.2.2
      (d.when (r.2.1 == 0) (fun d => d.openNotices f)).settleQueue f

/-- A short command of function f with this OPC (R427). One that waits for RUNACK stays where it is. -/
def hhpShort (d : Dev) (f opc ph : Nat) : Dev :=
  match d.frontIs f opc with
  | none => d
  | some c =>
    let asker := Asker.host f c.cid
    if isLong c || d.twin.fwd.any (fun x => x.asker == some asker) then d
    else
      let e := d.cmdErr f c
      if e ≠ 0 then (d.finish f c e []).settleQueue f
      else
        match d.shortCmd f c ph asker with
        | (d, some st, data) => (d.finish f c st data).settleQueue f
        | (d, none, _) => d

/-- A run command of function f (R423, R424): through the target section's SCTL.CMD, or relayed to NODES as a long command. -/
def hhpRun (d : Dev) (f opc : Nat) : Dev :=
  match d.takeLong f (fun c => c.opc == opc && isLong c) with
  | none => d.hhpShort f opc 0
  | some (d, c) =>
    let e := d.cmdErr f c
    if e ≠ 0 then (d.finishLong f c.cid e []).settleQueue f
    else (d.relay c (nodesOf c) (some (f, c.cid))).settleQueue f

/-- Whether a host buffer is present and aligned. -/
def bufOk (buf : Nat) : Bool := buf != 0 && buf % 64 == 0

/-- LOAD_IMAGE by function f (R176, R179, R423): its buffers, then stage 1, now or when the load before it lets it. `err`: the host's memory
failed. -/
def hhpLoad (d : Dev) (f : Nat) (err : Bool) : Dev :=
  let r := match d.takeLong f (fun c => c.opc == ocLOAD) with
    | some x => x
    | none => (d, (d.getFn f none (fun h => h.long)).getD ⟨0, 0, 0, 0, 0, 0, [], true⟩)
  let d := r.1
  let c := r.2
  if c.opc ≠ ocLOAD || d.loads.any (fun x => x.fn == f && !x.auto && decide (x.stage < 5)) then d
  else
    let e := d.cmdErr f c
    let e := if e ≠ 0 then e else if !(bufOk c.buf) || c.blen == 0 || c.buf2 % 64 != 0 then scBUFFER else if err then scHOSTERR else 0
    if e ≠ 0 then (d.finishLong f c.cid e []).settleQueue f
    else (d.loadBegin (newLoad f c.cid false c.buf c.blen c.buf2)).settleQueue f

/-- AUTOSTART_LOAD (R180, R493): the load begins after READY; once its twin agrees it commits and starts. -/
def autostartLoad (d : Dev) : Dev :=
  let a := Reg.BOOT.ASTAT.hubAt
  if d.bootStage ≠ 5 then d
  else match d.loads.find? (fun x => x.auto && x.stage == 5) with
    | some x => if d.twinAgrees x && x.place.all d.queuesTested then ((d.commitLoad x).wf a 2 0 2).autoStart x else d
    | none =>
      match d.boot.booted with
      | none => d
      | some r =>
        if r.auto.isEmpty || d.fd a 2 0 != 0 && d.loads.any (fun x => x.auto) || decide (1 < d.fd a 2 0) then d
        else (d.wf a 2 0 1).loadBegin (newLoad 0 0 true (leAt r.auto 0 4) (leAt r.auto 4 4) 0)

/-- The first `k` bytes of a string, zeros where it is shorter. -/
def padTo (k : Nat) (l : List Nat) : List Nat := (l ++ List.replicate k 0).take k

/-- A section's part of the report (R495, R497). -/
def attestSection (d : Dev) (n : Nat) : List Nat :=
  let st := d.rd (Reg.SCTL.STATE.of n)
  let head := [st % 8, bits st 26 24] ++ toBytes 2 (d.period n) ++ [0, 0, 0, 0]
  match d.committed n, Sparse.find n d.images with
  | true, some x => head ++ padTo 16 x.imgid ++ (if d.inSafe then List.replicate 48 0 else padTo 48 x.digest) ++ toBytes 4 x.secver ++ [0, 0, 0, 0]
  | _, _ => head ++ List.replicate 72 0

/-- A digest field: zeros in SAFE. -/
def attestDigest (d : Dev) (f : BootRec → List Nat) : List Nat :=
  match d.inSafe, d.boot.booted with
  | false, some r => padTo 48 (f r)
  | _, _ => List.replicate 48 0

/-- The 9,216 bytes of the report (R495). -/
def attestReport (d : Dev) (nonce : List Nat) : List Nat :=
  let st := Reg.BOOT.STAT.hubAt
  let pol := d.policyBytes
  let body := [0x48, 0x56, 0x41, 0x54] ++ toBytes 2 1 ++ toBytes 2 (b2n d.inSafe + 2 * d.fd st 27 27) ++ List.replicate 8 0 ++
    toBytes 8 d.serialNo ++ toBytes 8 d.wrapNs ++ padTo 32 nonce ++ d.attestDigest (fun r => r.digest) ++
    d.attestDigest (fun r => r.devfw) ++ d.attestDigest (fun r => r.secfw) ++ d.attestDigest (fun r => r.cfg) ++
    toBytes 4 (d.rd Reg.BOOT.OTPSTAT.hubAt) ++ toBytes 4 (d.rd Reg.BOOT.OTPSLOT.hubAt) ++ toBytes 4 (d.rd Reg.BOOT.SECVER.hubAt) ++
    [0, 0, 0, 0] ++ ((List.range 8).map (fun n => d.attestSection n)).flatten ++
    [leAt pol 0 1] ++ toBytes 4 (leAt pol 4 4) ++ List.replicate 11 0
  let h := Config.sha384 body
  body ++ padTo 48 h ++ padTo 384 (Config.sigMake 0 h) ++ padTo 7856 (Config.sigMake 1 h)

/-- ATTEST by function f. -/
def hhpAttest (d : Dev) (f : Nat) (err : Bool) : Dev :=
  match d.takeLong f (fun c => c.opc == ocATTEST) with
  | none => d
  | some (d, c) =>
    let e := d.cmdErr f c
    let e := if e ≠ 0 then e else if !(bufOk c.buf) || decide (c.blen < 9216) then scBUFFER else if err then scHOSTERR else 0
    if e ≠ 0 then (d.finishLong f c.cid e []).settleQueue f
    else ((d.hostWrite c.buf (d.attestReport c.arg)).finishLong f c.cid 0 (toBytes 4 9216)).settleQueue f

/-- SYSTEM_STATUS by function f; a manager turns it into COMMAND packets to the nodes it knows, and completes it when they have answered (R376). -/
def hhpStatus (d : Dev) (f : Nat) (err : Bool) : Dev :=
  match d.takeLong f (fun c => c.opc == ocSTATUS) with
  | none => d
  | some (d, c) =>
    let e := d.cmdErr f c
    let e := if e ≠ 0 then e
      else if c.buf = 0 then 0
      else if c.buf % 64 ≠ 0 ∨ c.blen < 2048 then scBUFFER else if err then scHOSTERR else 0
    if e ≠ 0 then (d.finishLong f c.cid e []).settleQueue f
    else
      let nodes := if d.role = 1 then (d.sys.registry.filter (fun e => !e.2.lost)).map (fun e => e.1) else []
      if nodes.isEmpty then (d.statusDone f c.cid c.buf).settleQueue f else (d.relay c nodes (some (f, c.cid))).settleQueue f

/-- What the configuration space of function f identifies it by (R406): vendor ID, device ID, class code, subsystem vendor ID and subsystem ID. -/
def identity (d : Dev) (f : Nat) : Nat × Nat × Nat × Nat × Nat :=
  let sub := fun i => match d.boot.booted with | some r => leAt r.syscfg i 2 | none => 0
  (Config.vendorId.toNat, d.fd Reg.DEV.PCIID.hubAt (if f = 0 then 15 else 31) (if f = 0 then 0 else 16), 0x120000, sub 8, sub 10)

/-! ### Data windows (R408 to R410) -/

/-- SMA of a BAR2 offset, where one is mapped. -/
def bar2Sma (d : Dev) (n off : Nat) : Option Nat :=
  if off < 0x800000 then some off
  else if 0x8000000 ≤ off ∧ off < 0x10000000 then some (hbmBase + d.fd (Reg.SDMA.HWIN.of n) 5 0 * 2 ^ 27 + (off - 0x8000000))
  else none

/-- A refusal counts in BADACC of the function. -/
def badAcc (d : Dev) (n : Nat) : Dev := d.bump (Reg.HQ.BADACC.hubAt [n + 1])

/-- The parts of an access that lie in one line each: offset within the access, and length. -/
def lineParts (a len : Nat) : List (Nat × Nat) :=
  (List.range (len / 64 + 2)).filterMap (fun i =>
    let lo := max a ((a / 64 + i) * 64)
    let hi := min (a + len) ((a / 64 + i + 1) * 64)
    if lo < hi then some (lo - a, hi - lo) else none)

/-- Power state of section n: 0 OFF, 1 powering up, 2 ON, 3 powering down (R511). -/
def pstate (d : Dev) (n : Nat) : Nat := d.fd (Reg.PWR.SECT.STAT.hubAt [n]) 30 29

/-- The halfword errors of an access as a part of it sees them that begins `k` halfwords on. -/
def errsFrom (k : Nat) (errs : List (Nat × Nat)) : List (Nat × Nat) :=
  (errs.filter (fun e => decide (k ≤ e.1))).map (fun e => (e.1 - k, e.2))

/-- One line of a posted write, and whether it was refused. `ep`: the packet is poisoned, and so are the lines it writes (R405, R454, log 87). -/
def bar2Line (d : Dev) (n off : Nat) (bs : List Nat) (ep : Bool) (errs : List (Nat × Nat)) (p : Nat × Nat) : Dev × Bool :=
  match d.pstate n, d.bar2Sma n (off + p.1) with
  | 0, _ => (d, true)
  | _, none => (d, true)
  | 2, some a =>
    let part := (bs.drop p.1).take p.2
    let tag := if p.2 = 64 then some ⟨some (BitVec.ofNat 32 (crc32c part)), ep⟩ else none
    let r := d.svcWrite n 21 a part tag true (errsFrom ((off + p.1) / 2 - off / 2) errs)
    let k := (r.1.allow n 21 a p.2 true).getD 0
    (r.1.when (ep && r.2.isOk) (fun d => d.poisonLine n ((d.region n 21 k a).getD a / 64)), !r.2.isOk)
  | _, some _ => (d.fenceDrop n 16, true)

/-- Whether an access through BAR2 has to wait for its banks (R196, log 81). -/
def bar2Waits (d : Dev) (n off len : Nat) (write : Bool) : Bool :=
  match d.pstate n, d.bar2Sma n off with
  | 2, some a => d.svcWaits n 21 a len write
  | _, _ => false

/-- BAR2_WRITE: a posted write of section n's window, line by line; a write of which a line is refused counts once (R410). -/
def bar2Write (d : Dev) (n off : Nat) (bs : List Nat) (ep : Bool) (errs : List (Nat × Nat)) : Dev :=
  if d.bar2Waits n off bs.length true then d
  else
    let d := (d.serve (n + 1)).when (d.pstate n == 2 && (d.bar2Sma n off).isSome) (fun d => d.nocStat n 21 bs.length none)
    let r := (lineParts off bs.length).foldl (fun r p =>
      let x := r.1.bar2Line n off bs ep errs p
      (x.1, r.2 || x.2)) (d, false)
    r.1.when r.2 (fun d => d.badAcc n)

/-- BAR2_READ: the bytes, poisoned where a line's tally fails or it is marked, as by an error that could not be corrected; or Completer Abort. `lat`
is the latency in cycles. -/
def bar2Read (d : Dev) (n off len : Nat) (errs : List (Nat × Nat)) (lat : Nat) : Dev :=
  let reply := fun (d : Dev) (st : Nat) (bs : List Nat) => { d.serve (n + 1) with rdata := bs.map (BitVec.ofNat 8), rstat := st }
  if d.bar2Waits n off len false then d
  else match d.pstate n, d.bar2Sma n off with
  | 0, _ => reply (d.badAcc n) 0 (List.replicate len 0)
  | _, none => reply (d.badAcc n) 0 (List.replicate len 0)
  | 2, some a =>
    let r := (d.nocStat n 21 len (some lat)).svcRead n 21 a len errs
    match r.2.1 with
    | .range => reply (r.1.badAcc n) 2 []
    | .domainOff => reply (r.1.badAcc n) 2 []
    | _ =>
      let k := (r.1.allow n 21 a len false).getD 0
      let lines := ((List.range len).map (fun i => (r.1.region n 21 k (a + i)).getD (a + i) / 64)).eraseDups
      let bad := lines.filter (fun l => r.1.lineBad n l)
      let d := r.1.each bad (fun l d => d.integrity n 0 l)
      reply d (b2n (!bad.isEmpty)) r.2.2
  | _, some _ => reply (d.badAcc n) 2 []

end Dev

end Sys2Proof.Machine
end

