-- ==== Sys2Proof/Machine/Dma.lean ====
section
/-! DEFINITION. DMA channels (R429 to R441), and the resets of the host port that stop them: SDMA channels 0 to 3 of a section, and the hub's HDMA channels, written here as those of
unit 8. -/

namespace Sys2Proof.Machine

/-- STATE codes of STAT (R439). -/
abbrev dmIDLE : Nat := 0
abbrev dmRUNNING : Nat := 1
abbrev dmPARKED : Nat := 2
abbrev dmSTOPPED : Nat := 3
abbrev dmWITHDRAWN : Nat := 4
abbrev dmERROR : Nat := 5

/-- ERR codes. -/
abbrev deALIGN : Nat := 1
abbrev deDESC : Nat := 2
abbrev deRANGE : Nat := 3
abbrev deHOST : Nat := 4
abbrev deINTEG : Nat := 5
abbrev deOFF : Nat := 6

/-- A descriptor from its 32 bytes (R429). `clean`: every reserved bit is 0. -/
def parseDesc (b : List Nat) : Desc :=
  let v := fun (i n : Nat) => ofBytes ((b.drop i).take n)
  let c := v 8 4
  { next := v 0 8 / 32 * 32, last := (v 0 8).testBit 0, irq := c.testBit 31, mode := bits c 30 29, dir := bits c 28 27,
    log2e := bits c 23 20, len := v 0xC 4, addrA := v 0x10 8, addrB := v 0x18 8,
    clean := bits (v 0 8) 4 1 == 0 && bits c 26 24 == 0 && bits c 19 0 == 0 }

/-- Whether an address side of a linear descriptor is section memory: source for DIR 1 and 2, destination for DIR 0 and 2. -/
def Desc.fromSec (x : Desc) : Bool := x.dir != 0
def Desc.toSec (x : Desc) : Bool := x.dir != 1

/-- The error a fetched descriptor has, 0 for none (R429, R431). `hub`: an HDMA channel. -/
def descErr (x : Desc) (hub : Bool) : Nat :=
  let indexed := x.mode == 1 || x.mode == 2
  let far := fun (a : Nat) => decide (2 ^ 38 ≤ a)
  let lin := if x.mode = 1 then x.toSec else if x.mode = 2 then x.fromSec else false
  if x.addrA % 64 ≠ 0 ∨ (!indexed ∧ x.addrB % 64 ≠ 0) ∨ x.len % 64 ≠ 0 then deALIGN
  else if indexed ∧ x.len % 2 ^ x.log2e ≠ 0 then deALIGN
  else if x.len = 0 || !x.clean || x.mode == 3 || x.dir == 3 || (x.mode == 1 && x.dir == 0) || (x.mode == 2 && x.dir == 1) then deDESC
  else if (indexed && !(decide (6 ≤ x.log2e ∧ x.log2e ≤ 12))) || (!indexed && x.log2e != 0) then deDESC
  else if hub then (if x.mode ≠ 0 then deDESC else 0)
  else if (!indexed && ((x.fromSec && far x.addrA) || (x.toSec && far x.addrB))) || (indexed && lin && far x.addrA) then deDESC
  else 0

namespace Dev

/-- A register of channel c of unit n. -/
def dmaReg (n c : Nat) (sr hr : Row) : Loc := if n = 8 then hr.hubAt [c] else sr.of n [c]
def dmaCtl (n c : Nat) : Loc := dmaReg n c Reg.SDMA.CTL Reg.HDMA.CTL
def dmaStat (n c : Nat) : Loc := dmaReg n c Reg.SDMA.STAT Reg.HDMA.STAT
def dmaSkip (n c : Nat) : Loc := dmaReg n c Reg.SDMA.SKIP Reg.HDMA.SKIP
def dmaLines (n c : Nat) : Loc := dmaReg n c Reg.SDMA.LINES Reg.HDMA.LINES
def dmaDone (n c : Nat) : Loc := dmaReg n c Reg.SDMA.DONECNT Reg.HDMA.DONECNT

/-- A wide register of the channel. -/
def dmaRd64 (d : Dev) (n c : Nat) (sr hr : Row) : Nat := if n = 8 then d.rd64 hr 8 [c] else d.rd64 sr n [c]
def dmaWr64 (d : Dev) (n c : Nat) (sr hr : Row) (v : Nat) : Dev := if n = 8 then d.wr64 hr 8 [c] v else d.wr64 sr n [c] v
def dmaDesc (d : Dev) (n c : Nat) : Nat := d.dmaRd64 n c Reg.SDMA.DESC Reg.HDMA.DESC / 32 * 32
def setDesc (d : Dev) (n c a : Nat) : Dev := d.dmaWr64 n c Reg.SDMA.DESC Reg.HDMA.DESC a

def dmaCh (d : Dev) (n c : Nat) (f : DmaCh → DmaCh) : Dev :=
  if n = 8 then { d with hdma := vmod d.hdma c f } else d.sec n (fun s => { s with dma := vmod s.dma c f })
def getDma (d : Dev) (n c : Nat) : DmaCh :=
  if n = 8 then vget d.hdma c DmaCh.start else d.getSec n DmaCh.start (fun s => vget s.dma c DmaCh.start)

def dmaState (d : Dev) (n c : Nat) : Nat := d.fd (dmaStat n c) 31 28
def setDma (d : Dev) (n c st : Nat) : Dev := d.wf (dmaStat n c) 31 28 st

/-- A notice of the channel (R440). -/
def dmaNotice (d : Dev) (n code : Nat) (items : List Nat) : Dev := if n = 8 then d.hubNotice code items else d.notice n code items

/-- Whether DESC, SKIP, DSPACE and VEC may be written: the channel neither runs nor is parked (R439). -/
def dmaOpen (d : Dev) (n c : Nat) : Bool := d.dmaState n c != dmRUNNING && d.dmaState n c != dmPARKED

/-- The channel enters STOPPED at a resume point (R436). -/
def dmaStopAt (d : Dev) (n c a skip : Nat) : Dev :=
  let d := ((d.setDma n c dmSTOPPED).setDesc n c a).wr (dmaSkip n c) skip
  (d.dmaCh n c (fun _ => DmaCh.start)).dmaNotice n 0x0901 [c, a, skip]

/-- The channel enters WITHDRAWN (R437). -/
def dmaWithdrawn (d : Dev) (n c a lines : Nat) : Dev :=
  let d := ((d.setDma n c dmWITHDRAWN).setDesc n c a).wr (dmaLines n c) lines
  (d.dmaCh n c (fun _ => DmaCh.start)).dmaNotice n 0x0902 [c, a, lines]

/-- The channel enters ERROR (R431, R438). -/
def dmaFail (d : Dev) (n c err lines : Nat) : Dev :=
  let d := ((d.setDma n c dmERROR).wf (dmaStat n c) 27 24 err).wr (dmaLines n c) lines
  (d.dmaCh n c (fun _ => DmaCh.start)).dmaNotice n 0x0903 [c, err, d.dmaDesc n c, lines]

/-! ### Control (R434 to R439) -/

/-- GO. -/
def dmaGo (d : Dev) (n c : Nat) : Dev :=
  if !(d.dmaOpen n c) then d.wb (dmaStat n c) 1 true
  else
    let skip := d.rd (dmaSkip n c)
    let d := ((d.setDma n c dmRUNNING).wf (dmaStat n c) 27 24 0).wr (dmaSkip n c) 0
    let d := (d.dmaWr64 n c Reg.SDMA.BYTES Reg.HDMA.BYTES 0).wr (dmaLines n c) 0
    if skip = 0xFFFFFFFF then d.dmaCh n c (fun _ => { DmaCh.start with rereading := true })
    else d.dmaCh n c (fun _ => { DmaCh.start with moved := skip, wrote := skip })

/-- HALT: at once where the channel is parked or still fetches its descriptor. -/
def dmaHalt (d : Dev) (n c : Nat) : Dev :=
  let a := d.dmaDesc n c
  let x := d.getDma n c
  if d.dmaState n c = dmPARKED then d.dmaStopAt n c a 0xFFFFFFFF
  else if d.dmaState n c ≠ dmRUNNING then d
  else if x.desc.isNone && !x.rereading then d.dmaStopAt n c a x.moved
  else d.dmaCh n c (fun x => { x with halt := true })

/-- WDRAW: at once where no burst is issued. -/
def dmaWdraw (d : Dev) (n c : Nat) : Dev :=
  let a := d.dmaDesc n c
  let x := d.getDma n c
  if d.dmaState n c ≠ dmRUNNING then d
  else if x.rereading then d.dmaCh n c (fun x => { x with wdraw := true })
  else if x.desc.isNone || x.reading then d.dmaWithdrawn n c a x.moved
  else d.dmaCh n c (fun x => { x with wdraw := true })

/-- A write of CTL: DSPACE and VEC, then WDRAW before HALT, and GO. -/
def dmaCtlWrite (d : Dev) (n c v : Nat) : Dev :=
  let l := dmaCtl n c
  let new := v &&& 0x13F
  let d := if d.dmaOpen n c then d.wr l new else d.when (d.rd l != new) (fun d => d.wb (dmaStat n c) 1 true)
  let d := if v.testBit 29 then d.dmaWdraw n c else if v.testBit 30 then d.dmaHalt n c else d
  d.when (v.testBit 31) (fun d => d.dmaGo n c)

/-- DOORBELL. -/
def dmaDoorbell (d : Dev) (n c : Nat) : Dev :=
  let st := d.dmaState n c
  if st = dmRUNNING ∨ (st = dmPARKED ∧ (d.getDma n c).rereading) then d.wb (dmaStat n c) 2 true
  else if st = dmPARKED then d.dmaCh n c (fun x => { x with rereading := true })
  else d

/-! ### Reads and writes of lines -/

/-- Where a section-side address lies for a channel: the section, the master and the SMA; none for the device controller's SRAM (R431). -/
def dmaTarget (n c a : Nat) : Option (Nat × Nat × Nat) :=
  if n ≠ 8 then some (n, 17 + c, a)
  else if 0x8000000000 ≤ a ∧ a < 0x8000000000 + 8 * 2 ^ 38 then some ((a - 0x8000000000) / 2 ^ 38, 21, (a - 0x8000000000) % 2 ^ 38)
  else none

/-- Offset of a hub address in the device controller's SRAM, where it lies there. -/
def sramOff (a : Nat) : Option Nat := if 0x1000000 ≤ a ∧ a < 0x1100000 then some (a - 0x1000000) else none

/-- Bytes of section or SRAM memory with an error code 0 when they could be read, and the sideband of their line. -/
def dmaRead (d : Dev) (n c a len : Nat) (errs : List (Nat × Nat)) : Dev × Nat × List Nat × LineTag :=
  match dmaTarget n c a with
  | some (m, mst, s) =>
    if d.pstate m ≠ 2 then (d, deOFF, [], goodTag 0)
    else
      let r := d.nocRead m mst s len errs
      let k := (r.1.allow m mst s len false).getD 0
      let line := (r.1.region m mst k s).getD s / 64
      match r.2.1 with
      | .ok => (r.1, 0, r.2.2, r.1.lineTag m line)
      | .uncorr => (r.1, 0, r.2.2, r.1.lineTag m line)
      | .range => (r.1, deRANGE, [], goodTag 0)
      | .domainOff => (r.1, deOFF, [], goodTag 0)
  | none =>
    match sramOff a with
    | some o => (d, 0, (List.range len).map (fun i => (Sparse.get (fun _ => 0) d.ctl.mem (o + i)).toNat), ⟨none, false⟩)
    | none => (d, deRANGE, [], goodTag 0)

/-- A line of section or SRAM memory written. -/
def dmaWrite (d : Dev) (n c a : Nat) (bs : List Nat) (tag : LineTag) : Dev × Nat :=
  match dmaTarget n c a with
  | some (m, mst, s) =>
    if d.pstate m ≠ 2 then (d, deOFF)
    else
      let r := d.nocWrite m mst s bs (some tag) []
      (r.1, match r.2 with | .ok => 0 | .uncorr => 0 | .range => deRANGE | .domainOff => deOFF)
  | none =>
    match sramOff a with
    | some o => ({ d with ctl := { d.ctl with
        mem := bs.zipIdx.foldl (fun m e => Sparse.set (fun _ => 0) m (o + e.2) (BitVec.ofNat 8 e.1)) d.ctl.mem } }, 0)
    | none => (d, deRANGE)

/-- Bytes of a descriptor or index table: host memory or section memory by DSPACE. -/
def dmaFetch (d : Dev) (n c a len : Nat) (host : Bool) : Dev × Nat × List Nat :=
  if host then (d, 0, d.hostRead a len)
  else
    let r := d.dmaRead n c a len []
    (r.1, r.2.1, r.2.2.1)

/-- Whether an access of a channel to a line has to wait for its bank (R196, log 81). -/
def dmaWaits (d : Dev) (n c a : Nat) (write : Bool) : Bool :=
  match dmaTarget n c a with
  | some (m, mst, s) => d.pstate m == 2 && d.svcWaits m mst s 1 write
  | none => false

/-- How a line of a descriptor ends (R431, R438): moved; failed, with its error and whether it was written; stopped by its index entry; or by a
fetch of that entry that failed. -/
inductive LineEnd where
  | moved
  | failed (err : Nat) (written : Bool)
  | entry (err : Nat)
  | fetch (err : Nat)
deriving DecidableEq, Repr

/-- The index entry of element e: read once, when the element begins, or its error (R430, R431). -/
def dmaEntry (d : Dev) (n c : Nat) (x : Desc) (e : Nat) : Dev × LineEnd × Nat :=
  match (d.getDma n c).entry with
  | some (k, v) => if k = e then (d, .moved, v) else read
  | none => read
where
  read : Dev × LineEnd × Nat :=
    let r := d.dmaRead n c (64 * (x.addrB / 2 ^ 32) + 4 * e) 4 []
    let idx := ofBytes r.2.2.1
    if r.2.1 ≠ 0 then (r.1, .fetch r.2.1, 0)
    else if idx % 64 ≠ 0 then (r.1, .entry deALIGN, 0)
    else (r.1.dmaCh n c (fun y => { y with entry := some (e, idx) }), .moved, idx)

/-- Source and destination of line i of a descriptor, host or section side each, unless its index entry stops it. -/
def dmaAddrs (d : Dev) (n c : Nat) (x : Desc) (i : Nat) : Dev × LineEnd × Nat × Nat :=
  if x.mode = 0 then (d, .moved, x.addrA + 64 * i, x.addrB + 64 * i)
  else
    let per := 2 ^ x.log2e / 64
    let r := d.dmaEntry n c x (i / per)
    let e := 64 * (x.addrB % 2 ^ 32) + r.2.2 + 64 * (i % per)
    if x.mode = 1 then (r.1, r.2.1, e, x.addrA + 64 * i) else (r.1, r.2.1, x.addrA + 64 * i, e)

/-- What comes about at the links and banks while a burst moves: halfword errors by place in the burst, 32 a line; the lines that host memory returns
poisoned; and the line whose read host memory fails. -/
structure BurstIn where
  errs : List (Nat × Nat)
  eps : List Nat
  fail : Option Nat

/-- The halfword errors of line j of a burst. -/
def BurstIn.line (b : BurstIn) (j : Nat) : List (Nat × Nat) :=
  (b.errs.filter (fun e => e.1 / 32 == j)).map (fun e => (e.1 % 32, e.2))

/-- Moves line i of a descriptor, the j-th of its burst (R405, R432, R438, R454, R455). -/
def dmaLine (d : Dev) (n c : Nat) (x : Desc) (i j : Nat) (b : BurstIn) : Dev × LineEnd :=
  let r := d.dmaAddrs n c x i
  let d := r.1
  let src := r.2.2.1
  let dst := r.2.2.2
  let wrote := fun (d : Dev) => d.dmaCh n c (fun y => { y with last := some dst })
  let wr := fun (d : Dev) (bs : List Nat) (tag : LineTag) =>
    let w := d.dmaWrite n c dst bs tag
    if w.2 = 0 then (wrote w.1, LineEnd.moved) else (w.1, .failed w.2 false)
  match r.2.1 with
  | .moved =>
    if x.dir = 0 then
      let bs := d.hostRead src 64
      if b.fail = some j then (d, .failed deHOST false)
      else wr d bs ⟨some (BitVec.ofNat 32 (crc32c bs)), b.eps.contains j⟩
    else
      let q := d.dmaRead n c src 64 (b.line j)
      let bs := q.2.2.1
      let tag := q.2.2.2
      if q.2.1 ≠ 0 then (q.1, .failed q.2.1 false)
      else if x.dir = 1 then
        let bad := tag.poison || (match tag.tally with | some t => t != BitVec.ofNat 32 (crc32c bs) | none => false)
        let d := wrote (q.1.hostLine dst bs bad)
        if bad then (match dmaTarget n c src with | some (m, _, s) => d.integrity m 1 (s / 64) | none => d, .failed deINTEG true)
        else (d, .moved)
      else wr q.1 bs tag
  | e => (d, e)

/-- How a burst ends: its first error, 0 for none, and whether that is a failed fetch of the index table, for which LINES is 0 (R438). -/
structure BurstEnd where
  err : Nat
  fetch : Bool

/-- Moves up to `k` lines on, the first of them the j-th of the burst. A line that fails is passed over and the burst goes on to its end; an index entry
that stops its element ends it there (R431, R438). -/
def dmaMove (b : BurstIn) (n c : Nat) (x : Desc) : Nat → Nat → Dev → Dev × BurstEnd
  | 0, _, d => (d, ⟨0, false⟩)
  | k + 1, j, d =>
    let i := (d.getDma n c).moved
    if x.len / 64 ≤ i then (d, ⟨0, false⟩)
    else
      let r := d.dmaLine n c x i j b
      let next := fun (written : Bool) =>
        let d := r.1.dmaCh n c (fun y => { y with moved := i + 1, wrote := y.wrote + b2n written })
        d.when written (fun d => d.dmaWr64 n c Reg.SDMA.BYTES Reg.HDMA.BYTES ((d.dmaRd64 n c Reg.SDMA.BYTES Reg.HDMA.BYTES + 64) % 2 ^ 64))
      match r.2 with
      | .moved => dmaMove b n c x k (j + 1) (next true)
      | .failed e w => ((dmaMove b n c x k (j + 1) (next w)).1, ⟨e, false⟩)
      | .entry e => (r.1, ⟨e, false⟩)
      | .fetch e => (r.1, ⟨e, true⟩)

/-- Lines of one burst (R432). -/
def burstLines : Nat := 64

/-- Whether a line of the burst that comes next has to wait for its bank. -/
def burstWaits (d : Dev) (n c : Nat) (x : Desc) : Bool :=
  let i := (d.getDma n c).moved
  ((List.range burstLines).filter (fun j => decide (i + j < x.len / 64))).any (fun j =>
    let r := d.dmaAddrs n c x (i + j)
    r.2.1 == .moved && ((x.fromSec && d.dmaWaits n c r.2.2.1 false) || (x.toSec && d.dmaWaits n c r.2.2.2 true)))

/-! ### Events -/

/-- DESCRIPTOR_FETCHED (R431): the descriptor at DESC is checked, and movement begins or the channel stops. -/
def dmaFetched (d : Dev) (n c : Nat) : Dev :=
  let x := d.getDma n c
  if d.dmaState n c ≠ dmRUNNING || x.desc.isSome || x.rereading then d
  else
    let r := d.dmaFetch n c (d.dmaDesc n c) 32 (!(d.fb (dmaCtl n c) 8))
    if r.2.1 ≠ 0 then r.1.dmaFail n c r.2.1 0
    else
      let y := parseDesc r.2.2
      let e := descErr y (n == 8)
      if e ≠ 0 then r.1.dmaFail n c e 0
      else r.1.dmaCh n c (fun z => { z with desc := some y, reading := decide (y.len / 64 ≤ z.moved) })

/-- A burst of the descriptor `y` of a running channel moves and ends, with what it meets (R432, R436 to R438). -/
def dmaBurstWith (d : Dev) (n c : Nat) (y : Desc) (b : BurstIn) : Dev :=
  let x := d.getDma n c
  let r := dmaMove b n c y burstLines 0 d
  let d := r.1
  let m := (d.getDma n c).wrote
  if r.2.err ≠ 0 then d.dmaFail n c r.2.err (if r.2.fetch then 0 else m)
  else
    let d := d.wr (dmaLines n c) m
    if x.wdraw then d.dmaWithdrawn n c (d.dmaDesc n c) m
    else if x.halt ∨ y.len / 64 ≤ (d.getDma n c).moved then d.dmaCh n c (fun z => { z with reading := true })
    else d

/-- DMA_BURST_DONE; nothing where no burst is issued or one of its lines waits for its bank. `eps`: the lines that come poisoned from host memory. -/
def dmaBurst (d : Dev) (n c : Nat) (errs : List (Nat × Nat)) (eps : List Nat) : Dev :=
  let x := d.getDma n c
  match x.desc with
  | none => d
  | some y =>
    if d.dmaState n c ≠ dmRUNNING || x.reading || x.rereading || d.burstWaits n c y then d
    else d.dmaBurstWith n c y ⟨errs, eps, none⟩

/-- READBACK_DONE (R433, R436): the last line written is read back, with the checks of any read where it lies in a section; then the descriptor
completes, or a halted channel stops at its resume point. -/
def dmaReadback (d : Dev) (n c : Nat) : Dev :=
  let x := d.getDma n c
  match x.desc with
  | none => d
  | some y =>
    let sec := fun (a : Nat) => y.toSec && d.dmaWaits n c a false
    if d.dmaState n c ≠ dmRUNNING || !x.reading || x.last.any sec then d
    else
      let r := match x.last with
        | some a => if y.toSec then let q := d.dmaRead n c a 64 []; (q.1, q.2.1) else (d, 0)
        | none => (d, 0)
      let d := r.1
      if r.2 ≠ 0 then d.dmaFail n c r.2 x.wrote
      else if x.moved < y.len / 64 then d.dmaStopAt n c (d.dmaDesc n c) x.moved
      else
        let d := d.wr (dmaDone n c) ((d.rd (dmaDone n c) + 1) % 2 ^ 32)
        let d := d.when y.irq (fun d => d.msix (if n = 8 then 0 else n + 1) (d.fd (dmaCtl n c) 5 0))
        d.dmaCh n c (fun z => { DmaCh.start with halt := z.halt, wdraw := z.wdraw, rereading := true })

/-- NEXT_WORD_READ (R434, R436, R439). -/
def dmaNextWord (d : Dev) (n c : Nat) : Dev :=
  let x := d.getDma n c
  let st := d.dmaState n c
  if !x.rereading || !(st == dmRUNNING || st == dmPARKED) then d
  else
    let a := d.dmaDesc n c
    let r := d.dmaFetch n c a 8 (!(d.fb (dmaCtl n c) 8))
    let d := r.1
    if r.2.1 ≠ 0 then d.dmaFail n c r.2.1 0
    else
      let w := ofBytes r.2.2
      if !(w.testBit 0) then
        let next := w / 32 * 32
        if x.wdraw then d.dmaWithdrawn n c next 0
        else if x.halt then d.dmaStopAt n c next 0
        else ((d.setDma n c dmRUNNING).setDesc n c next).dmaCh n c (fun _ => DmaCh.start)
      else if d.fb (dmaStat n c) 2 then d.wb (dmaStat n c) 2 false
      else if x.wdraw then d.dmaWithdrawn n c a (d.rd (dmaLines n c))
      else if x.halt then d.dmaStopAt n c a 0xFFFFFFFF
      else ((d.setDma n c dmPARKED).setDesc n c a).dmaCh n c (fun _ => DmaCh.start)

/-- DMA_TRANSFER_ERROR (R438): host memory fails a read of the channel: line `k` of the burst, the read-back, or the fetch of a descriptor or of a NEXT
word. Writes to host memory are posted and fail with nothing. -/
def dmaHostError (d : Dev) (n c k : Nat) (errs : List (Nat × Nat)) : Dev :=
  let x := d.getDma n c
  let st := d.dmaState n c
  let chain := !(d.fb (dmaCtl n c) 8)
  if !(st == dmRUNNING || (st == dmPARKED && x.rereading)) then d
  else match x.desc with
    | none => if chain then d.dmaFail n c deHOST 0 else d
    | some y =>
      if x.reading then (if y.dir = 1 then d.dmaFail n c deHOST x.wrote else d)
      else if y.dir ≠ 0 || decide (y.len / 64 ≤ x.moved + k) || d.burstWaits n c y then d
      else d.dmaBurstWith n c y ⟨errs, [], some k⟩

/-! ### Resets of the port (R428, R437, R510) -/

/-- A burst that channel c of unit n has issued completes (R437). -/
def dmaFinish (d : Dev) (n c : Nat) : Dev :=
  let x := d.getDma n c
  match x.desc with
  | some y => if d.dmaState n c = dmRUNNING && !x.reading && !x.rereading then (dmaMove ⟨[], [], none⟩ n c y burstLines 0 d).1 else d
  | none => d

/-- The section's DMA channels are withdrawn: bursts already issued complete, the registers take their reset values, and nothing is sent. -/
def dmaWithdrawAll (d : Dev) (n : Nat) : Dev :=
  let d := d.each (List.range 4) (fun c d => d.dmaFinish n c)
  (d.resetRegs n (fun o => decide (0x30000 ≤ o ∧ o < 0x34000))).sec n (fun s => { s with dma := Vector.replicate 4 DmaCh.start })

/-- The hub's channels likewise (R441). -/
def hdmaWithdrawAll (d : Dev) : Dev :=
  let base := Reg.HDMA.CTL.base
  let d := d.each (List.range 2) (fun c d => d.dmaFinish 8 c)
  { d.resetRegs 8 (fun o => decide (base ≤ o ∧ o < base + 0x2000)) with hdma := Vector.replicate 2 DmaCh.start }

/-- Every command and notice of function f is discarded, one that waits for its twin's answer included, its session closed, its DMA stopped. -/
def dropSession (d : Dev) (f : Nat) : Dev :=
  let mine := fun (a : Asker) => match a with | .host g _ => g == f | _ => false
  let d := (d.endSession f).fn f (fun h => { h with queued := [], unsig := [] })
  let drop := fun (x : FwdCmd) => if x.asker.any mine then { x with asker := none } else x
  let d := { d with twin := { d.twin with fwd := d.twin.fwd.map drop } }
  (if f = 0 then d.hdmaWithdrawAll else d.dmaWithdrawAll (f - 1)).showBusy f

/-- FLR of function f. -/
def flr (d : Dev) (f : Nat) : Dev :=
  let base := Reg.HQ.CTL.base + 0x1000 * f
  ((d.dropSession f).resetRegs 8 (fun o => decide (base ≤ o ∧ o < base + 0x1000))).fn f (fun _ => HostFn.start)

/-- HOT_RESET (R510): every session closes and DMA stops; the HQ pages stay (R412). -/
def hotReset (d : Dev) : Dev := d.each (List.range 9) (fun f d => d.dropSession f)

end Dev

end Sys2Proof.Machine
end

