-- ==== Sys2Proof/Machine/Noc.lean ====
section
/-! DEFINITION. The service network's routing tables, their swap, urgency and statistics (R442 to R451, R459). -/

namespace Sys2Proof.Machine

/-- Routers, and ports of each (R443). -/
abbrev routers : Nat := 9

/-- Key of a routing entry. -/
def routeKey (router target : Nat) : Nat := 64 * router + target

/-- Ports that an unlisted entry of a table names: the default routes, which the manual leaves to the implementation (R446, R451). -/
def routeDefault (k : Nat) : BitVec 3 := Config.defaultRoute (k / 64) (k % 64)

namespace Dev

def rtstat (n : Nat) : Loc := Reg.SNOC.RTSTAT.of n

/-- Whether a swap is in progress. -/
def swapping (d : Dev) (n : Nat) : Bool := d.fb (rtstat n) 31

/-- The entry that RTSEL selects, where it selects a router. -/
def routeSel (d : Dev) (n : Nat) : Option Nat :=
  let l := Reg.SNOC.RTSEL.of n
  if d.fd l 11 8 < routers then some (routeKey (d.fd l 11 8) (d.fd l 5 0)) else none

/-- RTDATA as it reads. -/
def rtdataRead (d : Dev) (n : Nat) : Nat :=
  match d.routeSel n with
  | some k => d.getSec n 0 (fun s => (Sparse.get routeDefault s.noc.active k).toNat * 2 ^ 16 + (Sparse.get routeDefault s.noc.shadow k).toNat)
  | none => 0

/-- A write of RTDATA sets the shadow port of the selected entry (R449, R450). -/
def rtdataWrite (d : Dev) (n v : Nat) : Dev :=
  if d.swapping n then d.wb (rtstat n) 29 true
  else match d.routeSel n with
    | some k => d.noc n (fun x => { x with shadow := Sparse.set routeDefault x.shadow k (BitVec.ofNat 3 v) })
    | none => d

/-- The ports that RTPORTS names. -/
def rtports (d : Dev) (n : Nat) : Nat := d.rd64 Reg.SNOC.RTPORTS n

/-- RTCMD_SWAP: a write of RTCMD (R449, R450). -/
def rtcmdWrite (d : Dev) (n v : Nat) : Dev :=
  if d.swapping n then d.wb (rtstat n) 29 true
  else if v.testBit 31 then (d.wb (rtstat n) 31 true).noc n (fun x => { x with swapT := some d.clk })
  else d

/-- A swap ends after `stall` ns: counted, and the ports reopen. -/
def swapEnd (d : Dev) (n stall : Nat) : Dev :=
  let d := (d.wb (rtstat n) 31 false).noc n (fun x => { x with swapT := none })
  (d.bump (Reg.SNOC.RCCNT.of n)).bump (Reg.SNOC.RCSTALL.of n) stall

/-- The time since the swap in progress began. -/
def swapAge (d : Dev) (n : Nat) : Nat := d.getSec n 0 (fun s => match s.noc.swapT with | some t => d.clk - t | none => 0)

/-- SWAP_DRAINED: every named port has drained, within 4 µs of SWAP; the tables of all routers change places (R449). -/
def swapDrained (d : Dev) (n : Nat) : Dev :=
  let k := d.swapAge n
  if !(d.swapping n) || decide (4000 < k) then d
  else
    let d := (d.noc n (fun x => { x with active := x.shadow, shadow := x.active })).swapEnd n k
    d.notice n 0x0B01 [k, d.rtports n]

/-- SWAP_DRAIN_TIMEOUT: the named port `p` has not drained within 2 µs (R450). -/
def swapTimeout (d : Dev) (n p : Nat) : Dev :=
  let k := d.swapAge n
  if !(d.swapping n) || !((d.rtports n).testBit p) || decide (k < 2000) then d
  else ((d.swapEnd n k).wb (rtstat n) 30 true).notice n 0x0B02 [p]

/-- PACKET_URGENT: a request of initiator i has lost 256 arbitrations at one port (R446). -/
def packetUrgent (d : Dev) (n i : Nat) : Dev := if i < 16 then d.bump (Reg.SNOC.URGCNT.of n [i]) else d

/-- A write of STCTL: FREEZE and WSHIFT, and CLR, which clears whether FREEZE stands or not (R448, R460). -/
def stctlWrite (d : Dev) (n v : Nat) : Dev :=
  let l := Reg.SNOC.STCTL.of n
  let d := (d.wb l 31 (v.testBit 31)).wf l 3 0 v
  if v.testBit 30 then d.clearRegs n (fun o => decide (0x21000 ≤ o ∧ o < 0x21800)) else d

end Dev

end Sys2Proof.Machine
end

