-- ==== Sys2Proof/Machine/TraceOps.lean ====
section
/-! DEFINITION. What the trace units write as their cores run, sleep and reset, and the trace buffers (R461 to R477). -/

namespace Sys2Proof.Machine

/-- A data access of a retired instruction as the trace sees it (R462). -/
structure TraceAcc where
  write : Bool
  addr : Nat
  size : Nat       -- log2 of the bytes
  data : Nat
deriving DecidableEq, Repr

/-- What an instruction did, for the trace (R462): its address, the taken branch's target, or the trap taken. -/
structure TraceEv where
  pc : Nat
  target : Option Nat
  trap : Option (Nat × Nat × Nat × Bool)   -- EPC, HANDLER, CAUSE, INT
  acc : List TraceAcc
deriving DecidableEq, Repr

namespace Dev

/-- Comparator k of source x matches the instruction (R466). -/
def cmpMatch (d : Dev) (n x k : Nat) (e : TraceEv) : Bool :=
  let c := trcLoc n Reg.STRC.CMP.CFG Reg.HTRC.CMP.CFG [x, k]
  let a := (d.rd (trcLoc n Reg.STRC.CMP.ADDR Reg.HTRC.CMP.ADDR [x, k])) +
    2 ^ 32 * (if n = 8 then d.rd (Reg.HTRC.CMP.ADDR.ofHi 8 [k]) else d.rd (Reg.STRC.CMP.ADDR.ofHi n [x, k]))
  let ty := d.fd c 31 30
  (ty == 1 && e.trap.isNone && e.pc == a) || (ty == 2 && e.acc.any (fun y => y.addr == a))

/-- Whether a comparator with the given ACTION matches. -/
def actMatch (d : Dev) (n x action : Nat) (e : TraceEv) : Bool :=
  (List.range 8).any (fun k =>
    d.fd (trcLoc n Reg.STRC.CMP.CFG Reg.HTRC.CMP.CFG [x, k]) 29 28 == action && d.cmpMatch n x k e)

/-- The bounds and type of range r of source x. -/
def rng (d : Dev) (n x r : Nat) : Nat × Nat × Nat :=
  let lo := if n = 8 then d.rd64 Reg.HTRC.RNG.LO 8 [r] else d.rd64 Reg.STRC.RNG.LO n [x, r]
  let hi := if n = 8 then d.rd64 Reg.HTRC.RNG.HI 8 [r] else d.rd64 Reg.STRC.RNG.HI n [x, r]
  (lo, hi, d.fd (trcLoc n Reg.STRC.RNG.CFG Reg.HTRC.RNG.CFG [x, r]) 31 30)

/-- Whether an address passes the ranges of a type: no range of the type is enabled, or one covers it (R466, R468). -/
def inRanges (d : Dev) (n x ty : Nat) (as : List Nat) : Bool :=
  let rs := ((List.range 4).map (d.rng n x)).filter (fun r => r.2.2 == ty)
  rs.isEmpty || rs.any (fun r => as.any (fun a => decide (r.1 ≤ a ∧ a ≤ r.2.1)))

/-- Cycles that pass for the trace of a running core (R463). -/
def traceCycles (d : Dev) (n x k : Nat) : Dev := d.src n x (fun t => { t with delta := t.delta + k })

/-- A record whose DELTA is the running count, which restarts. -/
def emitPlain (d : Dev) (n x kind xb p : Nat) : Dev :=
  let dl := d.getSrc n x 0 (fun t => t.delta)
  (d.emit n x (mkRec kind (srcCode n x) xb dl p)).src n x (fun t => { t with delta := 0 })

/-- The records of one instruction in an ACTIVE trace (R462, R468). -/
def traceRecords (d : Dev) (n x : Nat) (e : TraceEv) : Dev :=
  let tc := tctl n x
  let d := if e.trap.isNone then d.src n x (fun t => { t with ninst := min (t.ninst + 1) (2 ^ 32 - 1) }) else d
  let d := d.each e.acc (fun a d =>
    let sel := d.fb tc (if a.write then 28 else 27)
    if sel && e.trap.isNone && d.inRanges n x 2 [a.addr] then
      d.emitPlain n x (if a.write then 4 else 3) (a.size * 2 ^ 8 + a.addr / 2 ^ 32 % 256) (a.data % 2 ^ 64 + a.addr % 2 ^ 32 * 2 ^ 64)
    else d)
  let d := match e.target with
    | some t =>
      if d.fb tc 29 && d.inRanges n x 1 [t] then
        let ni := d.getSrc n x 0 (fun t => t.ninst)
        (d.emitPlain n x 1 0 (t % 2 ^ 40 + ni * 2 ^ 64)).src n x (fun t => { t with ninst := 0 })
      else d
    | none => d
  match e.trap with
  | some (epc, h, c, i) =>
    if d.fb tc 29 && d.inRanges n x 1 [epc, h] then
      (d.emitPlain n x 2 0 (epc % 2 ^ 40 + h % 2 ^ 40 * 2 ^ 40 + c % 4096 * 2 ^ 80 + b2n i * 2 ^ 95)).src n x
        (fun t => { t with ninst := 0 })
    else d
  | none => d

/-- The trace of one instruction: a START match makes an inactive trace ACTIVE before its records, a STOP match ends an ACTIVE one after
them (R467, R477). -/
def traceStep (d : Dev) (n x : Nat) (e : TraceEv) : Dev :=
  if !(d.fb (tctl n x) 31) then d
  else
    let active := d.traceActive n x
    let start := !active && d.actMatch n x 1 e
    let d := d.when start (fun d => d.traceStart n x)
    if !(active || start) then d
    else
      let d := d.traceRecords n x e
      if active && d.actMatch n x 2 e then
        (d.emitTime n x 8 0 false (d.getSrc n x 0 (fun t => t.ninst))).wb (tstat n x) 31 false
      else d

/-- The DELTA limit: SYNC with REASON 0 (R463). -/
def deltaSync (d : Dev) (n x : Nat) : Dev :=
  if d.traceActive n x && !(d.fb (tstat n x) 30) then
    let ni := d.getSrc n x 0 (fun t => t.ninst)
    (d.src n x (fun t => { t with delta := 16383 })).emitTime n x 7 0 false ni
  else d

/-- WFI gates the core's clock: SLEEP, and counting stops (R464). -/
def traceSleep (d : Dev) (n x : Nat) : Dev :=
  let d := d.when (d.traceActive n x) (fun d => d.emitTime n x 5 0 false (d.getSrc n x 0 (fun t => t.ninst)))
  d.wb (tstat n x) 30 true

/-- The core's clock runs again: WAKE (R464). -/
def traceWake (d : Dev) (n x : Nat) : Dev :=
  let d := d.wb (tstat n x) 30 false
  d.when (d.traceActive n x) (fun d => d.emitTime n x 6 0 true 0)

/-- A TCTL write (R467, R476): while EN is 1 only a write that clears EN is taken. -/
def tctlWrite (d : Dev) (n x v : Nat) : Dev :=
  let l := tctl n x
  let v := v &&& 0xF8000000
  if d.fb l 31 && v.testBit 31 then d.wb (tstat n x) 5 true
  else if d.fb l 31 then (d.wr l v).wb (tstat n x) 31 false
  else
    let d := d.wr l v
    if v.testBit 31 && !(d.hasStart n x) then d.traceStart n x else d

/-- Records the buffer holds: 16,384, or 8,192 in the hub (R471). -/
def trcSize (n : Nat) : Nat := if n = 8 then 8192 else 16384

/-- What a record of the buffer reads as when it is not listed (R472, R474). -/
def trcUnlisted (n : Nat) (t : TraceBuf) (i : Nat) : BitVec 128 := if t.zeroed then 0 else Config.undefTrace n t.epoch i

/-- Record i of the buffer. -/
def trcRead (d : Dev) (n i : Nat) : Nat := d.getTrc n 0 (fun t => (Sparse.get (trcUnlisted n t) t.buf i).toNat)

/-- One record enters the buffer at WPTR (R471): in stop mode with FULL it is discarded and counted. -/
def trcStore (d : Dev) (n x : Nat) (r : BitVec 128) : Dev :=
  let st := bstat n
  if d.fb st 31 then
    if x = 9 then d.bump (Reg.STRC.DLOST.of n) else d.bump (tlost n x)
  else
    let w := d.fd st 13 0
    let d := d.trc n (fun t => { t with buf := Sparse.set (trcUnlisted n t) t.buf w r })
    if w + 1 < trcSize n then d.wf st 13 0 (w + 1)
    else if d.fb (bctl n) 30 then (d.wb st 31 true).trcNotice n 0x0B10 []
    else
      let wr := trcLoc n Reg.STRC.WRAPS Reg.HTRC.WRAPS []
      (d.wf st 13 0 0).wr wr ((d.rd wr + 1) % 2 ^ 32)

/-- The sources of a trace in round-robin order from the one after that taken last. -/
def trcOrder (n nextSrc : Nat) : List Nat :=
  if n = 8 then [0] else (List.range 10).map (fun i => (nextSrc + i) % 10)

/-- The buffer takes one record, round-robin by source; a source that lost records writes LOSS as soon as it has room (R469, R470). -/
def trcAccept (d : Dev) (n : Nat) : Dev :=
  match (trcOrder n (d.getTrc n 0 (fun t => t.next))).find? (fun x => d.getSrc n x false (fun t => !t.fifo.isEmpty)) with
  | none => d
  | some x =>
    let r := d.getSrc n x 0 (fun t => (t.fifo.head?).getD 0)
    let d := ((d.src n x (fun t => { t with fifo := t.fifo.drop 1 })).trc n (fun t => { t with next := (x + 1) % 10 })).trcStore n x r
    let k := d.getSrc n x 0 (fun t => t.lost)
    let d := d.when (k != 0) (fun d => (d.src n x (fun t => { t with lost := 0 })).emitTime n x 9 0 true k)
    d.showLevel n x

/-- BCTL.CLR, accepted while EN is 0 (R472). -/
def bctlClr (d : Dev) (n : Nat) : Dev := if d.fb (bctl n) 31 then d else d.wb (bstat n) 30 true

/-- The clear is complete: every record zero, WPTR, WRAPS and FULL clear (R472). -/
def trcCleared (d : Dev) (n : Nat) : Dev :=
  if d.fb (bstat n) 30 then
    ((d.trc n (fun t => { t with buf := [], zeroed := true })).wr (bstat n) 0).wr (trcLoc n Reg.STRC.WRAPS Reg.HTRC.WRAPS []) 0
  else d

/-- A BCTL write: EN, and MODE while EN is 0 (R472, R475). Setting EN starts the TRACE_LOSS count anew. -/
def bctlWrite (d : Dev) (n v : Nat) : Dev :=
  let l := bctl n
  let was := d.fb l 31
  let d := d.when (!was) (fun d => d.wb l 30 (v.testBit 30))
  let d := d.wb l 31 (v.testBit 31)
  let d := d.when (!was && v.testBit 31) (fun d => d.trc n (fun t => { t with sentT := none, unsent := 0 }))
  if v.testBit 29 && !was then d.bctlClr n else d

end Dev

end Sys2Proof.Machine
end

