-- ==== Sys2Proof/Machine/Power.lean ====
section
/-! DEFINITION. Power, clocks and reset (R498 to R513): section power and soft reset, brownout episodes, thermal control, device resets. -/

namespace Sys2Proof.Machine

/-- Power states of a section (R511). -/
abbrev pwOFF : Nat := 0
abbrev pwUP : Nat := 1
abbrev pwON : Nat := 2
abbrev pwDOWN : Nat := 3

/-- Bits of PWR.RSTCAUSE (R511). -/
abbrev rsPOR : Nat := 0
abbrev rsSYS : Nat := 1
abbrev rsCORESUP : Nat := 2
abbrev rsOTHERSUP : Nat := 3
abbrev rsTHERMAL : Nat := 4
abbrev rsCLOCK : Nat := 5

/-- A section that loses its supplies: everything at its start but the contents of its stack, tables and trace undefined anew. -/
def Sec.off (s : Sec) : Sec :=
  let e := s.fab.code.epoch + 1
  { Sec.start with
    fab := Fabric.start e
    trc := TraceBuf.start e
    mem := { SecMem.start with hbm := s.mem.hbm, hbmTag := s.mem.hbmTag } }

namespace Dev

def powg (d : Dev) (f : PowSt → PowSt) : Dev := { d with pow := f d.pow }

/-! ### Section power and soft reset (R506 to R508) -/

def sectCtl (n : Nat) : Loc := Reg.PWR.SECT.CTL.hubAt [n]
def sectStat (n : Nat) : Loc := Reg.PWR.SECT.STAT.hubAt [n]

/-- Whether a transition or a soft reset of section n is in progress. -/
def sectBusy (d : Dev) (n : Nat) : Bool := d.fb (sectStat n) 31

/-- The registers of section n at their reset values; region 0 of the section controller and of the host data path covers everything
(R207). What satisfies `keep` stays. -/
def sectionRegs (d : Dev) (n : Nat) (keep : Nat → Bool) : Dev :=
  (d.resetRegs n (fun o => !(keep o))).each [21, 22] (fun m d =>
    ((d.wr (Reg.SPAD.REG.CTL.of n [m, 0]) 0x80000003).wr (Reg.SPAD.REG.BASE.of n [m, 0]) 0).wr (Reg.SPAD.REG.LIMIT.of n [m, 0]) 0xFFFFFFFF)

/-- Registers that a soft reset leaves: bank power, the live channel state of HBMC.STAT, whose REJ it clears, and BSTAT.WPTR and WRAPS (R211, R474,
R550). -/
def softKeeps (o : Nat) : Bool :=
  [Reg.SPAD.BANKPWR.base, Reg.SPAD.BANKSTAT.base, Reg.HBMC.STAT.base, Reg.STRC.BSTAT.base, Reg.STRC.WRAPS.base].contains o

/-- What both a soft reset and a power-down do first: the section leaves its run group, its loads and image end, its cells park and its DMA
stops (R122, R135, R437, R506, R522). -/
def sectionStops (d : Dev) (n : Nat) : Dev :=
  let d := (((d.leaveGroup [n] n).loadLost n).clearCells n).dropPulse n
  { d.dmaWithdrawAll n with images := Sparse.drop n d.images }

/-- A section soft reset begins; its effects stand at once, and its registers answer again when it completes (R133, R221, R239, R264, R306,
R451, R474, R508). -/
def softBegin (d : Dev) (n : Nat) : Dev :=
  let d := d.sectionStops n
  let d := d.each (List.range 9) (fun x d => d.traceCoreReset n x)
  let d := d.each (List.range 170) (fun _ d => d.trcAccept n)
  let w := d.fd (Reg.STRC.BSTAT.of n) 13 0
  let d := (((d.sectionRegs n softKeeps).wr (Reg.STRC.BSTAT.of n) w).wb (Reg.HBMC.STAT.of n) 8 false).stateOnly n stPARKED
  let d := d.sec n (fun s => { s with
    fab := { s.fab with
      store := []
      codeLo := none
      codeMid := none
      clkNext := []
      xfers := []
      rets := []
      row := none
      rowDone := []
      rowErr := []
      clearDue := none
      issued := []
      pinsDone := []
      pinMap := []
      ran := 0 }
    mem := { s.mem with
      acc := []
      urgent := [] }
    queues := s.queues.map (fun q => { Queue.start with
      retired := q.retired
      prodOpen := q.prodOpen
      prodCrc := q.prodCrc
      bad := q.prodOpen })
    eng := []
    calls := CallUnit.start
    cores := s.cores.map (fun c => { Core.start 0 with mem := c.mem })
    ctl := { Core.start 0 with mem := s.ctl.mem }
    trc := { s.trc with
      srcs := Vector.replicate 10 TraceSrc.start
      next := 0
      unsent := 0
      sentT := none }
    noc := Noc.start
    cap := CapSt.idle })
  ((d.runRest n).wb (sectStat n) 31 true).powg (fun p => { p with soft := p.soft ||| BitVec.ofNat 8 (2 ^ n) })

/-- The lanes of section n leave service with cause POWER, those of quads with KEEP apart: a bundle that also has lanes of such a quad goes down,
and those train again (R340, R364). -/
def lanesOff (d : Dev) (n : Nat) : Dev :=
  let ls := ((List.range 32).map (fun i => 32 * n + i)).filter (fun l => !(d.fb (qctl l) 31) && d.laneState l != lnDISABLED)
  d.each ls (fun l d =>
    (d.when (d.laneState l != lnDISABLED) (fun d => d.bundleDownOff l 6 ls.contains ls.contains)).wf (laneLoc Reg.LANE.STAT l) 27 24 6)

/-- A power-down begins: ingress fenced, everything of the section ended, its registers out of reach (R452, R506). -/
def powerDown (d : Dev) (n : Nat) : Dev :=
  let d := (d.sectionStops n).lanesOff n
  let d := ((d.sectionRegs n (fun _ => false)).banksOff n).stateOnly n stOFF
  let d := (d.sec n Sec.off).wb (Reg.SNOC.FSTAT.of n) 16 true
  (d.wf (sectStat n) 30 29 pwDOWN).wb (sectStat n) 31 true

/-- A power-up begins (R506). -/
def powerUp (d : Dev) (n : Nat) : Dev := (d.wf (sectStat n) 30 29 pwUP).wb (sectStat n) 31 true

/-- The power target of section n takes effect while nothing is in progress (R506, R507). -/
def sectAct (d : Dev) (n : Nat) : Dev :=
  let on := d.fb (sectCtl n) 0
  if d.sectBusy n then d
  else if on && d.pstate n == pwOFF then d.powerUp n
  else if !on && d.pstate n == pwON then d.powerDown n
  else d

/-- SRST = 1 (R508): ignored while OFF, held during a power-up, discarded during a power-down, ignored during a soft reset. -/
def sectReset (d : Dev) (n : Nat) : Dev :=
  if d.sectBusy n then
    d.when (d.pstate n == pwUP) (fun d => d.powg (fun p => { p with softHeld := p.softHeld ||| BitVec.ofNat 8 (2 ^ n) }))
  else d.when (d.pstate n == pwON) (fun d => d.softBegin n)

/-- A write of PWR.SECT[n].CTL: ON, then SRST (R506, R508). -/
def sectCtlWrite (d : Dev) (n v : Nat) : Dev :=
  ((d.wb (sectCtl n) 0 (v.testBit 0)).sectAct n).when (v.testBit 1) (fun d => d.sectReset n)

/-- The stack of section n, four sections to a stack, loses its contents when all four are OFF (R214). -/
def stackOff (d : Dev) (n : Nat) : Dev :=
  let ms := (List.range 4).map (fun i => n / 4 * 4 + i)
  if ms.all (fun m => d.pstate m == pwOFF) then
    d.each ms (fun m d => d.mem m (fun x => { x with hbm := [], hbmTag := [] }))
  else d

/-- Section firmware bytes from the boot record, as a controller's SRAM (R271). -/
def ramOf (base : Nat) (bs : List Nat) : Sparse (BitVec 8) :=
  bs.zipIdx.foldl (fun m p => Sparse.set (fun _ => 0) m (base + p.2) (BitVec.ofNat 8 p.1)) []

/-- POWER_TRANSITION_DONE (R506 to R508): ON with the section PARKED, its controller released and its lanes trained, or OFF. A soft
reset that was held follows, and a target written meanwhile is taken. -/
def powerDone (d : Dev) (n : Nat) : Dev :=
  let p := d.pstate n
  if !(d.sectBusy n) || d.held then d
  else if p = pwUP then
    let fw := match d.boot.booted with | some r => r.secfwCode | none => []
    let d := ((d.sectionRegs n (fun _ => false)).banksOff n).stateOnly n stPARKED
    let d := (d.sec n (fun s => { s with ctl := { Core.start 0 with mem := ramOf 0 fw } })).wf (Reg.HBMC.STAT.of n) 3 0 0xF
    let d := d.showHot n
    let d := ((d.wf (sectStat n) 30 29 pwON).wb (sectStat n) 31 false).notice n 0x0804 [n, pwON]
    let d := d.when (d.bootStage == 5) (fun d =>
      d.each (List.range 32) (fun i d => d.when (d.laneAuto (32 * n + i) && d.laneState (32 * n + i) == lnDISABLED) (fun d => d.laneTrain (32 * n + i))))
    let again := (d.pow.softHeld).getLsbD n
    let d := d.powg (fun x => { x with softHeld := x.softHeld &&& ~~~(BitVec.ofNat 8 (2 ^ n)) })
    (d.when again (fun d => d.softBegin n)).sectAct n
  else if p = pwDOWN then
    let d := ((d.wf (sectStat n) 30 29 pwOFF).wb (sectStat n) 31 false).stackOff n
    (d.notice n 0x0804 [n, pwOFF]).sectAct n
  else d

/-- SOFT_RESET_DONE (R508). -/
def softDone (d : Dev) (n : Nat) : Dev :=
  if !(d.sectBusy n && (d.pow.soft).getLsbD n) then d
  else
    let d := d.powg (fun x => { x with soft := x.soft &&& ~~~(BitVec.ofNat 8 (2 ^ n)) })
    (d.wb (sectStat n) 31 false).sectAct n

/-! ### Brownout episodes (R500 to R503, R131, R513) -/

def phase (d : Dev) (ph : BoPhase) : Dev :=
  d.powg (fun p => { p with episode := p.episode.map (fun e => (ph, e.2)) })

/-- Sections that are RUNNING. -/
def runningSecs (d : Dev) : List Nat := (List.range 8).filter (fun n => d.running n)

/-- The override to ÷2 is written in a cluster: CLKSTAT.THR at once, BUSY until the clock has switched (R131). -/
def thrWrite (d : Dev) (n c : Nat) (on : Bool) : Dev := (d.wb (clkstat n c) 6 on).wb (clkstat n c) 4 true

/-- VDD_CORE_WARNING: a confirmed fall below 0.665 V; `mv` is the lowest voltage of this sag. A crossing in step 4 leaves or puts the
clusters at ÷2 (R501, R513). -/
def vddWarning (d : Dev) (mv : Nat) : Dev :=
  if d.held || !(decide (630 < mv ∧ mv < 665)) then d
  else
    let d := ((d.wb Reg.PWR.MON.hubAt 0 true).wb Reg.PWR.MON.hubAt 2 false).powg (fun p => { p with recT := none })
    match d.pow.episode with
    | none => (d.wb Reg.PWR.MON.hubAt 1 true).powg (fun p => { p with episode := some (.reqHalf, d.clk), lowest := mv })
    | some (ph, _) =>
      let d := d.powg (fun p => { p with lowest := min p.lowest mv })
      match ph with
      | .reqFull => d.phase .half
      | .clearing =>
        (d.each d.runningSecs (fun n d => d.each (d.usedClusters n) (fun c d => d.thrWrite n c true))).phase .setting
      | _ => d

/-- BROWNOUT_ALL_HOLDING: every RUNNING section holds, and the hub sets or clears THR in their used clusters (R501). -/
def allHolding (d : Dev) : Dev :=
  if !(d.runningSecs.all (fun n => d.holding n)) then d
  else match d.pow.episode with
    | some (.reqHalf, _) =>
      (d.each d.runningSecs (fun n d => d.each (d.usedClusters n) (fun c d => d.thrWrite n c true))).phase .setting
    | some (.reqFull, _) =>
      (d.each d.runningSecs (fun n d =>
        d.each ((d.usedClusters n).filter (fun c => d.fb (clkstat n c) 6)) (fun c d => d.thrWrite n c false))).phase .clearing
    | _ => d

/-- THR_SWITCH_DONE: every such cluster shows its new divider; the request is withdrawn, and the return to ÷1 ends the episode (R131,
R501). -/
def thrDone (d : Dev) : Dev :=
  let show_ := fun (d : Dev) => d.each d.runningSecs (fun n d =>
    d.each (d.usedClusters n) (fun c d => (d.wb (clkstat n c) 4 false).showClock n c))
  match d.pow.episode with
  | some (.setting, _) => (show_ d).phase .half
  | some (.clearing, t) =>
    let ns := min (d.clk - t) (2 ^ 32 - 1)
    let low := d.pow.lowest
    let d := ((show_ d).bump Reg.PWR.BOCNT.hubAt).wr Reg.PWR.BOLAST.hubAt ns
    ((d.wb Reg.PWR.MON.hubAt 1 false).powg (fun p => { p with episode := none, recT := none })).hubNotice 0x0801 [ns, low]
  | _ => d

/-- VDD_CORE_RECOVERY_RISE: a confirmed rise above 0.675 V (R501). -/
def vddRise (d : Dev) : Dev :=
  let d := d.wb Reg.PWR.MON.hubAt 0 false
  match d.pow.episode with
  | some (ph, _) =>
    if d.held || d.pow.recT.isSome || ph = .reqFull || ph = .clearing then d
    else (d.wb Reg.PWR.MON.hubAt 2 true).powg (fun p => { p with recT := some d.clk })
  | none => d

/-- VDD_CORE_RECOVERY_FALL: a confirmed fall below 0.675 V stops and clears the recovery timer (R501). -/
def vddFall (d : Dev) (mv : Nat) : Dev :=
  if d.held || !(decide (630 < mv ∧ mv < 675)) then d
  else (d.wb Reg.PWR.MON.hubAt 2 false).powg (fun p => { p with
    recT := none
    lowest := if p.episode.isSome then min p.lowest mv else p.lowest })

/-- RECOVERY_TIMER_EXPIRE: 20 µs since the rise, which was confirmed 50 ns after it; the hub requests the return to ÷1 (R501). -/
def recoveryExpire (d : Dev) : Dev :=
  match d.pow.episode, d.pow.recT with
  | some (.half, _), some t =>
    if d.clk < t + 19950 then d
    else ((d.wb Reg.PWR.MON.hubAt 2 false).powg (fun p => { p with recT := none })).phase .reqFull
  | _, _ => d

/-! ### Resets of the device (R500, R503, R505, R509, R510) -/

/-- OTP fuses after a programming that was cut: each is blown or not, as nothing tells (R490). `k` numbers the free value. -/
def otpCut (o : OtpSt) (op : Option (Bool × Nat × Nat)) (buf : List Nat) (k : Nat) : OtpSt :=
  let f := (Config.freeFuse k).toNat
  match op with
  | none => o
  | some (true, _, _) => { o with lock := o.lock || f.testBit 0 }
  | some (false, alg, slot) =>
    let cut := fun (s : KeySlot) => { s with
      fuses := s.fuses ||| (BitVec.ofNat 384 (ofBytes buf) &&& BitVec.ofNat 384 f)
      prog := s.prog || f.testBit 384 }
    if alg = 0 then { o with keysR := vmod o.keysR slot cut } else { o with keysS := vmod o.keysS slot cut }

/-- Flash after a program or erase that was cut: the bytes it was to change hold free values (R497). -/
def flashCut (fl : Sparse (BitVec 8)) (op : Option (Nat × Nat)) (k : Nat) : Sparse (BitVec 8) :=
  match op with
  | some (o, a) =>
    if o = 1 then fl
    else (List.range (if o = 2 then 256 else 65536)).foldl (fun m i =>
      Sparse.set (fun _ => 255) m (a + i) (BitVec.ofNat 8 (Config.freeValue (k + i)).toNat)) fl
  | none => fl

/-- Registers that no device reset clears: supplies and temperatures as measured (R504, R520); and, but for PORST_N, RSTCAUSE and the
HTRC block (R474, R510). -/
def resetKeeps (por : Bool) (o : Nat) : Bool :=
  decide (Reg.PWR.TEMP.base ≤ o ∧ o < Reg.PWR.TEMP.base + 0x24) || decide (Reg.DIO.BANK.base ≤ o ∧ o < Reg.DIO.BANK.base + 0x10) ||
  (!por && (o == Reg.PWR.RSTCAUSE.base || decide (0x800000 ≤ o ∧ o < 0x900000)))

/-- The bytes of FLBUF. -/
def flbuf (d : Dev) : List Nat := ((List.range 64).map (fun i => toBytes 4 (d.rd (Reg.BOOT.FLBUF.hubAt [i])))).flatten

/-- A reset of the whole device with a cause (R510, R513): every register and all state at its start, what a reset keeps apart. The supplies,
balls, fuses, flash and host memory around the device are as they were. -/
def resetDev (d : Dev) (por : Bool) (cause : Nat) : Dev :=
  let d := d.when (!por) (fun d =>
    let d := d.traceCoreReset 8 0
    (d.wb Reg.HTRC.BCTL.hubAt 31 false).wb Reg.HTRC.TCTL.hubAt 31 false)
  let d := d.when (!por) (fun d => d.wb Reg.PWR.RSTCAUSE.hubAt cause true)
  let d := d.resetRegs 8 (fun o => !(resetKeeps por o))
  let d := d.each (List.range 8) (fun n d => (d.resetRegs n (fun _ => true)).stateOnly n stOFF)
  let p := d.pins
  { d with
    rdata := []
    rstat := 0
    free := d.free + 65537
    time := ⟨0, 0, 0⟩
    secs := d.secs.map (fun s => let x := s.off; { x with mem := SecMem.start })
    host := Vector.replicate 9 HostFn.start
    lanes := []
    bundles := []
    sys := SysSt.start
    twin := TwinSt.start
    hdma := Vector.replicate 2 DmaCh.start
    htrc := if por then TraceBuf.start (d.htrc.epoch + 1) else d.htrc
    ctl := Core.start 0
    pins := { PinSt.idle with
      ext := p.ext
      trg := p.trg
      ins := p.ins
      shift := p.shift
      bsr := p.bsr
      tcks := p.tcks
      smbAddr := p.smbAddr }
    tim := TimeSt.start d.clk
    boot := BootSt.start (flashCut d.boot.flash d.boot.flOp (d.free + 1)) d.clk (!por)
    pow := { PowSt.start with
      holdSup := d.pow.holdSup
      holdClk := d.pow.holdClk
      holdHot := d.pow.holdHot }
    loads := []
    images := [] }

end Dev

/-- A reset of the device, its fuses left as a programming in progress leaves them. -/
def State.reset_ (s : State) (por : Bool) (cause : Nat) : State :=
  { s with
    otp := Dev.otpCut s.otp s.dev.boot.otpOp s.dev.flbuf s.dev.free
    dev := s.dev.resetDev por cause }

namespace Dev

/-- Which condition holds the device in reset: a supply, the clock, or its temperature. -/
def hold (d : Dev) (sup clk hot : Bool) : Dev :=
  d.powg (fun p => { p with holdSup := p.holdSup || sup, holdClk := p.holdClk || clk, holdHot := p.holdHot || hot })

/-- A condition that held the device in reset is over; boot starts from stage 0 when none is left (R500, R505, R509). -/
def unhold (d : Dev) (sup clk hot : Bool) : Dev :=
  let d := d.powg (fun p => { p with holdSup := p.holdSup && !sup, holdClk := p.holdClk && !clk, holdHot := p.holdHot && !hot })
  if d.held then d else { d with boot := { d.boot with releaseT := d.clk } }

/-! ### Thermal control (R504, R505) -/

/-- A sensor reading in quarters of a degree. -/
def tempOf (t : BitVec 10) : Int := sext 10 t.toNat

/-- THCTL.HI in quarters of a degree (R511). -/
def hotLimit (d : Dev) : Int := (4 * min 110 (d.fd Reg.PWR.THCTL.hubAt 7 0) : Nat)

/-- Throttling ends, with its duration in µs. -/
def throttleEnd (d : Dev) : Dev :=
  match d.pow.throtT with
  | none => d
  | some t =>
    let d := (d.wb Reg.PWR.THSTAT.hubAt 31 false).powg (fun p => { p with throtT := none, coolT := none, hotReq := false })
    d.hubNotice 0x0803 [(d.clk - t) / 1000]

/-- THERMAL_DUTY_TIMER: the request stands in the first DUTY µs of every 8 µs of throttling (R504). -/
def dutyTimer (d : Dev) : Dev :=
  match d.pow.throtT with
  | none => d
  | some t => d.powg (fun p => { p with hotReq := decide ((d.clk - t) % 8000 < 1000 * d.fd Reg.PWR.THCTL.hubAt 18 16) })

/-- The sensor with the highest reading, the lowest of several. -/
def hottest (ts : List Int) : Nat :=
  (ts.zipIdx.foldl (fun (a : Nat × Int) p => if a.2 < p.1 then (p.2, p.1) else a) (0, ts.getD 0 0)).1

/-- The sensors are read, below the shutdown level (R504). -/
def tempRead (d : Dev) (t : Vector (BitVec 10) 9) : Dev :=
  let ts := t.toList.map tempOf
  let d := d.each (List.range 9) (fun k d => d.wr (Reg.PWR.TEMP.hubAt [k]) (t.toList.getD k 0).toNat)
  if d.held then d.when (ts.all (fun x => decide (x < 380))) (fun d => if d.pow.holdHot then d.unhold false false true else d)
  else
    let h := hottest ts
    let d := d.wf Reg.PWR.THSTAT.hubAt 3 0 h
    let cool := d.hotLimit - (4 * d.fd Reg.PWR.THCTL.hubAt 15 8 : Nat)
    match d.pow.throtT with
    | none =>
      if d.fb Reg.PWR.THCTL.hubAt 31 && ts.any (fun x => decide (d.hotLimit ≤ x)) then
        let d := (d.wb Reg.PWR.THSTAT.hubAt 31 true).powg (fun p => { p with throtT := some d.clk, coolT := none })
        d.dutyTimer.hubNotice 0x0802 [h, (t.toList.getD h 0).toNat]
      else d
    | some _ =>
      if ts.all (fun x => decide (x < cool)) then
        let c := d.pow.coolT.getD d.clk
        if c + 1000000 ≤ d.clk then d.throttleEnd else d.powg (fun p => { p with coolT := some c })
      else d.powg (fun p => { p with coolT := none })

/-- A write of THCTL; EN = 0 ends throttling (R504). -/
def thctlWrite (d : Dev) (v : Nat) : Dev :=
  let d := d.wr Reg.PWR.THCTL.hubAt (v &&& 0x8007FFFF)
  if v.testBit 31 then d.dutyTimer else d.throttleEnd

end Dev

/-- TEMP_SENSOR_READ: 115 °C or above in any sensor shuts the device down (R505). -/
def State.tempSensors (s : State) (t : Vector (BitVec 10) 9) : State :=
  let s' := { s with dev := s.dev.tempRead t }
  if t.toList.any (fun x => decide (460 ≤ Dev.tempOf x)) then
    if s.dev.held then { s' with dev := s'.dev.hold false false true }
    else
      let r := s'.reset_ false rsTHERMAL
      { r with dev := r.dev.hold false false true }
  else s'

/-- SUPPLY_RESET_LEVEL: VDD_CORE, or another monitored supply, has reached its reset level (R500, R503). -/
def State.supplyReset (s : State) (core : Bool) : State :=
  let r := s.reset_ false (if core then rsCORESUP else rsOTHERSUP)
  { r with dev := r.dev.hold true false false }

/-- REFCLK_LOSS and CORE_PLL_UNLOCK (R509). -/
def State.clockReset (s : State) : State :=
  let r := s.reset_ false rsCLOCK
  { r with dev := r.dev.hold false true false }

end Sys2Proof.Machine
end

