-- ==== Sys2Proof/Machine/Boot.lean ====
section
/-! DEFINITION. Boot, flash, fuses and rollback (R478 to R492, R497). -/

namespace Sys2Proof.Machine

/-- Causes of BOOT.STAT.CAUSEA and CAUSEB. -/
abbrev bcNOFLASH : Nat := 1
abbrev bcMAGIC : Nat := 2
abbrev bcVERSION : Nat := 3
abbrev bcFORMAT : Nat := 4
abbrev bcDIGEST : Nat := 5
abbrev bcKEY : Nat := 6
abbrev bcSIG_RSA : Nat := 7
abbrev bcSIG_SLH : Nat := 8
abbrev bcROLLBACK : Nat := 9
abbrev bcNOKEY : Nat := 10
abbrev bcOTP : Nat := 11

/-- Offsets of the two copies (R479). -/
abbrev copyA : Nat := 0
abbrev copyB : Nat := 0x04000000

/-- An entry of the boot record's table (R480). -/
structure HvEntry where
  typ : Nat
  flags : Nat
  off : Nat
  len : Nat
  rsv : Nat
deriving DecidableEq, Repr

namespace Hvbr

def rsize (b : List Nat) : Nat := leAt b 0xC 4
def secver (b : List Nat) : Nat := leAt b 0x10 4
def nent (b : List Nat) : Nat := leAt b 0x14 4
def sigoff (b : List Nat) : Nat := leAt b 0x18 4

/-- The entries of the table. -/
def entries (b : List Nat) : List HvEntry :=
  (List.range (nent b)).map (fun i =>
    let o := 0x100 + 16 * i
    ⟨leAt b o 2, leAt b (o + 2) 2, leAt b (o + 4) 4, leAt b (o + 8) 4, leAt b (o + 12) 4⟩)

/-- Whether an entry of a known type has a length R481 allows. -/
def lengthOk (e : HvEntry) : Bool :=
  if e.typ = 1 then decide (e.len ≤ 0x100000)
  else if e.typ = 2 then decide (e.len ≤ 0x40000)
  else if e.typ = 3 then e.len == 5120
  else if e.typ = 4 then e.len == 256
  else if e.typ = 5 then e.len == 96
  else if e.typ = 6 then e.len == 400
  else e.typ != 7 || e.len == 88

/-- Whether an entry breaks R480 or R481. -/
def entryBad (b : List Nat) (l : List HvEntry) (i : Nat) (e : HvEntry) : Bool :=
  e.off % 64 != 0 || decide (e.off < 0x100 + 16 * nent b) || decide (sigoff b < e.off + e.len) || e.rsv != 0 || e.flags % 2 ^ 15 != 0 ||
  !(lengthOk e) || (!(decide (1 ≤ e.typ ∧ e.typ ≤ 7)) && e.flags.testBit 15) ||
  l.zipIdx.any (fun p => decide (p.2 < i ∧ p.1.off < e.off + e.len ∧ e.off < p.1.off + p.1.len))

/-- Whether the reserved bytes of the SYSCFG, POLICY and AUTOSTART entries are 0 (R480, R482, R483, R493). -/
def reservedZero (b : List Nat) (l : List HvEntry) : Bool :=
  l.all (fun e =>
    let zero := fun (off k : Nat) => (span b (e.off + off) k).all (· == 0)
    if e.typ = 4 then zero 3 1 && zero 0x70 144 && [0, 1].all (fun p => leAt b (e.off + 0x28 + 0x30 * p) 4 / 2 ^ 19 == 0)
    else if e.typ = 6 then zero 2 2 && zero 8 8
    else if e.typ = 7 then zero 9 3 else true)

/-- Check 3 of R486. -/
def formatBad (b : List Nat) : Bool :=
  let zero := fun off k => (span b off k).any (· != 0)
  let l := entries b
  let count := fun t => (l.filter (fun e => e.typ == t)).length
  leAt b 8 4 != 256 || decide (0x04000000 < rsize b) || !(decide (6 ≤ nent b ∧ nent b ≤ 32)) || sigoff b % 64 != 0 ||
  rsize b != sigoff b + Hvx.sbSize || leAt b 0x1C 4 / 2 != 0 || zero 0x21 159 || zero 0xF0 16 ||
  l.zipIdx.any (fun p => entryBad b l p.2 p.1) || (List.range 6).any (fun t => count (t + 1) != 1) || decide (1 < count 7) || !(reservedZero b l) ||
  span b (sigoff b) 4 != [0x48, 0x56, 0x53, 0x47] || leAt b (sigoff b + 4) 4 != Hvx.sbSize || zero (sigoff b + 0x223C) 4

/-- The bytes of the entry of a type, none where it is absent. -/
def entry (b : List Nat) (t : Nat) : List Nat :=
  match (entries b).find? (fun e => e.typ == t) with
  | some e => span b e.off e.len
  | none => []

/-- The slot of an algorithm that holds a key hash, programmed and not revoked (R486). -/
def slotOf (keys : Vector KeySlot 4) (rev : BitVec 4) (h : List Nat) : Option Nat :=
  (List.range 4).find? (fun k =>
    match keys.toList[k]? with
    | some s => s.prog && !(rev.getLsbD k) && toBytes 48 s.fuses.toNat == h
    | none => false)

/-- The checks of R486 on a copy, in order: its cause, or the slots that verify it. -/
def verify (b : List Nat) (o : OtpSt) : Nat ⊕ (Nat × Nat) :=
  let s := sigoff b
  let rsa := span b (s + 0x68) 388
  let slh := span b (s + 0x1EC) 32
  let hr := Config.sha384 rsa
  let hs := Config.sha384 slh
  let dig := span b 0xC0 48
  if span b 0 4 != [0x48, 0x56, 0x42, 0x52] then .inl bcMAGIC
  else if leAt b 4 2 ≠ 1 then .inl bcVERSION
  else if formatBad b then .inl bcFORMAT
  else if Config.sha384 (span b 0 0xC0 ++ span b 0x100 (s - 0x100)) != dig then .inl bcDIGEST
  else if span b (s + 8) 48 != hr then .inl bcKEY
  else match slotOf o.keysR o.revR hr with
  | none => .inl bcKEY
  | some r =>
    if span b (s + 0x38) 48 != hs then .inl bcKEY
    else match slotOf o.keysS o.revS hs with
    | none => .inl bcKEY
    | some t =>
      if !(Config.sigVerifies 0 rsa dig (span b (s + 0x20C) 384)) then .inl bcSIG_RSA
      else if !(Config.sigVerifies 1 slh dig (span b (s + 0x38C) 7856)) then .inl bcSIG_SLH
      else if secver b < o.count then .inl bcROLLBACK
      else .inr (r, t)

/-- What a verified copy leaves in use. -/
def record (b : List Nat) (r t : Nat) : BootRec :=
  let e := entry b
  { digest := span b 0xC0 48
    devfw := Config.sha384 (e 1)
    secfw := Config.sha384 (e 2)
    devfwCode := e 1
    secfwCode := e 2
    cfg := Config.sha384 (e 4 ++ e 3 ++ e 5 ++ e 6 ++ e 7)
    secver := secver b
    advance := (leAt b 0x1C 4).testBit 0
    revoke := leAt b 0x20 1
    slotR := r
    slotS := t
    syscfg := e 4
    tuning := e 3
    park := e 5
    policy := e 6
    auto := e 7 }

end Hvbr

namespace Dev

def bootg (d : Dev) (f : BootSt → BootSt) : Dev := { d with boot := f d.boot }

def bootStat : Loc := Reg.BOOT.STAT.hubAt

/-- OTPSTAT and OTPSLOT as the fuses stand (R484, R489). -/
def showOtp (d : Dev) (o : OtpSt) : Dev :=
  let progs := fun (v : Vector KeySlot 4) => ofOnes ((List.range 4).filter (fun k => match v.toList[k]? with | some s => s.prog | none => false))
  let st := Reg.BOOT.OTPSTAT.hubAt
  let d := d.wf st 23 0 (o.count * 2 ^ 16 + o.irevS.toNat * 2 ^ 12 + o.irevR.toNat * 2 ^ 8 + o.revS.toNat * 2 ^ 4 + o.revR.toNat)
  d.wr Reg.BOOT.OTPSLOT.hubAt (b2n o.lock * 2 ^ 8 + progs o.keysS * 2 ^ 4 + progs o.keysR)

/-- µs from reset release to READY or SAFE. -/
def bootTime (d : Dev) : Dev := d.wr Reg.BOOT.BOOTUS.hubAt ((d.clk - d.boot.releaseT) / 1000)

/-- SAFE with the causes of the two copies (R487, R491). -/
def enterSafe (d : Dev) (a b : Nat) : Dev := (((d.wf bootStat 31 28 0xF).wf bootStat 15 8 a).wf bootStat 23 16 b).bootTime

/-- A copy of the boot record as the flash holds it (R479, R480). -/
def copyBytes (d : Dev) (at_ : Nat) : List Nat :=
  let h := d.flashRead at_ 0x100
  d.flashRead at_ (max 0x100 (min (Hvbr.rsize h) 0x04000000))

/-- Stage 2: copy A, and copy B only when A fails (R486, R487). -/
def verifyStage (d : Dev) (o : OtpSt) : Dev :=
  let none_ := o.keysR.toList.all (fun s => !s.prog) && o.keysS.toList.all (fun s => !s.prog)
  let boot := fun (d : Dev) (b : List Nat) (r t : Nat) =>
    ((d.bootg (fun x => { x with booted := some (Hvbr.record b r t) })).wr Reg.BOOT.SECVER.hubAt (Hvbr.secver b)).wf bootStat 31 28 3
  if none_ then d.enterSafe bcNOKEY 0
  else
    let a := d.copyBytes copyA
    match Hvbr.verify a o with
    | .inr (r, t) => boot d a r t
    | .inl ca =>
      let b := d.copyBytes copyB
      match Hvbr.verify b o with
      | .inr (r, t) =>
        boot (((d.wf bootStat 15 8 ca).wb bootStat 27 true).bootg (fun x => { x with backupDue := true })) b r t
      | .inl cb => d.enterSafe ca cb

/-- The HVBR fields of one lane (R341, R481). -/
def loadLane (d : Dev) (tune : List Nat) (l : Nat) : Dev :=
  let w := leAt tune (4096 + 4 * l) 4
  let w0 := leAt tune (4096 + 16 * (l / 4)) 4
  let rate := bits w0 8 8
  let e := 8 * (2 * l + rate)
  let ctl := laneLoc Reg.LANE.CTL l
  let d := ((d.wf ctl 22 22 w).wf ctl 26 25 (w / 2)).wf ctl 24 23 (w / 8)
  let d := d.when (l % 4 == 0) (fun d => ((d.wf (qctl l) 31 31 (w / 2 ^ 9)).wf (qctl l) 0 0 rate).wb (qctl l) 1 true)
  let mask := fun (r : Row) => r.mask false (fun t => t == .rw)
  (d.wr (laneLoc Reg.LANE.EQTX l) (leAt tune e 4 &&& mask Reg.LANE.EQTX)).wr (laneLoc Reg.LANE.EQRX l)
    (leAt tune (e + 4) 4 &&& mask Reg.LANE.EQRX)

/-- The HVBR fields of SYS, TWIN and ETH (R482). -/
def loadSyscfg (d : Dev) (c : List Nat) : Dev :=
  let d := d.wr Reg.SYS.CFG.hubAt (leAt c 0 1 % 4 * 2 ^ 30 + leAt c 1 1 % 128 * 2 ^ 16 + leAt c 2 1 % 128)
  let d := d.wr Reg.TWIN.CTL.hubAt (leAt c 4 4 &&& Reg.TWIN.CTL.mask false (fun t => t == .ro))
  d.each [0, 1] (fun p d =>
    let o := 0x10 + 0x30 * p
    let d := d.wr (Reg.ETH.CTL.hubAt [p]) (leAt c o 4 &&& 0x80000003)
    let d := d.wr64 Reg.ETH.MAC 8 [p] (leAt c (o + 4) 8 % 2 ^ 48)
    ((d.wr (Reg.ETH.ILAT.hubAt [p]) (leAt c (o + 0xC) 4)).wr (Reg.ETH.ELAT.hubAt [p]) (leAt c (o + 0x10) 4)).wr
      (Reg.ETH.ASYM.hubAt [p]) (leAt c (o + 0x14) 4))

/-- Stage 3: firmware into SRAM, the device controller released, hub units loaded (R274, R481, R482, R488). -/
def loadStage (d : Dev) (r : BootRec) : Dev :=
  let d := { d with ctl := { Core.start 0x01000000 with mem := ramOf 0 r.devfwCode } }
  let d := (d.loadSyscfg r.syscfg).each (List.range 256) (fun l d => d.loadLane r.tuning l)
  d.each (List.range 96) (fun c d => d.wf (Reg.DIO.CELL.hubAt [c]) 11 10 (let v := r.park.getD c 0 % 256; if v < 3 then v else 0))

/-- BOOT_STAGE_COMPLETE: the work of the present stage is done (R478, R486 to R488). `outcome` says, for stage 0, 1 that the fuses fail
their check; for stage 1, 0 that SFDP cannot be read, 3 that it declares 8D-8D-8D, anything else that it does not. Stage 4 ends
when every section is ON. -/
def bootStep (d : Dev) (o : OtpSt) (outcome : Nat) : Dev :=
  if d.held then d
  else match d.bootStage with
  | 0 =>
    let d := (d.wr Reg.CLK.STAT.hubAt 6).fresh 16 (fun v d => d.wr Reg.CLK.REFPPM.hubAt v)
    let d := (d.wr64 Reg.BOOT.SERIAL 8 [] Config.serial.toNat).showOtp o
    if outcome = 1 then d.enterSafe bcOTP 0 else (d.wf bootStat 31 28 1).wf bootStat 25 24 1
  | 1 =>
    if outcome = 0 then (d.wf bootStat 25 24 0).enterSafe bcNOFLASH 0
    else (d.wf bootStat 31 28 2).wf bootStat 25 24 (if outcome = 3 then 3 else 2)
  | 2 => d.verifyStage o
  | 3 =>
    match d.boot.booted with
    | some r => ((d.loadStage r).wf bootStat 31 28 4).each (List.range 8) (fun n d => d.sectCtlWrite n 1)
    | none => d
  | 4 =>
    if !((List.range 8).all (fun n => d.sectionOn n)) then d
    else
      let d := ((d.wb Reg.CLK.STAT.hubAt 3 true).wf bootStat 31 28 5).bootTime
      let d := d.each (List.range 256) (fun l d => d.when (d.laneAuto l && d.laneState l == lnDISABLED) (fun d => d.laneTrain l))
      d.sysAdvance
  | _ => d

/-! ### Flash (R491, R492, R497) -/

/-- Whether the flash and fuse registers accept work (R492). -/
def bootUp (d : Dev) : Bool := d.bootStage == 5 || d.inSafe

/-- A write of BOOT.FLCMD: OP, ERR, and GO, which is refused before READY or SAFE, while BUSY, for another OP and at an address that is not
aligned (R492). -/
def flcmdWrite (d : Dev) (v : Nat) : Dev :=
  let l := Reg.BOOT.FLCMD.hubAt
  let op := v % 16
  let busy := d.fb l 30
  let a := d.rd Reg.BOOT.FLADDR.hubAt
  let d := d.when (v.testBit 29) (fun d => d.wb l 29 false)
  let d := d.wf l 3 0 op
  if !(v.testBit 31) then d
  else if !(d.bootUp) || busy || !(decide (1 ≤ op ∧ op ≤ 3)) || a % (if op = 3 then 65536 else 256) != 0 then d.wb l 29 true
  else (d.wb l 30 true).bootg (fun x => { x with flOp := some (op, a) })

/-- FLCMD_DONE: the operation completes, or fails with ERR, and what it was to change is then unknown (R492). Programming a byte that is not erased leaves a value that the manual does not
state. -/
def flDone (d : Dev) (fail : Bool) : Dev :=
  match d.boot.flOp with
  | none => d
  | some (op, a) =>
    let d := (d.wb Reg.BOOT.FLCMD.hubAt 30 false).bootg (fun x => { x with flOp := none })
    if fail then
      (({ d with free := d.free + 65536 }).wb Reg.BOOT.FLCMD.hubAt 29 true).bootg (fun x => { x with flash := flashCut x.flash (some (op, a)) d.free })
    else if op = 1 then d.each (List.range 64) (fun i d => d.wr (Reg.BOOT.FLBUF.hubAt [i]) (ofBytes (d.flashRead (a + 4 * i) 4)))
    else if op = 2 then
      let k := d.free
      let bs := d.flbuf
      let put := fun (m : Sparse (BitVec 8)) (p : Nat × Nat) =>
        let old := Sparse.get (fun _ => (255 : BitVec 8)) m (a + p.2)
        let new := if old = 255 then BitVec.ofNat 8 p.1 else BitVec.ofNat 8 (Config.freeValue (k + p.2)).toNat
        Sparse.set (fun _ => 255) m (a + p.2) new
      ({ d with free := d.free + 256 }).bootg (fun x => { x with flash := bs.zipIdx.foldl put x.flash })
    else d.bootg (fun x => { x with flash := Sparse.keep (fun k => !(decide (a ≤ k ∧ k < a + 65536))) x.flash })

/-! ### Fuses (R484, R485, R489, R490) -/

/-- A write of BOOT.OTPPROG: LOCK, ALG and SLOT, ERR, and GO, which is refused outside SAFE, once LOCK is blown, while BUSY, and for a slot that
is programmed (R485, R492). -/
def otpprogWrite (d : Dev) (o : OtpSt) (v : Nat) : Dev :=
  let l := Reg.BOOT.OTPPROG.hubAt
  let lock := v.testBit 8
  let alg := bits v 4 4
  let slot := bits v 1 0
  let busy := d.fb l 30
  let taken := match (if alg = 0 then o.keysR else o.keysS).toList[slot]? with | some s => s.prog | none => true
  let d := d.when (v.testBit 29) (fun d => d.wb l 29 false)
  let d := ((d.wf l 8 8 (v / 2 ^ 8)).wf l 4 4 alg).wf l 1 0 slot
  if !(v.testBit 31) then d
  else if !(d.inSafe) || o.lock || busy || (!lock && taken) then d.wb l 29 true
  else (d.wb l 30 true).bootg (fun x => { x with otpOp := some (lock, alg, slot) })

end Dev

/-- A slot with fuses blown and the programmed bit. -/
def KeySlot.program (s : KeySlot) (bs : List Nat) : KeySlot := { s with
  fuses := s.fuses ||| BitVec.ofNat 384 (ofBytes bs)
  prog := true }

/-- OTP_PROGRAM_DONE: the fuses are blown, or the check of the programming fails (R485, R496). -/
def State.otpDone (s : State) (fail : Bool) : State :=
  match s.dev.boot.otpOp with
  | none => s
  | some (lock, alg, slot) =>
    let l := Reg.BOOT.OTPPROG.hubAt
    let key := (s.dev.flbuf).take 48
    let d := (s.dev.wb l 30 false).bootg (fun x => { x with otpOp := none })
    if fail then
      let o := Dev.otpCut s.otp (some (lock, alg, slot)) s.dev.flbuf d.free
      let d := ({ d with free := d.free + 1 }).wb l 29 true
      { s with
        otp := o
        dev := (d.showOtp o).fresh 64 (fun v d => d.hubNotice 0x0A06 [v]) }
    else
      let o := if lock then { s.otp with lock := true }
        else if alg = 0 then { s.otp with keysR := vmod s.otp.keysR slot (fun k => k.program key) }
        else { s.otp with keysS := vmod s.otp.keysS slot (fun k => k.program key) }
      { s with
        otp := o
        dev := d.showOtp o }

/-- BOOT_ADVANCE: a write of BOOT.CMD by the device controller (R489). -/
def State.bootAdvance (s : State) : State :=
  match s.dev.boot.booted with
  | none => s
  | some r =>
    if s.dev.inSafe then s
    else
      let o := s.otp
      let count := if r.advance then max o.count (min r.secver 64) else o.count
      let blow := fun (old : BitVec 4) (mask keep : Nat) => old ||| BitVec.ofNat 4 (mask - (mask &&& keep))
      let rr := r.revoke % 16
      let rs := r.revoke / 16 % 16
      let irev := leAt r.policy 1 1
      let o' := { o with
        count := count
        revR := blow o.revR rr (2 ^ r.slotR)
        revS := blow o.revS rs (2 ^ r.slotS)
        irevR := blow o.irevR (irev % 16) 0
        irevS := blow o.irevS (irev / 16 % 16) 0 }
      let refused := rr.testBit r.slotR || rs.testBit r.slotS
      let news := fun (a b : BitVec 4) => (List.range 4).filter (fun k => b.getLsbD k && !(a.getLsbD k))
      let d := (s.dev.showOtp o').when refused (fun d => d.wb Reg.BOOT.OTPSTAT.hubAt 24 true)
      let d := d.when (o.count != count) (fun d => d.hubNotice 0x0A04 [count])
      let d := d.each (news o.revR o'.revR) (fun k d => d.hubNotice 0x0A05 [0, 0, k])
      let d := d.each (news o.revS o'.revS) (fun k d => d.hubNotice 0x0A05 [0, 1, k])
      let d := d.each (news o.irevR o'.irevR) (fun k d => d.hubNotice 0x0A05 [1, 0, k])
      let d := d.each (news o.irevS o'.irevS) (fun k d => d.hubNotice 0x0A05 [1, 1, k])
      { s with
        otp := o'
        dev := d }

end Sys2Proof.Machine
end

