-- ==== Sys2Proof/Machine/RegRead.lean ====
section
/-! DEFINITION. Register reads (R4 to R10, R536 to R541): the block an offset lies in, the value a register shows, the latches of
64-bit pairs and the fields that a read clears. -/

namespace Sys2Proof.Machine

/-- The rows of the section block at an offset, none where the space is unmapped (R537, R541). -/
def secRows (off : Nat) : Option (List Row) :=
  if 0x1000000 ≤ off then (if off < 0x2000000 then some rowsCLUS else if off < 0x4000000 then some rowsCODE else none)
  else match off / 0x10000 with
    | 0 => some rowsSCTL
    | 1 => some rowsSFLT
    | 2 => some rowsSNOC
    | 3 => some rowsSDMA
    | 4 => some rowsFERRY
    | 5 => some rowsSPAD
    | 6 => some rowsHBMC
    | 7 => some rowsCALL
    | 8 => some rowsCAPT
    | 9 => some rowsSTRC
    | 10 => some rowsLINKQ
    | _ => none

/-- The rows of the hub block at an offset, none where the space is unmapped (R536, R541). -/
def hubRows (off : Nat) : Option (List Row) :=
  if 0x100000 ≤ off then
    (if off < 0x500000 then some rowsLANE else if 0x800000 ≤ off ∧ off < 0x810000 then some rowsHTRC else none)
  else match off / 0x10000 with
    | 0 => some rowsDEV
    | 1 => some rowsPWR
    | 2 => some rowsCLK
    | 3 => some rowsBOOT
    | 4 => some (rowsTIME ++ rowsPG)
    | 5 => some rowsETH
    | 6 => some rowsETH
    | 8 => if off < 0x89000 then some rowsHQ else none
    | 9 => if off < 0x92000 then some rowsHDMA else none
    | 10 => some rowsTWIN
    | 11 => some rowsSYS
    | 12 => some rowsTRG
    | 13 => some rowsDIO
    | _ => none

/-- The rows of the block at an offset of a layout: sections 0 to 7, and 8 for PF0. -/
def rowsAt (lay off : Nat) : Option (List Row) := if lay = 8 then hubRows off else secRows off

/-- The layout and offset an access reaches: the HQ page of PF(n+1) shows at SCTL + 0xF000 too (R412). -/
def aliasOf (lay off : Nat) : Nat × Nat :=
  if lay < 8 ∧ 0xF000 ≤ off ∧ off < 0x10000 then (8, 0x80000 + (lay + 1) * 0x1000 + (off - 0xF000)) else (lay, off)

/-- Whether a find is of the given row. -/
def Found.is (f : Found) (r : Row) : Bool := f.row.base == r.base

/-- Index i of a find. -/
def Found.i (f : Found) (i : Nat) : Nat := f.ix.getD i 0

/-- Whether a find is a half of an export entry, whose halves have rows of their own (R110). -/
def Found.slot (f : Found) : Bool := f.is Reg.CLUS.GSLOTL || f.is Reg.CLUS.GSLOTH

/-- Whether a find is the high half of a pair. -/
def Found.high (f : Found) : Bool := f.hi || f.is Reg.CLUS.GSLOTH

/-- The high half of the pair whose low half is found. -/
def Found.other (f : Found) : Found :=
  if f.slot then ⟨Reg.CLUS.GSLOTH, f.ix, false⟩ else { f with hi := true }

/-- The key of the low half of a pair (R7). -/
def Found.pairKey (f : Found) (lay : Nat) : Nat := ((if f.slot then Reg.CLUS.GSLOTL else f.row).of lay f.ix).key

/-- The trace buffer window: word `off` of the window shows the page that PAGE selects (R473). -/
def traceWord (d : Dev) (n page off : Nat) : Nat := d.trcRead n (page * 2048 + off / 16) / 2 ^ (32 * (off / 4 % 4)) % 2 ^ 32

namespace Dev

/-- What a register of section n shows, 64 bits of a wide row, when it is not simply what it holds. Reserved bits of a table entry read 0 whatever the
entry holds (R10, R108, R110). -/
def secShows (d : Dev) (n : Nat) (f : Found) : Option Nat :=
  let i := f.i 0
  let b := f.row.base
  if b = Reg.FERRY.STAT.base then some (d.ferryStat n i)
  else if b = Reg.FERRY.LEVEL.base then
    some (if i = 63 then setBits (d.ferryLevel n i) 26 16 (d.mailboxFree n) else d.ferryLevel n i)
  else if b = Reg.FERRY.PKTS.base then some (d.ferryPkts n i)
  else if b = Reg.CALL.OCC.base then some (d.callOcc n i)
  else if b = Reg.CALL.RORD.base then some (d.callRord n)
  else if b = Reg.CALL.CRPOOL.base then some (d.callPool n i)
  else if b = Reg.CALL.CORESTAT.base then some (d.coreStat n i)
  else if b = Reg.SPAD.NHCNT.base then some (d.nhCount n)
  else if b = Reg.HBMC.OUTST.base then some (d.hbmOutst n)
  else if b = Reg.LINKQ.CRED.base then some (d.linkCred n (i + 16))
  else if b = Reg.CODE.STAT.base then some (d.codeStat n)
  else if b = Reg.CLUS.SLSTAT.base then some (d.slStat n i)
  else if b = Reg.CLUS.DSTORE.base then some (d.dstoreRead n i (f.i 1) (f.i 2))
  else if b = Reg.CLUS.CSLOT.base then some (d.cslot n i (f.i 1 / 128) (f.i 1 / 2 % 64) (f.i 1 % 2) &&& 0xFFFF01FF)
  else if b = Reg.CLUS.GSLOTL.base then some (d.gslot n i (f.i 1 / 16) (f.i 1 % 16) % 2 ^ 32)
  else if b = Reg.CLUS.GSLOTH.base then some (d.gslot n i (f.i 1 / 16) (f.i 1 % 16) / 2 ^ 32 &&& 0x800000FF)
  else if b = Reg.CLUS.WAIT.base then some (d.waitEnt n i (f.i 1 / 8) (f.i 1 % 8))
  else if b = Reg.SNOC.RTDATA.base then some (d.rtdataRead n)
  else none

/-- The 32 bits of the certificate window at word i (R494). -/
def certWord (i : Nat) : Nat := ofBytes ((List.range 4).map (fun k => (Config.certByte (4 * i + k)).toNat))

/-- What a hub register shows when it is not simply what it holds. -/
def hubShows (d : Dev) (f : Found) : Option Nat :=
  let i := f.i 0
  let b := f.row.base
  if b = Reg.DIO.CELL.base then some (d.cellReg i)
  else if b = Reg.DIO.IN.base then some (d.syncWord (32 * i) 32)
  else if b = Reg.TRG.IN.base then some d.trgInReg
  else if b = Reg.TRG.XBUS.base then some d.xbusReg
  else if b = Reg.TIME.D.OFS.base then some (ofsReg (d.getDom i).ofs)
  else if b = Reg.PWR.SECT.STAT.base then some (setBits (d.rd (f.loc 8)) 2 0 (d.runState i))
  else if b = Reg.BOOT.CERT.base then some (certWord i)
  else none

/-- The value a register shows in the half that an access names. -/
def shows (d : Dev) (lay : Nat) (f : Found) : Nat :=
  match (if lay = 8 then d.hubShows f else d.secShows lay f) with
  | some v => if f.hi then v / 2 ^ 32 % 2 ^ 32 else v % 2 ^ 32
  | none => d.rd (f.loc lay)

/-- A register read clears the RC fields of its half (R9). -/
def readClear (d : Dev) (lay : Nat) (f : Found) : Dev :=
  let m := f.row.mask f.hi (fun t => t == .rc)
  if m = 0 then d else d.wr (f.loc lay) (d.rd (f.loc lay) - (d.rd (f.loc lay) &&& m))

/-- The read of a register found at an offset: what it shows, then the effects of the read (R7, R9, R313, R326, R452). -/
def readFound (d : Dev) (lay : Nat) (f : Found) : Dev × Nat :=
  if lay = 8 ∧ f.is Reg.TIME.NOWF then d.nowfRead
  else if lay = 8 ∧ f.is Reg.ETH.TSINFO then d.tsinfoRead (f.i 0)
  else
    let v := d.shows lay f
    let key := f.pairKey lay
    if f.row.wide || (decide (lay < 8) && f.slot) then
      if f.high then (d, match Sparse.find key d.latch with | some w => w.toNat | none => v)
      else ({ d with latch := Sparse.put key (BitVec.ofNat 32 (d.shows lay f.other)) d.latch }, v)
    else
      let d := (d.readClear lay f).when (decide (lay = 8) && (f.is Reg.DIO.CELL || f.is Reg.DIO.IN)) (fun d => d.useFree 32)
      (d.when (decide (lay < 8) && f.is Reg.SNOC.PDROP) (fun d => d.noc lay (fun x => { x with dropFirst := true })), v)

/-- The memory windows among the registers: the instruction area of CODE and the trace buffers (R69, R473). -/
def windowRead (d : Dev) (lay off : Nat) : Option Nat :=
  if lay = 8 then
    if 0x808000 ≤ off ∧ off < 0x810000 then
      some (traceWord d 8 (let p := d.fd Reg.HTRC.PAGE.hubAt 2 0; if p < 4 then p else 0) (off - 0x808000))
    else none
  else if 0x98000 ≤ off ∧ off < 0xA0000 then some (traceWord d lay (d.fd (Reg.STRC.PAGE.of lay) 2 0) (off - 0x98000))
  else if 0x2000000 ≤ off ∧ off < 0x2600000 then some (d.codeRead lay (off - 0x2000000))
  else none

/-- Whether a layout's block answers: in SAFE only DEV, BOOT and HOSTQ do (R491), and a section answers only while it is ON and not in reset,
SCTL.STATE apart, which the hub shadows (R411, R507, R508). -/
def answers (d : Dev) (lay off : Nat) : Bool :=
  if lay = 8 then !d.inSafe || off / 0x10000 == 0 || off / 0x10000 == 3 || off / 0x10000 == 8
  else d.sectionOn lay

/-- An aligned 32-bit read at an offset of a layout (R4 to R9, R411, R491, R541). -/
def readReg (d : Dev) (lay off : Nat) : Dev × Nat :=
  let (lay, off) := aliasOf lay off
  if d.held then (d, 0)
  else if !(d.answers lay off) then
    (d, if lay < 8 ∧ off = Reg.SCTL.STATE.base ∧ !d.inSafe then d.rd (Reg.SCTL.STATE.of lay) else 0)
  else match d.windowRead lay off with
    | some v => (d, v)
    | none => match (rowsAt lay off).bind (fun rows => findRow rows off) with
      | some f => d.readFound lay f
      | none => (d, 0)

/-- The read of a DSTORE word that an access to a layout is, where it is one (R96, R97). -/
def tapRead (d : Dev) (lay off size : Nat) : Option TapRead :=
  if decide (8 ≤ lay) || d.held || !(d.answers lay off) then none
  else match (secRows (off / 4 * 4)).bind (fun rows => findRow rows (off / 4 * 4)) with
    | some f => if f.is Reg.CLUS.DSTORE then some ⟨f.i 0, f.i 1, f.i 2, off % 4, size⟩ else none
    | none => none

/-- Whether an access to a layout is a read of DSTORE that has to wait (R278). -/
def tapWaits (d : Dev) (lay off size : Nat) : Bool := (d.tapRead lay off size).any (fun r => d.tapBusy lay r.cl)

/-- A register access to a section crosses its service network, as initiator 0, the hub register path, or 6, the section controller (R447). -/
def pathCount (d : Dev) (i lay off w : Nat) : Dev :=
  let lay := (aliasOf lay off).1
  if decide (lay < 8) && !d.held && d.answers lay off then d.nocFree lay i w else d

/-- A read of `w` bytes: another width returns the addressed bytes of the register (R5). -/
def readBytes (d : Dev) (i lay off w : Nat) : Dev × Nat :=
  let (d, v) := (d.pathCount i lay off w).readReg lay (off / 4 * 4)
  (d, v / 2 ^ (8 * (off % 4)) % 2 ^ (8 * w))

end Dev

end Sys2Proof.Machine
end

