-- ==== Sys2Proof/Machine/RegWrite.lean ====
section
/-! DEFINITION. Register writes (R5 to R11, R541, R542): what a write of a register does by its fields' types, the registers with a
behaviour of their own, and the record of unmapped and mis-sized writes. -/

namespace Sys2Proof.Machine

/-- Who accesses a register (R540, R542): 0 to 8 PF0 to PF8, 9 SMBus, 10 the device controller, 11 the controller of section `sect`.
`ph` counts the nanoseconds since the last tick (R312), for what a write stamps. -/
structure Writer where
  src : Nat
  sect : Nat
  ph : Nat
deriving DecidableEq, Repr

/-- Whether a row has a field that a write may change. -/
def Row.writable (r : Row) : Bool := r.fields.any (fun f => f.ty == .rw || f.ty == .w1c || f.ty == .w1s)

/-- Whether a find is one of the given rows. -/
def Found.among (f : Found) (rows : List Row) : Bool := rows.any (fun r => f.is r)

namespace Dev

/-- A write by the types of the fields (R9), with the staging of a pair (R7). -/
def plainWrite (d : Dev) (lay : Nat) (f : Found) (v : Nat) : Dev :=
  let lo := f.row.of lay f.ix
  let store := fun (d : Dev) (l : Loc) (hi : Bool) (v : Nat) => d.wr l (f.row.written hi (d.rd l) v)
  if !f.row.wide then store d lo false v
  else if !f.row.writable then d
  else if !f.hi then { d with staging := Sparse.put lo.key (BitVec.ofNat 32 v) d.staging }
  else
    let d := match Sparse.find lo.key d.staging with
      | some w => { store d lo false w.toNat with staging := Sparse.drop lo.key d.staging }
      | none => d
    store d (f.row.ofHi lay f.ix) true v

/-- A write that `c` refuses: it sets bit `n` of `l` and changes nothing else, the staging of a pair included. -/
def guarded (d : Dev) (lay : Nat) (f : Found) (v : Nat) (c : Bool) (l : Loc) (n : Nat) : Dev :=
  if c then d.wb l n true else d.plainWrite lay f v

/-- Writes of the region registers (R203, R208): CIRC of regions 4 to 7 stays 0. -/
def regionWrite (d : Dev) (n : Nat) (f : Found) (v k : Nat) (fabric : Bool) (l : Loc) (bit_ : Nat) : Dev :=
  if fabric && d.barred n then d.wb l bit_ true
  else d.plainWrite n f (if 4 ≤ k ∧ (f.is Reg.SPAD.REG.CTL || f.is Reg.HBMC.FREG.CTL) then setBits v 30 30 0 else v)

/-- Registers that an acquisition locks (R306). -/
def capLocked : List Row :=
  [Reg.CAPT.CFG, Reg.CAPT.PRE, Reg.CAPT.POST, Reg.CAPT.NSEG, Reg.CAPT.DBASE, Reg.CAPT.HBASE, Reg.CAPT.HOLDOFF, Reg.CAPT.TOUT,
    Reg.CAPT.EXTSEL, Reg.CAPT.CNTLIM, Reg.CAPT.TCMP, Reg.CAPT.SEQ.COND, Reg.CAPT.SEQ.ACT, Reg.CAPT.CMP.SEL, Reg.CAPT.CMP.MV] ++
  [Reg.CAPT.DEC.CTL, Reg.CAPT.DEC.LINE01, Reg.CAPT.DEC.LINE2, Reg.CAPT.DEC.MASK, Reg.CAPT.DEC.VALUE, Reg.CAPT.DEC.HI,
    Reg.CAPT.DEC.SYNC, Reg.CAPT.PROBE]

/-- Writes of CAPT registers (R302, R306). -/
def captWrite (d : Dev) (n : Nat) (f : Found) (v ph : Nat) : Dev :=
  let act := Reg.CAPT.ACTCTL.of n
  let on := d.fb act 31
  if f.is Reg.CAPT.CTL then
    let d := d.when (v.testBit 1) (fun d => d.capDisarm n ph)
    let d := d.when (v.testBit 0) (fun d => d.capArm n ph)
    d.when (v.testBit 4) (fun d => d.capForce n)
  else if f.is Reg.CAPT.ACTCTL then d.actctlWrite n v
  else if f.is Reg.CAPT.ABASE || f.is Reg.CAPT.ANB then d.guarded n f v (on && v != d.rd (f.loc n)) (capStat n) 1
  else if f.among capLocked then
    let short := f.is Reg.CAPT.CFG && on && decide (bits v 9 0 < d.fd act 8 0 + d.fd act 19 10)
    d.guarded n f v (d.capActive n || short) (capStat n) 1
  else d.plainWrite n f v

/-- Writes of SDMA and HDMA registers (R439). -/
def dmaRegWrite (d : Dev) (n lay : Nat) (f : Found) (v : Nat) : Dev :=
  let c := f.i 0
  if f.among [Reg.SDMA.CTL, Reg.HDMA.CTL] then d.dmaCtlWrite n c v
  else if f.among [Reg.SDMA.DOORBELL, Reg.HDMA.DOORBELL] then d.dmaDoorbell n c
  else if f.among [Reg.SDMA.DESC, Reg.HDMA.DESC, Reg.SDMA.SKIP, Reg.HDMA.SKIP] then
    d.guarded lay f v (!(d.dmaOpen n c)) (dmaStat n c) 1
  else d.plainWrite lay f v

/-- Writes of STRC and HTRC registers (R467, R472, R476). -/
def traceWrite (d : Dev) (n lay : Nat) (f : Found) (v : Nat) : Dev :=
  let x := if lay = 8 then 0 else f.i 0
  if f.among [Reg.STRC.BCTL, Reg.HTRC.BCTL] then d.bctlWrite n v
  else if f.among [Reg.STRC.TCTL, Reg.HTRC.TCTL] then d.tctlWrite n x v
  else if f.among [Reg.STRC.CMP.ADDR, Reg.STRC.CMP.CFG, Reg.STRC.RNG.LO, Reg.STRC.RNG.HI, Reg.STRC.RNG.CFG] ||
      f.among [Reg.HTRC.CMP.ADDR, Reg.HTRC.CMP.CFG, Reg.HTRC.RNG.LO, Reg.HTRC.RNG.HI, Reg.HTRC.RNG.CFG] then
    d.guarded lay f v (d.fb (tctl n x) 31) (tstat n x) 5
  else d.plainWrite lay f v

/-- Writes of CLUS registers. -/
def clusWrite (d : Dev) (n : Nat) (f : Found) (v : Nat) : Dev :=
  let c := f.i 0
  if f.is Reg.CLUS.DSTORE then d.dstoreWrite n c (f.i 1) (f.i 2) v
  else if f.is Reg.CLUS.CSLOT then d.cslotWrite n c (f.i 1) v
  else if f.is Reg.CLUS.GSLOTL then d.gslotStage n c (f.i 1) v
  else if f.is Reg.CLUS.GSLOTH then d.gslotWrite n c (f.i 1) v
  else if f.is Reg.CLUS.WAIT then d.waitWrite n c (f.i 1) v
  else if f.is Reg.CLUS.CLKCTL then d.clkctlWrite n c v
  else if f.is Reg.CLUS.RSTCTL then d.when (v.testBit 0) (fun d => d.crst n c)
  else d.plainWrite n f v

/-- Writes of the other section registers. -/
def sectionWrite (d : Dev) (n : Nat) (f : Found) (v : Nat) : Dev :=
  let i := f.i 0
  if f.is Reg.SCTL.CMD then d.runCmd n (bits v 3 0) (bits v 5 4) none
  else if f.is Reg.SCTL.HCTL then d.when (v.testBit 0) (fun d => d.hctlClr n)
  else if f.is Reg.SCTL.PACECTL then d.pacectlWrite n v
  else if f.is Reg.SFLT.FSTAT then d.when (v.testBit 31) (fun d => d.faultClear n)
  else if f.among [Reg.SPAD.REG.CTL, Reg.SPAD.REG.BASE, Reg.SPAD.REG.LIMIT] then
    d.regionWrite n f v (f.i 1) (decide (i < 16)) (Reg.SPAD.RSTAT.of n) 0
  else if f.among [Reg.HBMC.FREG.CTL, Reg.HBMC.FREG.BASE, Reg.HBMC.FREG.LIMIT] then d.regionWrite n f v i true (Reg.HBMC.STAT.of n) 8
  else if f.is Reg.SPAD.BANKPWR then d.bankpwrWrite n v
  else if f.is Reg.FERRY.CTL then
    let d := (d.plainWrite n f v).when (v.testBit 0) (fun d => d.queueReset n i)
    d.when (v.testBit 4) (fun d => d.queueTest n i)
  else if f.is Reg.FERRY.WDATA then d.mailboxWrite n (bits v 11 0) (v.testBit 12)
  else if f.is Reg.CALL.CLASS then d.guarded n f v (d.barred n) (Reg.CALL.STAT.of n) 0
  else if f.is Reg.CALL.CRPOOL then d.crpoolWrite n i v
  else if f.is Reg.CALL.CORECTL then d.corectlWrite n v
  else if f.is Reg.SNOC.RTDATA then d.rtdataWrite n v
  else if f.is Reg.SNOC.RTCMD then d.rtcmdWrite n v
  else if f.is Reg.SNOC.RTPORTS then d.guarded n f v (d.swapping n) (rtstat n) 29
  else if f.is Reg.SNOC.STCTL then d.stctlWrite n v
  else if f.is Reg.LINKQ.MAP then d.guarded n f v (d.barred n) (Reg.LINKQ.STAT.of n) 0
  else d.plainWrite n f v

/-- A write of a register of section n. -/
def secWrite (d : Dev) (n : Nat) (f : Found) (v ph : Nat) : Dev :=
  let b := f.row.base
  if b < 0x20000 then d.sectionWrite n f v
  else if 0x1000000 ≤ b ∧ b < 0x2000000 then d.clusWrite n f v
  else if b / 0x10000 = 3 then d.dmaRegWrite n n f v
  else if b / 0x10000 = 8 then d.captWrite n f v ph
  else if b / 0x10000 = 9 then d.traceWrite n n f v
  else d.sectionWrite n f v

/-- Writes of TIME registers (R314 to R323). -/
def timeWrite (d : Dev) (f : Found) (v : Nat) : Dev :=
  let i := f.i 0
  let p := d.plainWrite 8 f v
  if f.is Reg.TIME.CTL then d.timeCtlWrite v
  else if f.is Reg.TIME.SETCMD then d.setcmdWrite v
  else if f.is Reg.TIME.INC then
    p.when f.hi (fun d => d.wr64 Reg.TIME.INC 8 [] (min 0x500000000 (max 0x300000000 (d.rd64 Reg.TIME.INC 8))))
  else if f.is Reg.TIME.SLEWLIM then d.slewLimWrite v
  else if f.is Reg.TIME.D.INTEG then d.wr (f.loc 8) (toBits 32 (clampInt (-d.slewLim) d.slewLim (sext 32 v)))
  else if f.is Reg.TIME.D.OFFSET && (f.hi || d.fd (domLoc Reg.TIME.D.CFG i) 31 30 == 1) then d.when f.hi (fun d => d.offsetSubmit i v)
  else if f.is Reg.TIME.ALCTL then d.alarmWrite i v
  else p

/-- Writes of PG registers (R335): while EN is 1 every other register refuses with REJ. -/
def pgWrite (d : Dev) (f : Found) (v : Nat) : Dev :=
  let g := f.i 0
  if f.is Reg.PG.CTL then d.pgCtlWrite g v
  else if f.is Reg.PG.STAT then d.plainWrite 8 f v
  else d.guarded 8 f v (f.row.writable && d.fb (Reg.PG.CTL.hubAt [g]) 31) (Reg.PG.STAT.hubAt [g]) 2

/-- The mask bit of vector w of function f is written: a pending message goes out when it clears. -/
def msixMask (d : Dev) (f w v : Nat) : Dev :=
  let d := d.wr (Reg.HQ.MSIXV.hubAt [f, w]) (v % 2)
  let pba := d.rd64 Reg.HQ.PBA 8 [f]
  if v % 2 = 0 && pba.testBit w then (d.wr64 Reg.HQ.PBA 8 [f] (setBits pba w w 0)).msix f w else d

/-- Writes of HQ registers (R412 to R418). -/
def hqWrite (d : Dev) (f : Found) (v : Nat) : Dev :=
  let i := f.i 0
  if f.is Reg.HQ.CTL then d.hqCtlWrite i v
  else if f.is Reg.HQ.CMDTAIL then d.cmdtailWrite i v
  else if f.is Reg.HQ.CPLHEAD then d.cplheadWrite i v
  else if f.among [Reg.HQ.CMDBASE, Reg.HQ.CPLBASE, Reg.HQ.CMDCFG, Reg.HQ.CPLCFG] then
    d.guarded 8 f v (d.ringsOn i) (Reg.HQ.STAT.hubAt [i]) 1
  else if f.is Reg.HQ.MSIXV then d.msixMask i (f.i 1) v
  else d.plainWrite 8 f v

/-- Writes of LANE registers (R342, R361 to R369). -/
def laneWrite (d : Dev) (f : Found) (v : Nat) : Dev :=
  let l := 4 * f.i 0 + f.i 1
  let c := laneLoc Reg.LANE.CTL l
  if f.is Reg.LANE.CTL then
    let d := (d.wf c 26 22 (bits v 26 22)).wb c 27 (v.testBit 27)
    let d := d.when (v.testBit 30) (fun d => d.laneDisable l)
    let d := (d.laneLoop l (bits v 29 28)).laneTest l (v.testBit 27)
    d.when (v.testBit 31) (fun d => d.laneTrain l)
  else if f.is Reg.LANE.EQTX then d.laneEqWrite l 0 v
  else if f.is Reg.LANE.EQRX then d.laneEqWrite l 1 v
  else if f.is Reg.LANE.QCTL then d.laneEqWrite l 2 v
  else if f.is Reg.LANE.PRBSCTL then
    let set := v.testBit 30 && !(d.fb (f.loc 8) 30)
    (d.plainWrite 8 f v).when set (fun d =>
      ((d.wr64 Reg.LANE.PRBSBITS 8 f.ix 0).wb (laneLoc Reg.LANE.STAT l) 0 false).lane l (fun x => { x with prbsSeen := 0, prbsLen := 0 }))
  else if f.is Reg.LANE.INJ then (d.plainWrite 8 f v).when (v.testBit 29) (fun d => d.injectGo l)
  else if f.is Reg.LANE.ESCTL then (d.plainWrite 8 f v).when (v.testBit 31) (fun d => d.eyeStart l)
  else d.plainWrite 8 f v

/-- A write of a register of the PF0 layout. -/
def hubWrite (d : Dev) (o : OtpSt) (w : Writer) (f : Found) (v : Nat) : Dev :=
  let i := f.i 0
  if f.among rowsTIME then d.timeWrite f v
  else if f.among rowsPG then d.pgWrite f v
  else if f.among rowsHQ then d.hqWrite f v
  else if f.among rowsLANE then d.laneWrite f v
  else if f.among rowsHTRC then d.traceWrite 8 8 f v
  else if f.among rowsHDMA then (if w.src = 10 then d.dmaRegWrite 8 8 f v else d)
  else if f.is Reg.TRG.PIN then d.lineChange (fun d => d.plainWrite 8 f v)
  else if f.is Reg.PWR.THCTL then d.thctlWrite v
  else if f.is Reg.PWR.SECT.CTL then d.sectCtlWrite i v
  else if f.is Reg.BOOT.FLCMD then d.flcmdWrite v
  else if f.is Reg.BOOT.OTPPROG then d.otpprogWrite o v
  else d.plainWrite 8 f v

/-! ### Access errors -/

/-- A discarded write is recorded (R542, R543): KIND 1 for its width, 2 for unmapped space. -/
def recordAccess (d : Dev) (w : Writer) (kind off : Nat) : Dev :=
  let e := Reg.DEV.ACCERR.hubAt
  let d := d.bump Reg.DEV.ACCCNT.hubAt
  if d.fb e 31 then d
  else (d.wr e (2 ^ 31 + kind * 2 ^ 28 + w.src * 2 ^ 24 + (if w.src = 11 then w.sect * 2 ^ 21 else 0))).wr Reg.DEV.ACCADDR.hubAt off

/-- Whether a writer reaches a layout: a host function its own, or PF0's; a section controller its own section's (R540). -/
def reaches (w : Writer) (lay : Nat) : Bool :=
  if w.src = 0 ∨ w.src = 9 then lay == 8
  else if w.src < 9 then lay + 1 == w.src
  else if w.src = 10 then decide (lay ≤ 8)
  else lay == w.sect && decide (lay < 8)

/-- The traffic of a write over the hub register path, which is posted (R448). -/
def nocStat0 (d : Dev) (n : Nat) : Dev := d.nocCount n 0 4 none

/-- A write of `k` bytes at an offset of a layout (R4 to R11, R411, R491, R541, R542). -/
def writeReg (d : Dev) (o : OtpSt) (w : Writer) (lay off k v : Nat) : Dev :=
  let at_ := off
  let (lay, off) := aliasOf lay off
  if d.held then d
  else match rowsAt lay off with
    | none => d.recordAccess w 2 at_
    | some rows =>
      if k != 4 || off % 4 != 0 then d.recordAccess w 1 at_
      else if !(d.answers lay off) then d
      else
      let d := if lay = 8 then d else if w.src = 11 then d.nocFree lay 6 4 else d.nocStat0 lay
      if lay < 8 ∧ 0x2000000 ≤ off ∧ off < 0x2600000 then d.codeWrite lay (off - 0x2000000) v
      else match findRow rows off with
        | none => d
        | some f => if lay = 8 then d.hubWrite o w f v else d.secWrite lay f v w.ph

end Dev

end Sys2Proof.Machine
end

