-- ==== Sys2Proof/Machine/Cores.lean ====
section
/-! DEFINITION. The on-chip cores (R267 to R275): address maps, accesses and their faults, the custom CSRs, traps, the section
controller's data cache, and the retirement of an instruction with its trace (R462). -/

namespace Sys2Proof.Machine

/-- Where an address of a core leads (R267, R271, R274). -/
inductive Place where
  | ram (a : Nat)
  | rom (a : Nat)
  | view (lay off : Nat)
  | mem (sma : Nat)
  | nowhere
deriving DecidableEq, Repr

/-- What an instruction comes to: it retires, with a taken jump's target, a register to write and the accesses the trace sees, or it
traps. -/
inductive Retire where
  | done (target : Option Nat) (rd : Option (Nat × Nat)) (acc : List TraceAcc)
  | trap (cause tval : Nat)
deriving DecidableEq, Repr

/-- mcauses of the access faults and misaligned accesses (R267, R273). -/
abbrev mcFETCH : Nat := 1
abbrev mcILLEGAL : Nat := 2
abbrev mcLALIGN : Nat := 4
abbrev mcLOAD : Nat := 5
abbrev mcSALIGN : Nat := 6
abbrev mcSTORE : Nat := 7

/-- Numbers of the standard CSRs that the cores hold, by the published privileged standard. -/
abbrev csrSTATUS : Nat := 0x300
abbrev csrIE : Nat := 0x304
abbrev csrTVEC : Nat := 0x305
abbrev csrEPC : Nat := 0x341
abbrev csrCAUSE : Nat := 0x342
abbrev csrTVAL : Nat := 0x343
abbrev csrIP : Nat := 0x344
abbrev csrCYCLE : Nat := 0xB00
abbrev csrINSTRET : Nat := 0xB02
abbrev csrWBERR : Nat := 0x7E0

/-- Whether core x of unit n has 64-bit registers: a controller (R271, R274). -/
def isRv64 (n x : Nat) : Bool := n == 8 || x == 8

namespace Dev

/-- Core x of unit n: call cores 0 to 7 and the controller, 8, of a section, and the device controller, unit 8. -/
def getCore (d : Dev) (n x : Nat) : Core :=
  if n = 8 then d.ctl
  else d.getSec n (Core.start 0) (fun s => if x = 8 then s.ctl else vget s.cores x (Core.start 0))

def core (d : Dev) (n x : Nat) (f : Core → Core) : Dev :=
  if n = 8 then { d with ctl := f d.ctl }
  else d.sec n (fun s => if x = 8 then { s with ctl := f s.ctl } else { s with cores := vmod s.cores x f })

/-- Whether a core runs: its unit has power and clock, it is out of reset, and its clock is not gated (R264, R464). -/
def coreRuns (d : Dev) (n x : Nat) : Bool :=
  !d.held && !(d.getCore n x).sleeping &&
    (n == 8 || (d.sectionOn n && (x == 8 || !(d.fb (Reg.CALL.CORESTAT.of n [x]) 28))))

/-- The index of a core among its trace unit's sources. -/
def traceIx (n x : Nat) : Nat := if n = 8 then 0 else x

/-- Where address `a` of a core leads. -/
def place (d : Dev) (n x a : Nat) : Place :=
  if n = 8 then
    if a < 0x10000 then .rom a
    else if 0x1000000 ≤ a ∧ a < 0x1100000 then .ram (a - 0x1000000)
    else if 0x10000000 ≤ a ∧ a < 0x11000000 then .view 8 (a - 0x10000000)
    else if 0x20000000 ≤ a ∧ a < 0x40000000 then .view ((a - 0x20000000) / 0x4000000) ((a - 0x20000000) % 0x4000000)
    else .nowhere
  else if x = 8 then
    if a < 0x40000 then .ram a
    else if 0x10000000 ≤ a ∧ a < 0x14000000 then .view n (a - 0x10000000)
    else if 0x4000000000 ≤ a ∧ a < 0x8000000000 then .mem (a - 0x4000000000)
    else .nowhere
  else if a < 0x10000 then .ram a
  else if 0x80000000 ≤ a ∧ a < 0x80800000 then .mem (a - 0x80000000)
  else if 0xC0000000 ≤ a ∧ a < 0x100000000 then .mem (hbmBase + d.getSlot n x 0 (fun s => s.hbmWin) * 2 ^ 30 + (a - 0xC0000000))
  else .nowhere

/-- The initiator of a core's register accesses on a section's network (R447): the hub register path, or the section controller. -/
def initOf (n : Nat) : Nat := if n = 8 then 0 else 6

/-- Who a core is as a writer of registers (R540). -/
def coreWriter (n ph : Nat) : Writer := if n = 8 then ⟨10, 0, ph⟩ else ⟨11, n, ph⟩

/-! ### The section controller's data cache (R272, R273) -/

/-- A dirty line is written back: it leaves the cache, and when memory refuses it its data are lost and hvwberr records it. -/
def writeBack (d : Dev) (n line : Nat) : Dev :=
  match Sparse.find line (d.getCore n 8).dirty with
  | none => d
  | some bs =>
    let d := d.core n 8 (fun c => { c with dirty := Sparse.drop line c.dirty, clean := c.clean.filter (· != line) })
    let r := d.nocWrite n 22 (64 * line) bs none []
    match r.2 with
    | .ok => r.1
    | _ => r.1.core n 8 (fun c =>
        let old := (Sparse.get (fun _ => (0 : BitVec 64)) c.csr csrWBERR).toNat
        if old.testBit 63 then c
        else { c with csr := Sparse.put csrWBERR (BitVec.ofNat 64 (2 ^ 63 + line % 2 ^ 32 * 64)) c.csr })

/-- Bytes that the cache holds for a line it has filled, or the fill's refusal. -/
def cacheFill (d : Dev) (n line ecc : Nat) : Dev × Option (List Nat) :=
  let c := d.getCore n 8
  match Sparse.find line c.dirty with
  | some bs => (d, some bs)
  | none =>
    if c.clean.contains line then (d, some (d.memBytes n (64 * line) 64))
    else
      let r := d.nocRead n 22 (64 * line) 64 [(0, ecc)]
      match r.2.1 with
      | .ok => (r.1.core n 8 (fun c => { c with clean := c.clean ++ [line] }), some r.2.2)
      | _ => (r.1, none)

/-! ### Accesses -/

/-- A read of `k` bytes; none when it raises an access fault. -/
def coreRead (d : Dev) (n x a k ecc : Nat) : Dev × Option Nat :=
  match d.place n x a with
  | .ram a => (d, some (ofBytes ((List.range k).map (fun i => (Sparse.get (fun _ => (0 : BitVec 8)) (d.getCore n x).mem (a + i)).toNat))))
  | .rom a => (d, some (ofBytes ((List.range k).map (fun i => (Config.romByte (a + i)).toNat))))
  | .view lay off =>
    if k = 8 then
      let r := (d.pathCount (initOf n) lay off 8).readReg lay off
      let r' := r.1.readReg lay (off + 4)
      (r'.1, some (r.2 + 2 ^ 32 * r'.2))
    else let r := d.readBytes (initOf n) lay off k; (r.1, some r.2)
  | .mem s =>
    if x = 8 then
      let r := d.cacheFill n (s / 64) ecc
      (r.1, r.2.map (fun bs => ofBytes ((bs.drop (s % 64)).take k)))
    else
      let r := d.nocRead n (23 + x) s k [(0, ecc)]
      (r.1, match r.2.1 with | .ok => some (ofBytes r.2.2) | _ => none)
  | .nowhere => (d, none)

/-- A write of `k` bytes; false when it raises an access fault. -/
def coreWrite (d : Dev) (o : OtpSt) (n x a k v ph ecc : Nat) : Dev × Bool :=
  let bs := toBytes k v
  match d.place n x a with
  | .ram a => (d.core n x (fun c => { c with
      mem := bs.zipIdx.foldl (fun m p => Sparse.set (fun _ => 0) m (a + p.2) (BitVec.ofNat 8 p.1)) c.mem }), true)
  | .rom _ => (d, false)
  | .view lay off => (d.writeReg o (coreWriter n ph) lay off k (v % 2 ^ (8 * k)), true)
  | .mem s =>
    if x = 8 then
      let line := s / 64
      match d.cacheFill n line ecc with
      | (d, none) => (d, false)
      | (d, some old) =>
        let new := old.take (s % 64) ++ bs ++ old.drop (s % 64 + k)
        (d.core n 8 (fun c => { c with dirty := Sparse.put line new c.dirty, clean := c.clean.filter (· != line) }), true)
    else
      let r := d.nocWrite n (23 + x) s bs none [(0, ecc)]
      (r.1, match r.2 with | .ok => true | _ => false)
  | .nowhere => (d, false)

/-! ### CSRs (R269, R270, R273, R275) -/

/-- The value a core holds in a CSR of the published standard. -/
def csrHeld (d : Dev) (n x num : Nat) : Nat := (Sparse.get (fun _ => (0 : BitVec 64)) (d.getCore n x).csr num).toNat

def setCsr (d : Dev) (n x num v : Nat) : Dev :=
  d.core n x (fun c => { c with csr := Sparse.set (fun _ => 0) c.csr num (BitVec.ofNat 64 v) })

/-- MEIP: on a call core a call is current (R269); on a controller an event has reached it, or a write-back was refused (R272, R273, R323). -/
def meip (d : Dev) (n x : Nat) : Bool :=
  if isRv64 n x then (d.getCore n x).event || (n != 8 && (d.csrHeld n x csrWBERR).testBit 63)
  else d.getSlot n x false (fun s => s.cur.isSome)

/-- Whether the call of core x is changing: its reads of the call CSRs wait for the new call (R257). -/
def callChanging (d : Dev) (n x : Nat) : Bool :=
  d.serving n && d.getSlot n x false (fun s => s.cur.isNone && s.pref.isSome)

/-- The CSRs that show the current call or are set by its start (R270). -/
def callCsr (num : Nat) : Bool := decide ((0xFC0 ≤ num ∧ num ≤ 0xFC5) ∨ (0x7C0 ≤ num ∧ num ≤ 0x7D0))

/-! ### Physical memory protection of the controllers (R271, R274): 8 entries, by the published privileged standard (log 85) -/

/-- The configuration byte of entry i. -/
def pmpCfg (d : Dev) (n x i : Nat) : Nat := bits (d.csrHeld n x 0x3A0) (8 * i + 7) (8 * i)

/-- The number of trailing ones of a number, at most `fuel`. -/
def trailingOnes : Nat → Nat → Nat
  | 0, _ => 0
  | fuel + 1, v => if v % 2 = 1 then trailingOnes fuel (v / 2) + 1 else 0

/-- The bytes that entry i covers, first and one past the last. -/
def pmpRange (d : Dev) (n x i : Nat) : Option (Nat × Nat) :=
  let a := d.csrHeld n x (0x3B0 + i)
  let mode := bits (d.pmpCfg n x i) 4 3
  if mode = 0 then none
  else if mode = 1 then some (if i = 0 then 0 else 4 * d.csrHeld n x (0x3B0 + i - 1), 4 * a)
  else if mode = 2 then some (4 * a, 4 * a + 4)
  else
    let t := trailingOnes 54 a
    some (4 * (a / 2 ^ (t + 1) * 2 ^ (t + 1)), 4 * (a / 2 ^ (t + 1) * 2 ^ (t + 1)) + 2 ^ (t + 3))

/-- Whether the entries let a controller access `k` bytes; `perm` is 0 for reads, 1 for writes, 2 for fetches. A call core has no entries. -/
def pmpOk (d : Dev) (n x : Nat) (user : Bool) (a k perm : Nat) : Bool :=
  if !(isRv64 n x) then true
  else
    let hit := (List.range 8).findSome? (fun i => (d.pmpRange n x i).bind (fun r =>
      if r.1 < a + k ∧ a < r.2 then some (i, decide (r.1 ≤ a ∧ a + k ≤ r.2)) else none))
    match hit with
    | none => !user
    | some (i, whole) => whole && ((d.pmpCfg n x i).testBit perm || (!user && !((d.pmpCfg n x i).testBit 7)))

/-- The mode in which a controller's loads and stores are checked: MPP where mstatus.MPRV is set. -/
def dataUser (d : Dev) (n x : Nat) : Bool :=
  let st := d.csrHeld n x csrSTATUS
  if (d.getCore n x).user then true else st.testBit 17 && bits st 12 11 == 0

/-- A write of pmpcfg0: locked entries stay, and a writable entry is readable. -/
def pmpCfgWrite (d : Dev) (n x v : Nat) : Nat :=
  (List.range 8).foldl (fun a i =>
    let old := d.pmpCfg n x i
    let new := bits v (8 * i + 7) (8 * i) &&& 0x9F
    a + (if old.testBit 7 then old else if new.testBit 1 && !(new.testBit 0) then new - 2 else new) * 2 ^ (8 * i)) 0

/-- Whether pmpaddr i is locked, by its own entry or as the base of a locked range. -/
def pmpLocked (d : Dev) (n x i : Nat) : Bool :=
  (d.pmpCfg n x i).testBit 7 || (decide (i < 7) && (d.pmpCfg n x (i + 1)).testBit 7 && bits (d.pmpCfg n x (i + 1)) 4 3 == 1)

/-- hvcinfo (R270). -/
def hvcInfo (d : Dev) (n x : Nat) : Nat :=
  match d.getSlot n x none (fun s => s.cur) with
  | none => 0
  | some e => 2 ^ 31 + b2n e.urgent * 2 ^ 30 + e.cls % 64 * 2 ^ 24 + e.tag % 16 * 2 ^ 20 + e.level % 4 * 2 ^ 18 + e.course % 8192

/-- A pair of argument words. -/
def hvcArgs (d : Dev) (n x i : Nat) : Nat :=
  match d.getSlot n x none (fun s => s.cur) with
  | none => 0
  | some e => e.args.getD (i + 1) 0 % 4096 * 2 ^ 16 + e.args.getD i 0 % 4096

/-- Standard CSRs a core has: machine mode, and on the controllers user mode and 8 PMP entries. -/
def csrKnown (n x num : Nat) : Bool :=
  [0x300, 0x301, 0x304, 0x305, 0x340, 0x341, 0x342, 0x343, 0x344, 0xB00, 0xB02, 0xF11, 0xF12, 0xF13, 0xF14, 0xF15].contains num ||
    (if isRv64 n x then num == 0x306 || num == 0x3A0 || decide (0x3B0 ≤ num ∧ num < 0x3B8) || num == 0xFC8 || (n != 8 && num == csrWBERR)
     else num == 0x310 || num == 0xB80 || num == 0xB82 || decide (0xFC0 ≤ num ∧ num ≤ 0xFC5) || num == 0xFC8 || num == 0xFC9 ||
       decide (0x7C0 ≤ num ∧ num ≤ 0x7D2))

/-- A read of a CSR the core has. Reading hvtime latches hvtimeh on a call core. -/
def csrRead (d : Dev) (n x num : Nat) : Dev × Nat :=
  let cur := d.getSlot n x none (fun s => s.cur)
  if num = 0xF14 then (d, if n = 8 then 128 else 16 * n + x)
  else if num = csrIP then (d, b2n (d.meip n x) * 2 ^ 11)
  else if num = csrSTATUS ∧ !(isRv64 n x) then (d, d.csrHeld n x num ||| 0x1800)
  else if isRv64 n x then (d, if num = 0xFC8 then d.wrapNs else d.csrHeld n x num)
  else if num = 0xFC0 then (d, d.hvcInfo n x)
  else if num = 0xFC1 then (d, d.hvcArgs n x 0)
  else if num = 0xFC2 then (d, d.hvcArgs n x 2)
  else if num = 0xFC3 then (d, match cur with | some e => e.cycle % 2 ^ 32 | none => 0)
  else if num = 0xFC4 then (d, match cur with | some e => e.cycle / 2 ^ 32 % 2 ^ 32 | none => 0)
  else if num = 0xFC5 then (d, min (d.getSlot n x 0 (fun s => s.age)) (2 ^ 32 - 1))
  else if num = 0xFC8 then (d.slot n x (fun s => { s with timeH := BitVec.ofNat 32 (d.wrapNs / 2 ^ 32) }), d.wrapNs % 2 ^ 32)
  else if num = 0xFC9 then (d, d.getSlot n x 0 (fun s => s.timeH.toNat))
  else if 0x7C0 ≤ num ∧ num < 0x7D0 then (d, d.getSlot n x 0 (fun s => (s.rets.getD (num - 0x7C0) 0).toNat))
  else if num = 0x7D0 then (d, d.getSlot n x 0 (fun s => s.stat))
  else if num = 0x7D1 then (d, 0)
  else if num = 0x7D2 then (d, d.getSlot n x 0 (fun s => s.hbmWin))
  else if num = 0xB80 then (d, d.csrHeld n x csrCYCLE / 2 ^ 32)
  else if num = 0xB82 then (d, d.csrHeld n x csrINSTRET / 2 ^ 32)
  else (d, d.csrHeld n x num % 2 ^ 32)

/-- A write of a CSR that may be written. -/
def csrWrite (d : Dev) (n x num v : Nat) : Dev :=
  let rv64 := isRv64 n x
  if num = csrSTATUS then
    let mpp := if rv64 then (if bits v 12 11 = 3 then 0x1800 else if bits v 12 11 = 0 then 0 else d.csrHeld n x num &&& 0x1800) else 0
    d.setCsr n x num ((v &&& (if rv64 then 0x20088 else 0x88)) + mpp)
  else if num = csrIE then d.setCsr n x num (v &&& 0x888)
  else if num = csrTVEC then d.setCsr n x num (v - v % 4 + v % 2)
  else if num = csrEPC then d.setCsr n x num (v - v % 2)
  else if num = 0x301 ∨ num = csrIP ∨ num = 0x310 then d
  else if num = csrWBERR then d.setCsr n x num 0
  else if rv64 ∧ num = 0x3A0 then d.setCsr n x num (d.pmpCfgWrite n x v)
  else if rv64 ∧ 0x3B0 ≤ num ∧ num < 0x3B8 then if d.pmpLocked n x (num - 0x3B0) then d else d.setCsr n x num (v % 2 ^ 54)
  else if !rv64 ∧ 0x7C0 ≤ num ∧ num < 0x7D0 then
    d.slot n x (fun s => { s with rets := s.rets.set (num - 0x7C0) (BitVec.ofNat 12 v) })
  else if !rv64 ∧ num = 0x7D0 then d.slot n x (fun s => { s with stat := if v % 16 = 0 then 0 else 1 })
  else if !rv64 ∧ num = 0x7D1 then d.hvcDone n x
  else if !rv64 ∧ num = 0x7D2 then d.slot n x (fun s => { s with hbmWin := v % 4 })
  else if num = 0xB80 then d.setCsr n x csrCYCLE (v % 2 ^ 32 * 2 ^ 32 + d.csrHeld n x csrCYCLE % 2 ^ 32)
  else if num = 0xB82 then d.setCsr n x csrINSTRET (v % 2 ^ 32 * 2 ^ 32 + d.csrHeld n x csrINSTRET % 2 ^ 32)
  else if !rv64 ∧ (num = csrCYCLE ∨ num = csrINSTRET) then
    d.setCsr n x num (d.csrHeld n x num / 2 ^ 32 * 2 ^ 32 + v % 2 ^ 32)
  else d.setCsr n x num (if rv64 then v else v % 2 ^ 32)

/-! ### Traps and retirement -/

/-- The handler's address: mtvec's base, offset by the cause for an interrupt in vectored mode. -/
def handler (d : Dev) (n x cause : Nat) (int : Bool) : Nat :=
  let t := d.csrHeld n x csrTVEC
  t / 4 * 4 + (if int && t % 2 == 1 then 4 * cause else 0)

/-- A trap is taken: mepc, mcause, mtval, the mode and interrupt enable saved in mstatus, and the pc at the handler (R462). An interrupt answers the
event that stood. -/
def trapEnter (d : Dev) (n x cause tval : Nat) (int : Bool) : Dev :=
  let c := d.getCore n x
  let st := d.csrHeld n x csrSTATUS
  let mie := st.testBit 3
  let st := setBits (setBits (setBits st 7 7 (b2n mie)) 3 3 0) 12 11 (if isRv64 n x then (if c.user then 0 else 3) else 0)
  let h := d.handler n x cause int
  let w := if isRv64 n x then 63 else 31
  let d := ((d.setCsr n x csrEPC c.pc).setCsr n x csrCAUSE (cause + b2n int * 2 ^ w)).setCsr n x csrTVAL tval
  ((d.setCsr n x csrSTATUS st).core n x (fun c => { c with pc := h, user := false, event := c.event && !int })).traceStep n (traceIx n x)
    ⟨c.pc, none, some (c.pc, h, cause, int), []⟩

/-- Sign or zero extension of a loaded value. -/
def extend (k v : Nat) (signed : Bool) : Nat := if signed then toBits 64 (sext (8 * k) v) else v

/-- What an instruction comes to on a core, after its effects on memory, registers and CSRs. -/
def perform_ (d : Dev) (o : OtpSt) (n x ph ecc : Nat) (op : CoreOp) : Dev × Retire :=
  let rv64 := isRv64 n x
  let bad := fun (d : Dev) => (d, Retire.trap mcILLEGAL 0)
  let load := fun (d : Dev) (a k : Nat) (f : Dev → Nat → Dev × Retire) =>
    if a % k != 0 then (d, Retire.trap mcLALIGN a)
    else if !(d.pmpOk n x (d.dataUser n x) a k 0) then (d, Retire.trap mcLOAD a)
    else match d.coreRead n x a k ecc with
      | (d, none) => (d, Retire.trap mcLOAD a)
      | (d, some v) => f d v
  let store := fun (d : Dev) (a k v : Nat) (f : Dev → Dev × Retire) =>
    if a % k != 0 then (d, Retire.trap mcSALIGN a)
    else if !(d.pmpOk n x (d.dataUser n x) a k 1) then (d, Retire.trap mcSTORE a)
    else match d.coreWrite o n x a k v ph ecc with
      | (d, false) => (d, Retire.trap mcSTORE a)
      | (d, true) => f d
  match op with
  | .compute rd v => (d, .done none (some (rd.val, v.toNat)) [])
  | .jump rd v t => (d, .done (some t.toNat) (some (rd.val, v.toNat)) [])
  | .load rd a sz sg =>
    let k := 2 ^ sz.val
    if k = 8 ∧ !rv64 then bad d
    else load d a.toNat k (fun d v => (d, .done none (some (rd.val, extend k v sg)) [⟨false, a.toNat, sz.val, v⟩]))
  | .store a sz v =>
    let k := 2 ^ sz.val
    let v := v.toNat % 2 ^ (8 * k)
    if k = 8 ∧ !rv64 then bad d else store d a.toNat k v (fun d => (d, .done none none [⟨true, a.toNat, sz.val, v⟩]))
  | .amo rd a sz new =>
    let k := 2 ^ sz.val
    let w := new.toNat % 2 ^ (8 * k)
    if !rv64 ∨ k < 4 then bad d
    else if a.toNat % k != 0 then (d, .trap mcSALIGN a.toNat)
    else if !(d.pmpOk n x (d.dataUser n x) a.toNat k 0 && d.pmpOk n x (d.dataUser n x) a.toNat k 1) then (d, .trap mcSTORE a.toNat)
    else match d.coreRead n x a.toNat k ecc with
      | (d, none) => (d, .trap mcSTORE a.toNat)
      | (d, some v) => store d a.toNat k w (fun d =>
          (d, .done none (some (rd.val, extend k v true)) [⟨false, a.toNat, sz.val, v⟩, ⟨true, a.toNat, sz.val, w⟩]))
  | .lr rd a sz =>
    let k := 2 ^ sz.val
    if !rv64 ∨ k < 4 then bad d
    else load d a.toNat k (fun d v => (d.core n x (fun c => { c with resv := some a.toNat }),
      .done none (some (rd.val, extend k v true)) [⟨false, a.toNat, sz.val, v⟩]))
  | .sc rd a sz v =>
    let k := 2 ^ sz.val
    let v := v.toNat % 2 ^ (8 * k)
    if !rv64 ∨ k < 4 then bad d
    else
      let ok := (d.getCore n x).resv == some a.toNat
      let d := d.core n x (fun c => { c with resv := none })
      if ok then store d a.toNat k v (fun d => (d, .done none (some (rd.val, 0)) [⟨true, a.toNat, sz.val, v⟩]))
      else (d, .done none (some (rd.val, 1)) [])
  | .csr rd num set =>
    let k := num.toNat
    if !(csrKnown n x k) || (set.isSome && k / 0x400 == 3) || ((d.getCore n x).user && decide (0 < bits k 9 8)) then bad d
    else
      let r := d.csrRead n x k
      let d := match set with | some v => r.1.csrWrite n x k v.toNat | none => r.1
      (d, .done none (some (rd.val, r.2)) [])
  | .mret =>
    if (d.getCore n x).user then bad d
    else
      let st := d.csrHeld n x csrSTATUS
      let user := rv64 && bits st 12 11 == 0
      let st := setBits (setBits (setBits st 3 3 (bits st 7 7)) 7 7 1) 12 11 0
      let t := d.csrHeld n x csrEPC
      ((d.setCsr n x csrSTATUS st).core n x (fun c => { c with user := user }), .done (some t) none [])
  | .trap cause tval => (d, .trap cause.toNat tval.toNat)
  | .interrupt => (d, .trap 11 0)

/-- Whether the machine external interrupt is taken. -/
def interrupts (d : Dev) (n x : Nat) : Bool :=
  d.meip n x && (d.csrHeld n x csrIE).testBit 11 && ((d.getCore n x).user || (d.csrHeld n x csrSTATUS).testBit 3)

/-- Whether the instruction at the pc can be fetched, and the device after the fetch (R271, R273). -/
def fetchOk (d : Dev) (n x k ecc : Nat) : Dev × Bool :=
  let pc := (d.getCore n x).pc
  if !(d.pmpOk n x (d.getCore n x).user pc k 2) then (d, false)
  else match d.place n x pc with
  | .ram _ => (d, true)
  | .rom _ => (d, true)
  | .view _ _ => (d, false)
  | .mem s =>
    if x = 8 then
      let r := d.svcRead n 22 (s / 64 * 64) 64 [(0, ecc)]
      (r.1, r.2.1.isOk)
    else let r := d.nocRead n (23 + x) s k [(0, ecc)]; (r.1, r.2.1.isOk)
  | .nowhere => (d, false)

/-- Records that the trace of a core has lost. -/
def traceLost (d : Dev) (n x : Nat) : Nat := d.getSrc n (traceIx n x) 0 (fun t => t.lost)

/-- Whether an access of a core has to wait, for the tap port of a DSTORE word that it reads (R278), or for its bank (R197): a call core's own, or the fill of a line that the controller's
cache does not hold. -/
def accessWaits (d : Dev) (n x a k : Nat) (write : Bool) : Bool :=
  match d.place n x a with
  | .mem s =>
    if x = 8 then
      !((d.getCore n 8).clean.contains (s / 64)) && (Sparse.find (s / 64) (d.getCore n 8).dirty).isNone && d.svcWaits n 22 (s / 64 * 64) 64 false
    else d.svcWaits n (23 + x) s k write
  | .view lay off => !write && d.tapWaits lay off k
  | _ => false

/-- Whether an instruction does not retire yet: an aligned access of its own waits for a bank, or it reads a call CSR while the call changes (R197, R257). -/
def instrWaits (d : Dev) (n x k : Nat) (op : CoreOp) : Bool :=
  d.accessWaits n x (d.getCore n x).pc k false ||
  (match op with
  | .load _ a sz _ | .lr _ a sz => a.toNat % 2 ^ sz.val == 0 && d.accessWaits n x a.toNat (2 ^ sz.val) false
  | .store a sz _ | .sc _ a sz _ | .amo _ a sz _ => a.toNat % 2 ^ sz.val == 0 && d.accessWaits n x a.toNat (2 ^ sz.val) true
  | .csr _ num _ => !(isRv64 n x) && callCsr num.toNat && d.callChanging n x
  | _ => false)

/-- CORE_INSTRUCTION_RETIRE. Core x of unit n retires an instruction, or takes a trap, `cyc` core-clock cycles after the one before; `short` marks
a 16-bit instruction; `evict` lists lines that its accesses drive out of the section controller's data cache. With TCTL.STALL set the core
does not retire while its records find no room (R470). -/
def retire (d0 : Dev) (o : OtpSt) (n x cyc ph : Nat) (short : Bool) (op : CoreOp) (evict : List Nat) (ecc : Nat) : Dev :=
  if !(d0.coreRuns n x) || (op == .interrupt && !(d0.interrupts n x)) || (op != .interrupt && d0.instrWaits n x (if short then 2 else 4) op) then d0
  else
    let t := traceIx n x
    let d := (d0.traceCycles n t cyc).setCsr n x csrCYCLE ((d0.csrHeld n x csrCYCLE + cyc) % 2 ^ 64)
    let d := if x = 8 ∧ n < 8 then d.each evict (fun l d => d.writeBack n l) else d
    let pc := (d.getCore n x).pc
    let k := if short then 2 else 4
    let m := if isRv64 n x then 2 ^ 64 else 2 ^ 32
    let d := if op = .interrupt then d.trapEnter n x 11 0 true
      else match d.fetchOk n x k ecc with
        | (d, false) => d.trapEnter n x mcFETCH pc false
        | (d, true) =>
          match d.perform_ o n x ph ecc op with
          | (d, .trap cause tval) => d.trapEnter n x cause tval false
          | (d, .done target rd acc) =>
            let d := d.core n x (fun c => { c with
              pc := (target.getD (pc + k)) % m
              regs := match rd with | some (r, v) => if r = 0 then c.regs else vmod c.regs r (fun _ => BitVec.ofNat 64 (v % m)) | none => c.regs })
            (d.setCsr n x csrINSTRET ((d.csrHeld n x csrINSTRET + 1) % 2 ^ 64)).traceStep n t ⟨pc, target, none, acc⟩
    if d.fb (tctl n t) 30 && d.fb (tctl n t) 31 && decide (d0.traceLost n x < d.traceLost n x) then d0 else d

/-- CORE_SLEEP: WFI retires and the core's clock is gated (R464); an interrupt that stands enabled in mie lets it complete at once. -/
def coreSleep (d : Dev) (n x : Nat) : Dev :=
  if !(d.coreRuns n x) || (d.meip n x && (d.csrHeld n x csrIE).testBit 11) then d
  else
    let t := traceIx n x
    let pc := (d.getCore n x).pc
    let d := d.core n x (fun c => { c with pc := c.pc + 4, sleeping := true })
    ((d.setCsr n x csrINSTRET ((d.csrHeld n x csrINSTRET + 1) % 2 ^ 64)).traceStep n t ⟨pc, none, none, []⟩).traceSleep n t

/-- CORE_WAKE: a gated core runs again with an interrupt that is pending and enabled in mie (R269, R464). -/
def coreWake (d : Dev) (n x : Nat) : Dev :=
  if (d.getCore n x).sleeping && !d.held && d.meip n x && (d.csrHeld n x csrIE).testBit 11 then (d.core n x (fun c => { c with sleeping := false })).traceWake n (traceIx n x) else d

end Dev

/-- A write of a register (R540), BOOT.CMD.ADVANCE by the device controller included (R489). -/
def State.writeReg (s : State) (w : Writer) (lay off k v : Nat) : State :=
  let s' := { s with dev := s.dev.writeReg s.otp w lay off k v }
  if w.src = 10 ∧ lay = 8 ∧ off = Reg.BOOT.CMD.base ∧ k = 4 ∧ v % 2 = 1 ∧ !s.dev.held then s'.bootAdvance else s'

/-- Whether the instruction of a core is a store to BOOT.CMD that sets ADVANCE. -/
def Dev.advances (d : Dev) (n x : Nat) : CoreOp → Bool
  | .store a sz v => n == 8 && sz.val == 2 && v.toNat % 2 == 1 && d.place n x a.toNat == .view 8 Reg.BOOT.CMD.base
  | _ => false

/-- CORE_INSTRUCTION_RETIRE with the fuses that a write of BOOT.CMD blows. -/
def State.coreRetire (s : State) (n x cyc ph : Nat) (short : Bool) (op : CoreOp) (evict : List Nat) (ecc : Nat) : State :=
  let s' := { s with dev := s.dev.retire s.otp n x cyc ph short op evict ecc }
  if s.dev.advances n x op && s'.dev.csrHeld n x csrINSTRET != s.dev.csrHeld n x csrINSTRET then s'.bootAdvance else s'

end Sys2Proof.Machine
end

