-- ==== Sys2Proof/Machine/Ports.lean ====
section
/-! DEFINITION. The JTAG port (R528) and the SMBus port (R529). -/

namespace Sys2Proof.Machine

/-- The identification register (R528). -/
def idCode : Nat := 0xB09804F3

namespace Dev

/-- SMB_ALERT_N is asserted: SAFE, or the cause of a device reset, of a supply, of temperature or of the clock, stands in RSTCAUSE (R510,
R529). DEDUCED (log 65): it stands unread until it is cleared. -/
def smbAlert (d : Dev) : Bool := d.inSafe || d.fd Reg.PWR.RSTCAUSE.hubAt 5 2 != 0

/-- The level of a ball as a boundary cell captures it. What the model holds no level of reads a free value, the `k`-th. -/
def ballSample (d : Dev) (k : Nat) : Ball → Bool
  | .dio c => d.ballLevel c k
  | .trg n neg => d.trgIn n != neg
  | .tpo g => d.tpo g
  | .alert => !d.smbAlert
  | .smbAddr i => d.pins.smbAddr.testBit i
  | .resetN _ => true
  | .lane _ _ _ => Config.freeLevel (d.free + k) == 1
  | .serdes _ _ _ => Config.freeLevel (d.free + k) == 1
  | .clock _ => Config.freeLevel (d.free + k) == 1
  | .flash _ => Config.freeLevel (d.free + k) == 1
  | .jtag _ => Config.freeLevel (d.free + k) == 1
  | .smb _ => Config.freeLevel (d.free + k) == 1
  | .diode _ => Config.freeLevel (d.free + k) == 1

/-- The boundary register as it captures. -/
def capture (d : Dev) : Nat := (boundary.zipIdx.foldl (fun a p => if d.ballSample p.2 p.1 then a ||| 2 ^ p.2 else a) 0)

/-- Whether a ball belongs to a lane, PE or ETH pair, which IEEE 1149.6 tests with alternating levels. -/
def acBall : Ball → Bool
  | .lane _ _ _ => true
  | .serdes _ _ _ => true
  | .dio _ => false
  | .trg _ _ => false
  | .tpo _ => false
  | .alert => false
  | .smbAddr _ => false
  | .resetN _ => false
  | .clock _ => false
  | .flash _ => false
  | .jtag _ => false
  | .smb _ => false
  | .diode _ => false

/-- What an AC pair's ball is driven to under EXTEST_PULSE and EXTEST_TRAIN: its bit, inverted in every other TCK cycle of Run-Test/Idle
under TRAIN. -/
def acDrive (d : Dev) (b : Ball) : Option Bool :=
  if d.jtagDrives && acBall b then
    some (d.pins.bsr.testBit (bsBit b) != (d.pins.ins == .train && d.pins.tcks % 2 == 1))
  else none

/-- What the device drives at a signal ball: the boundary register under EXTEST and its AC forms (R528), else the cell, trigger, pulse or alert
output. none: not driven, or by a unit whose levels the model does not hold. -/
def ballDriven (d : Dev) (b : Ball) : Option Bool :=
  match d.acDrive b with
  | some v => some v
  | none =>
    match b with
    | .dio c => d.ownDrive c
    | .trg n neg => if d.jtagDrives then some (d.pins.bsr.testBit (bsBit b)) else if d.trgDriven n then some (d.trgOut n != neg) else none
    | .tpo g => some (if d.jtagDrives then d.pins.bsr.testBit (bsBit b) else d.tpo g)
    | .alert => if d.jtagDrives then some (d.pins.bsr.testBit (bsBit b)) else if d.smbAlert then some false else none
    | .flash _ => if d.jtagDrives then some (d.pins.bsr.testBit (bsBit b)) else none
    | .smbAddr _ => none
    | .resetN _ => none
    | .lane _ _ _ => none
    | .serdes _ _ _ => none
    | .clock _ => none
    | .jtag _ => none
    | .smb _ => none
    | .diode _ => none

/-- A scan of `n` bits through a register of `w` bits that captured `v`: what came out at TDO, and what the register then holds. -/
def scan (w v n tdi : Nat) : Nat × Nat :=
  let all := v % 2 ^ w + tdi % 2 ^ n * 2 ^ w
  (all % 2 ^ n, all / 2 ^ n % 2 ^ w)

/-- The bits that came out, as the data a command returns. -/
def tdo (d : Dev) (n v : Nat) : Dev :=
  { d with rdata := (toBytes ((n + 7) / 8) v).map (BitVec.ofNat 8), rstat := 0 }

/-- An instruction with a register of its own that keeps nothing: BYPASS and IDCODE. -/
def jtagPlain (d : Dev) (ins : JtagIns) (w v n tdi : Nat) : Dev :=
  let (out, reg) := scan w v n tdi
  (d.pin (fun p => { p with ins := ins, shift := reg, tcks := 0 })).tdo n out

/-- An instruction on the boundary register: capture, `n` bits shifted, update, then `idle` TCK cycles of Run-Test/Idle. A scan of no
bits leaves what was preloaded. -/
def jtagBoundary (d : Dev) (ins : JtagIns) (n tdi idle : Nat) : Dev :=
  let w := boundary.length
  let d := d.pin (fun p => { p with ins := ins })
  let (out, reg) := scan w d.capture n tdi
  let d := { d with free := d.free + w }
  (d.pin (fun p => { p with shift := reg, bsr := if n = 0 then p.bsr else reg, tcks := if ins = .train then idle % 2 else 0 })).tdo n out

/-! ### SMBus -/

/-- Whether the device takes a command sent to an SMBus address, its PEC absent or right (R529). -/
def smbTakes (d : Dev) (adr : Nat) (pec : Bool) : Bool := !d.held && pec && adr == 0x58 + d.pins.smbAddr % 8

def smbWriter : Writer := ⟨9, 0, 0⟩

/-- Command 0x01. -/
def smbSet (d : Dev) (adr : Nat) (pec : Bool) (a : Nat) : Dev :=
  if d.smbTakes adr pec then d.pin (fun p => { p with smbReg := a % 2 ^ 32 }) else d

/-- Command 0x02. -/
def smbRead (d : Dev) (adr : Nat) (pec : Bool) : Dev :=
  if d.smbTakes adr pec then
    let (d, v) := d.readBytes 0 8 (d.pins.smbReg / 4 * 4) 4
    { d with rdata := (toBytes 4 v).map (BitVec.ofNat 8), rstat := 0 }
  else d

/-- Command 0x03. -/
def smbWrite (d : Dev) (o : OtpSt) (adr : Nat) (pec : Bool) (v : Nat) : Dev :=
  if d.smbTakes adr pec then d.writeReg o smbWriter 8 d.pins.smbReg 4 v else d

/-- Command 0x04. -/
def smbStage (d : Dev) (adr : Nat) (pec : Bool) : Dev :=
  if d.smbTakes adr pec then { d with rdata := [BitVec.ofNat 8 (d.bootStage + 16 * b2n d.inSafe)], rstat := 0 } else d

end Dev

end Sys2Proof.Machine
end

