-- ==== Sys2Proof/Machine/Gates.lean ====
section
/-! DEFINITION. When a command takes effect: not while the device is held in reset, in a section only while it answers, at a hub
register only outside SAFE. A command that has no effect leaves the device as it stands. -/

namespace Sys2Proof.Machine

/-- A command of the device while it is not held in reset (R500, R505, R509). -/
def State.live (s : State) (f : Dev → Dev) : Out := s.act (fun d => d.when (!d.held) f)

/-- A command of section n while it is ON and not in soft reset (R507, R508). -/
def State.sect (s : State) (n : Nat) (f : Dev → Dev) : Out := s.act (fun d => d.when (!d.held && d.sectionOn n) f)

/-- A write of a hub register outside the blocks that answer in SAFE (R491). -/
def State.hubReg (s : State) (f : Dev → Dev) : Out := s.act (fun d => d.when (!d.held && !d.inSafe) f)

/-- A command of unit n: section n, or the hub for n = 8. -/
def State.unit (s : State) (n : Nat) (f : Dev → Dev) : Out := s.act (fun d => d.when (!d.held && (n == 8 || d.sectionOn n)) f)

/-- A command that acts on the fuses too, while the device is not held in reset. -/
def State.fuses (s : State) (f : State → State) : Out := .next (if s.dev.held then s else f s)

/-- The device with the bytes of a read as its answer. -/
def Dev.reply (r : Dev × Nat) (w : Nat) : Dev :=
  { r.1 with
    rdata := (toBytes w r.2).map (BitVec.ofNat 8)
    rstat := 0 }

/-- Errors given with a command: the place of a word, and 1 corrected or 2 uncorrectable (R194, R229). -/
def errPairs {k : Nat} (l : List (Fin k × Fin 3)) : List (Nat × Nat) := l.map (fun e => (e.1.val, e.2.val))

/-- A write of a register by a source that reaches the layout; from elsewhere the layout is out of reach (R540). -/
def State.portWrite (s : State) (w : Writer) (lay off k v : Nat) : State :=
  if Dev.reaches w lay then s.writeReg w lay off k v else s

/-- The queues that a service unit fills through QUEUE_WORD_WRITE, and those that it drains: the fabric is at their other ends (R222). -/
def unitFills (q : Nat) : Bool := decide ((8 ≤ q ∧ q ≤ 15) ∨ (32 ≤ q ∧ q ≤ 47) ∨ (56 ≤ q ∧ q ≤ 62))
def unitDrains (q : Nat) : Bool := decide (q ≤ 7 ∨ (16 ≤ q ∧ q ≤ 31) ∨ (48 ≤ q ∧ q ≤ 55))

/-- Whether an offset of a layout is the low or high half of a writable pair (R7). -/
def pairHalf (lay off : Nat) (high : Bool) : Bool :=
  let at_ := aliasOf lay off
  match (rowsAt at_.1 at_.2).bind (fun rows => findRow rows at_.2) with
  | some f => (f.row.wide || (decide (at_.1 < 8) && f.slot)) && f.row.writable && f.high == high
  | none => false

/-- A write of a half of a writable pair by the function whose layout it is. -/
def State.pairWrite (s : State) (lay off v : Nat) (high : Bool) : State :=
  if pairHalf lay off high then s.portWrite ⟨if lay = 8 then 0 else lay + 1, 0, 0⟩ lay off 4 v else s

namespace Dev

/-- REG_PAIR_LOW_READ: the register's bytes are the answer; one of DSTORE waits for a step without a tap (R278). -/
def portRead (d : Dev) (lay off size : Nat) : Dev :=
  match d.tapRead lay off size with
  | some r => (d.pathCount 0 lay off size).dstoreTap lay r
  | none => Dev.reply (d.readBytes 0 lay off size) size

/-- QUEUE_WORD_WRITE: words of a service producer, the last one marked where `eop` says so. Only the memory engine, the link receiver and the call
scheduler produce, into their queues, and they bring the packet's tally with its mark (R222). -/
def serviceWrite (d : Dev) (n q : Nat) (ws : List Nat) (eop : Bool) (tally : Option Nat) (poison integ : Bool) : Dev :=
  if !(unitFills q) || (eop && tally.isNone) then d else d.queueWrite n q (packetWords ws eop) ⟨tally, poison, integ⟩

end Dev

end Sys2Proof.Machine
end

