-- ==== Sys2Proof/Machine/ExecBoot.lean ====
section
/-! DEFINITION. What the commands of reset, boot and fuses do. -/

namespace Sys2Proof.Machine

open Dev

/-- PORST_N. PORST_N (R510). -/
def execPorstN (s : State) : Out :=
  .next (s.reset_ true rsPOR)

/-- SYSRST_N. SYSRST_N (R510). -/
def execSysrstN (s : State) : Out :=
  .next (s.reset_ false rsSYS)

/-- BOOT_STAGE_COMPLETE. The present boot stage completes (R488): for stage 0, outcome 1 says that the fuses fail their check; for stage 1, 0
that SFDP cannot be read, 3 that it declares 8D-8D-8D. -/
def execBootStageComplete (outcome : Fin 4) (s : State) : Out :=
  s.act (fun d => d.bootStep s.otp outcome.val)

/-- FLCMD_READ. FLCMD.GO with OP 1 (R492). -/
def execFlcmdRead (s : State) : Out :=
  s.live (fun d => d.flcmdWrite (2 ^ 31 + 1))

/-- FLCMD_PROGRAM. FLCMD.GO with OP 2 (R492). -/
def execFlcmdProgram (s : State) : Out :=
  s.live (fun d => d.flcmdWrite (2 ^ 31 + 2))

/-- FLCMD_ERASE. FLCMD.GO with OP 3 (R492). -/
def execFlcmdErase (s : State) : Out :=
  s.live (fun d => d.flcmdWrite (2 ^ 31 + 3))

/-- FLCMD_DONE. The flash operation completes, or fails (R492). -/
def execFlcmdDone (fail : Bool) (s : State) : Out :=
  s.live (fun d => d.flDone fail)

/-- OTP_PROGRAM_SLOT. OTPPROG.GO for a boot-key slot (R485). -/
def execOtpProgramSlot (alg : Fin 2) (slot : Fin 4) (s : State) : Out :=
  s.live (fun d => d.otpprogWrite s.otp (2 ^ 31 + alg.val * 16 + slot.val))

/-- OTP_PROGRAM_LOCK. OTPPROG.GO with LOCK (R485). -/
def execOtpProgramLock (s : State) : Out :=
  s.live (fun d => d.otpprogWrite s.otp (2 ^ 31 + 2 ^ 8))

/-- OTP_PROGRAM_DONE. The fuse programming completes, or fails (R490). -/
def execOtpProgramDone (fail : Bool) (s : State) : Out :=
  s.fuses (fun s => s.otpDone fail)

/-- BOOT_ADVANCE. The device controller writes BOOT.CMD.ADVANCE (R489). -/
def execBootAdvance (s : State) : Out :=
  s.fuses (fun s => s.bootAdvance)

/-- RESET_RELEASE. Every monitored supply has been above its threshold for 1 ms, or REFCLK has been present for 100 µs (R500). -/
def execResetRelease (clock : Bool) (s : State) : Out :=
  s.act (fun d => d.unhold (!clock) clock false)

end Sys2Proof.Machine
end

