-- ==== Sys2Proof/Machine/ExecCall.lean ====
section
/-! DEFINITION. What the commands of calls and cores do. -/

namespace Sys2Proof.Machine

open Dev

/-- CALL_PREFETCH. The scheduler fills the prefetch slot of core x (R256). -/
def execCallPrefetch (n : Fin 8) (x : Fin 8) (s : State) : Out :=
  s.sect n.val (fun d => d.prefetch n.val x.val)

/-- CALL_DISPATCH. The prefetched entry of core x becomes its call (R257). -/
def execCallDispatch (n : Fin 8) (x : Fin 8) (s : State) : Out :=
  s.sect n.val (fun d => d.dispatch n.val x.val)

/-- CALL_AGE_CHECK. The age check (R259). -/
def execCallAgeCheck (n : Fin 8) (s : State) : Out :=
  s.sect n.val (fun d => d.ageCheck n.val)

/-- HVCDONE. Core x writes hvcdone (R262). -/
def execHvcdone (n : Fin 8) (x : Fin 8) (s : State) : Out :=
  s.sect n.val (fun d => d.hvcDone n.val x.val)

/-- WATCHDOG_EXPIRY. The watchdog of core x (R262). -/
def execWatchdogExpiry (n : Fin 8) (x : Fin 8) (s : State) : Out :=
  s.sect n.val (fun d => d.watchdog n.val x.val)

/-- RETURN_ENQUEUE. The next completed blocking return enters queue 62 (R261). -/
def execReturnEnqueue (n : Fin 8) (s : State) : Out :=
  s.sect n.val (fun d => d.returnEnqueue n.val)

/-- CORECTL_WRITE. A write of CORECTL (R263). -/
def execCorectlWrite (n : Fin 8) (v : BitVec 32) (s : State) : Out :=
  s.sect n.val (fun d => d.corectlWrite n.val v.toNat)

/-- CRPOOL_WRITE. A write of CRPOOL of a cluster (R251). -/
def execCrpoolWrite (n : Fin 8) (cl : Fin 16) (v : BitVec 32) (s : State) : Out :=
  s.sect n.val (fun d => d.crpoolWrite n.val cl.val v.toNat)

/-- WRITEBACK_ERROR. The section controller writes back a dirty line, which memory may refuse (R273). -/
def execWritebackError (n : Fin 8) (line : BitVec 32) (s : State) : Out :=
  s.sect n.val (fun d => d.writeBack n.val line.toNat)

/-- CORE_INSTRUCTION_RETIRE. Core x of section n (8 its controller), or the device controller (n = 8), retires an instruction (R267 to R275,
R462). -/
def execCoreInstructionRetire (n : Fin 9) (x : Fin 9) (cyc : BitVec 16) (ph : Fin 4) (short : Bool) (op : CoreOp) (evict : List (BitVec 32)) (ecc : Fin 3) (s : State) : Out :=
  .next (s.coreRetire n.val x.val cyc.toNat ph.val short op (evict.map BitVec.toNat) ecc.val)

end Sys2Proof.Machine
end

