-- ==== Sys2Proof/Machine/ExecCapt.lean ====
section
/-! DEFINITION. What the commands of capture do. -/

namespace Sys2Proof.Machine

open Dev

/-- CAPT_ARM. CAPT.CTL.ARM (R283). -/
def execCaptArm (n : Fin 8) (ph : Fin 4) (s : State) : Out :=
  s.sect n.val (fun d => d.capArm n.val ph.val)

/-- CAPT_DISARM. CAPT.CTL.DISARM (R308). -/
def execCaptDisarm (n : Fin 8) (ph : Fin 4) (s : State) : Out :=
  s.sect n.val (fun d => d.capDisarm n.val ph.val)

/-- CAPT_FORCE. CAPT.CTL.FORCE (R295). -/
def execCaptForce (n : Fin 8) (s : State) : Out :=
  s.sect n.val (fun d => d.capForce n.val)

/-- ROW_EVALUATE. The oldest complete row is evaluated (R279). `written`: items of the write path that reach memory first. -/
def execRowEvaluate (n : Fin 8) (ph : Fin 4) (written : BitVec 16) (s : State) : Out :=
  s.sect n.val (fun d => d.rowEvaluate n.val ph.val written.toNat)

/-- SEQUENCER_REARM. The hold-off ends (R286). -/
def execSequencerRearm (n : Fin 8) (ph : Fin 4) (s : State) : Out :=
  s.sect n.val (fun d => d.capRearm n.val ph.val)

/-- HEADER_WRITE_DONE. A record header is written (R288). -/
def execHeaderWriteDone (n : Fin 8) (s : State) : Out :=
  s.sect n.val (fun d => d.headerDone n.val)

/-- CAPT_STORE_ERROR. A storage write is refused (R290). -/
def execCaptStoreError (n : Fin 8) (ph : Fin 4) (s : State) : Out :=
  s.sect n.val (fun d => d.capStoreError n.val ph.val)

/-- ACTCTL_WRITE. A write of ACTCTL (R302). -/
def execActctlWrite (n : Fin 8) (v : BitVec 32) (s : State) : Out :=
  s.sect n.val (fun d => d.actctlWrite n.val v.toNat)

/-- TRG_EDGE. An edge at TRG ball x, or the end of a capture pulse on bus line x − 16 (R305). -/
def execTrgEdge (x : Fin 24) (up : Bool) (s : State) : Out :=
  s.live (fun d => d.trgEdge x.val up)

end Sys2Proof.Machine
end

