-- ==== Sys2Proof/Machine/ExecDma.lean ====
section
/-! DEFINITION. What the commands of DMA do. -/

namespace Sys2Proof.Machine

open Dev

/-- DMA_GO. CTL.GO of channel c of section n, or of the hub (n = 8, channels 0 and 1) (R439). -/
def execDmaGo (n : Fin 9) (c : Fin 4) (dspace : Bool) (vec : Fin 64) (s : State) : Out :=
  s.unit n.val (fun d => d.dmaCtlWrite n.val c.val (2 ^ 31 + b2n dspace * 256 + vec.val))

/-- DMA_HALT. CTL.HALT (R436). -/
def execDmaHalt (n : Fin 9) (c : Fin 4) (dspace : Bool) (vec : Fin 64) (s : State) : Out :=
  s.unit n.val (fun d => d.dmaCtlWrite n.val c.val (2 ^ 30 + b2n dspace * 256 + vec.val))

/-- DMA_WDRAW. CTL.WDRAW (R437). -/
def execDmaWdraw (n : Fin 9) (c : Fin 4) (dspace : Bool) (vec : Fin 64) (s : State) : Out :=
  s.unit n.val (fun d => d.dmaCtlWrite n.val c.val (2 ^ 29 + b2n dspace * 256 + vec.val))

/-- DMA_DOORBELL. A write of DOORBELL (R434). -/
def execDmaDoorbell (n : Fin 9) (c : Fin 4) (s : State) : Out :=
  s.unit n.val (fun d => d.dmaDoorbell n.val c.val)

/-- DESCRIPTOR_FETCHED. The descriptor at DESC is fetched (R431). -/
def execDescriptorFetched (n : Fin 9) (c : Fin 4) (s : State) : Out :=
  s.unit n.val (fun d => d.dmaFetched n.val c.val)

/-- DMA_BURST_DONE. A burst completes (R432). `errs`: halfword errors by place in the burst; `eps`: the lines that come poisoned from the host. -/
def execDmaBurstDone (n : Fin 9) (c : Fin 4) (errs : List (Fin 2048 × Fin 3)) (eps : List (Fin 64)) (s : State) : Out :=
  s.unit n.val (fun d => d.dmaBurst n.val c.val (errPairs errs) (eps.map Fin.val))

/-- READBACK_DONE. The read-back returns (R433). -/
def execReadbackDone (n : Fin 9) (c : Fin 4) (s : State) : Out :=
  s.unit n.val (fun d => d.dmaReadback n.val c.val)

/-- NEXT_WORD_READ. The NEXT word is read again (R434). -/
def execNextWordRead (n : Fin 9) (c : Fin 4) (s : State) : Out :=
  s.unit n.val (fun d => d.dmaNextWord n.val c.val)

/-- DMA_TRANSFER_ERROR. Host memory fails line k of a burst, or another read of the channel (R438). -/
def execDmaTransferError (n : Fin 9) (c : Fin 4) (k : Fin 64) (errs : List (Fin 2048 × Fin 3)) (s : State) : Out :=
  s.unit n.val (fun d => d.dmaHostError n.val c.val k.val (errPairs errs))

end Sys2Proof.Machine
end

