-- ==== Sys2Proof/Machine/ExecFabric.lean ====
section
/-! DEFINITION. What the commands of the fabric: instructions, returns, memory accesses, slots and pins do. -/

namespace Sys2Proof.Machine

open Dev

/-- EXECUTE_STEP. One executed step of the run group of section n (R34). `ph` counts step clocks since the last tick of TIME. -/
def execExecuteStep (n : Fin 8) (ph : Fin 4) (s : State) : Out :=
  s.sect n.val (fun d => d.executeStep n.val ph.val)

/-- NOP. NOP on BP bp of a course in the coming step (R47). -/
def execNop (n : Fin 8) (cl : Fin 16) (crs : Fin 64) (bp : Fin 12) (s : State) : Out :=
  s.sect n.val (fun d => d.opEvent n.val cl.val crs.val bp.val opNOP [])

/-- LUT4. LUT4 on BP bp of a course in the coming step (R48). -/
def execLut4 (n : Fin 8) (cl : Fin 16) (crs : Fin 64) (bp : Fin 12) (s : State) : Out :=
  s.sect n.val (fun d => d.opEvent n.val cl.val crs.val bp.val opLUT4 [])

/-- LUT4E. LUT4E on BP bp of a course in the coming step (R49). -/
def execLut4e (n : Fin 8) (cl : Fin 16) (crs : Fin 64) (bp : Fin 12) (s : State) : Out :=
  s.sect n.val (fun d => d.opEvent n.val cl.val crs.val bp.val opLUT4E [])

/-- MUXG. MUXG on BP bp of a course in the coming step (R51). -/
def execMuxg (n : Fin 8) (cl : Fin 16) (crs : Fin 64) (bp : Fin 12) (s : State) : Out :=
  s.sect n.val (fun d => d.opEvent n.val cl.val crs.val bp.val opMUXG [])

/-- MUXR. MUXR on BP bp of a course in the coming step (R52). -/
def execMuxr (n : Fin 8) (cl : Fin 16) (crs : Fin 64) (bp : Fin 12) (s : State) : Out :=
  s.sect n.val (fun d => d.opEvent n.val cl.val crs.val bp.val opMUXR [])

/-- MRD. MRD on BP0 of a course in the coming step (R63). -/
def execMrd (n : Fin 8) (cl : Fin 16) (crs : Fin 64) (s : State) : Out :=
  s.sect n.val (fun d => d.opEvent n.val cl.val crs.val 0 opMRD [])

/-- MWR. MWR on BP0 of a course in the coming step (R63). -/
def execMwr (n : Fin 8) (cl : Fin 16) (crs : Fin 64) (s : State) : Out :=
  s.sect n.val (fun d => d.opEvent n.val cl.val crs.val 0 opMWR [])

/-- QRD. QRD on BP0 of a course in the coming step (R62). `errs` are the bank errors that its words meet (R229): place and 1 corrected, 2 not. -/
def execQrd (n : Fin 8) (cl : Fin 16) (crs : Fin 64) (errs : List (Fin 1024 × Fin 3)) (s : State) : Out :=
  s.sect n.val (fun d => d.opEvent n.val cl.val crs.val 0 opQRD (errPairs errs))

/-- QWR. QWR on BP0 of a course in the coming step (R62). -/
def execQwr (n : Fin 8) (cl : Fin 16) (crs : Fin 64) (s : State) : Out :=
  s.sect n.val (fun d => d.opEvent n.val cl.val crs.val 0 opQWR [])

/-- CALL. CALL on BP0 of a course in the coming step (R64). -/
def execCall (n : Fin 8) (cl : Fin 16) (crs : Fin 64) (s : State) : Out :=
  s.sect n.val (fun d => d.opEvent n.val cl.val crs.val 0 opCALL [])

/-- DIGEST. DIGEST on BP0 of a course in the coming step (R65). -/
def execDigest (n : Fin 8) (cl : Fin 16) (crs : Fin 64) (s : State) : Out :=
  s.sect n.val (fun d => d.opEvent n.val cl.val crs.val 0 opDIGEST [])

/-- QRD_RETURN. The return of a QRD that is due on RET of a course (R59). -/
def execQrdReturn (n : Fin 8) (cl : Fin 16) (crs : Fin 64) (s : State) : Out :=
  s.sect n.val (fun d => d.scheduledReturn n.val cl.val crs.val .qrd)

/-- HOME_PATH_ACCESS. The home path of a cluster performs its access (R199). `ecc`: 1 corrected, 2 uncorrectable error. -/
def execHomePathAccess (n : Fin 8) (cl : Fin 16) (ecc : Fin 3) (s : State) : Out :=
  s.sect n.val (fun d => d.homePathAccess n.val cl.val ecc.val)

/-- HOME_MRD_RETURN. The return of an MRD with HOME = 1 that is due on RET of a course (R59). -/
def execHomeMrdReturn (n : Fin 8) (cl : Fin 16) (crs : Fin 64) (s : State) : Out :=
  s.sect n.val (fun d => d.scheduledReturn n.val cl.val crs.val .home)

/-- NONHOME_BANK_ACCESS. The oldest non-home access of a cluster is performed at its bank after `lost` lost arbitrations (R200, R198). -/
def execNonhomeBankAccess (n : Fin 8) (cl : Fin 16) (lost : Fin 128) (ecc : Fin 3) (s : State) : Out :=
  s.sect n.val (fun d => d.nonhomeAccess n.val cl.val lost.val ecc.val)

/-- NONHOME_RETURN. The return of an MRD with HOME = 0 reaches its course (R84). -/
def execNonhomeReturn (n : Fin 8) (cl : Fin 16) (crs : Fin 64) (s : State) : Out :=
  s.sect n.val (fun d => d.nonhomeReturn n.val cl.val crs.val)

/-- CLUSTER_SLOT_READ. Entry p of course crs in the slot row of the coming step reads its source (R99). -/
def execClusterSlotRead (n : Fin 8) (cl : Fin 16) (crs : Fin 64) (p : Fin 2) (ecc : Fin 3) (s : State) : Out :=
  s.sect n.val (fun d => d.clusterSlotRead n.val cl.val crs.val p.val ecc.val)

/-- CLUSTER_SLOT_WRITE. The transfer due through CLp of a course is written (R99). -/
def execClusterSlotWrite (n : Fin 8) (cl : Fin 16) (crs : Fin 64) (p : Fin 2) (s : State) : Out :=
  s.sect n.val (fun d => d.clusterSlotWrite n.val cl.val crs.val p.val)

/-- EXPORT_SLOT_READ. Export entry e of the slot row of the coming step reads its source (R109). -/
def execExportSlotRead (n : Fin 8) (cl : Fin 16) (e : Fin 16) (ecc : Fin 3) (s : State) : Out :=
  s.sect n.val (fun d => d.exportSlotRead n.val cl.val e.val ecc.val)

/-- EXPORT_SLOT_WRITE. The transfer due through GBp of a course is written (R116). -/
def execExportSlotWrite (n : Fin 8) (cl : Fin 16) (crs : Fin 64) (p : Fin 2) (s : State) : Out :=
  s.sect n.val (fun d => d.exportSlotWrite n.val cl.val crs.val p.val)

/-- INPUT_PIN_SAMPLE. The input records of the coming step are sampled (R523); the board drives the cells of `mask` to `level`. -/
def execInputPinSample (n : Fin 8) (mask : BitVec 12) (level : BitVec 12) (s : State) : Out :=
  s.sect n.val (fun d => d.inputPinSample n.val mask.toNat level.toNat)

/-- OUTPUT_UPDATE. The output record of cell bp of section n in the coming step loads the output register (R524). -/
def execOutputUpdate (n : Fin 8) (bp : Fin 12) (s : State) : Out :=
  s.sect n.val (fun d => d.outputUpdate n.val bp.val)

/-- OUTPUT_BALL_CHANGE. The ball of DIO cell c takes the level of its output register (R524). -/
def execOutputBallChange (c : Fin 96) (s : State) : Out :=
  s.live (fun d => d.ballChange c.val)

end Sys2Proof.Machine
end

