-- ==== Sys2Proof/Machine/ExecHost.lean ====
section
/-! DEFINITION. What the commands of the host port do. -/

namespace Sys2Proof.Machine

open Dev

/-- OPEN. HHP OPEN of function f (R422). -/
def execOpenCmd (f : Fin 9) (s : State) : Out :=
  s.live (fun d => d.hhpOpen f.val)

/-- CLOSE. HHP CLOSE (R428). -/
def execCloseCmd (f : Fin 9) (s : State) : Out :=
  s.live (fun d => d.hhpShort f.val ocCLOSE 0)

/-- HHP_START. HHP START of function f (R424). -/
def execHhpStart (f : Fin 9) (s : State) : Out :=
  s.live (fun d => d.hhpRun f.val 0x20)

/-- HHP_PAUSE. HHP PAUSE of function f (R424). -/
def execHhpPause (f : Fin 9) (s : State) : Out :=
  s.live (fun d => d.hhpRun f.val 0x21)

/-- HHP_RESUME. HHP RESUME of function f (R424). -/
def execHhpResume (f : Fin 9) (s : State) : Out :=
  s.live (fun d => d.hhpRun f.val 0x22)

/-- HHP_STEP. HHP STEP of function f (R424). -/
def execHhpStep (f : Fin 9) (s : State) : Out :=
  s.live (fun d => d.hhpRun f.val 0x23)

/-- HHP_STOP. HHP STOP of function f (R424). -/
def execHhpStop (f : Fin 9) (s : State) : Out :=
  s.live (fun d => d.hhpRun f.val 0x24)

/-- HHP_RESTART. HHP RESTART of function f (R424). -/
def execHhpRestart (f : Fin 9) (s : State) : Out :=
  s.live (fun d => d.hhpRun f.val 0x25)

/-- QUEUE_RESET. HHP QUEUE_RESET (R239). -/
def execQueueReset (f : Fin 9) (s : State) : Out :=
  s.live (fun d => d.hhpShort f.val ocQRESET 0)

/-- CAPTURE_ARM. HHP CAPTURE_ARM (R306). -/
def execCaptureArm (f : Fin 9) (ph : Fin 4) (s : State) : Out :=
  s.live (fun d => d.hhpShort f.val ocCARM ph.val)

/-- CAPTURE_DISARM. HHP CAPTURE_DISARM (R306). -/
def execCaptureDisarm (f : Fin 9) (ph : Fin 4) (s : State) : Out :=
  s.live (fun d => d.hhpShort f.val ocCDISARM ph.val)

/-- READ_FAULTS. HHP READ_FAULTS (R424). -/
def execReadFaults (f : Fin 9) (s : State) : Out :=
  s.live (fun d => d.hhpShort f.val ocFAULTS 0)

/-- TIME_SET. HHP TIME_SET (R424). -/
def execTimeSet (f : Fin 9) (s : State) : Out :=
  s.live (fun d => d.hhpShort f.val ocTIME 0)

/-- ATTEST. HHP ATTEST (R495). `err`: its buffer cannot be written. -/
def execAttest (f : Fin 9) (err : Bool) (s : State) : Out :=
  s.live (fun d => d.hhpAttest f.val err)

/-- SYSTEM_STATUS. HHP SYSTEM_STATUS (R426). `err`: its buffer cannot be written. -/
def execSystemStatus (f : Fin 9) (err : Bool) (s : State) : Out :=
  s.live (fun d => d.hhpStatus f.val err)

/-- HQ_ENABLE. HQ CTL.EN (R413). -/
def execHqEnable (f : Fin 9) (s : State) : Out :=
  s.live (fun d => d.hqCtlWrite f.val 1)

/-- CMDTAIL_WRITE. A write of CMDTAIL (R414). -/
def execCmdtailWrite (f : Fin 9) (v : BitVec 32) (s : State) : Out :=
  s.live (fun d => d.cmdtailWrite f.val v.toNat)

/-- COMMAND_FETCH. A command entry is fetched (R414). `err`: the access fails. -/
def execCommandFetch (f : Fin 9) (err : Bool) (s : State) : Out :=
  s.live (fun d => d.commandFetch f.val err)

/-- CPLHEAD_WRITE. A write of CPLHEAD (R415). -/
def execCplheadWrite (f : Fin 9) (v : BitVec 32) (s : State) : Out :=
  s.live (fun d => d.cplheadWrite f.val v.toNat)

/-- MSIX_COALESCE_TIMEOUT. COALT µs after the first unsignalled entry of a vector (R418). -/
def execMsixCoalesceTimeout (f : Fin 9) (vec : Fin 64) (s : State) : Out :=
  s.live (fun d => d.coalesceTimeout f.val vec.val)

/-- BAR2_WRITE. A posted write to BAR2 of section n (R409). `ep`: the packet is poisoned; `errs`: halfword errors met where it writes in part. -/
def execBar2Write (n : Fin 8) (off : BitVec 28) (bs : List (BitVec 8)) (ep : Bool) (errs : List (Fin 2048 × Fin 3)) (s : State) : Out :=
  s.live (fun d => d.bar2Write n.val off.toNat (bs.map BitVec.toNat) ep (errPairs errs))

/-- BAR2_READ. A read of BAR2 of section n (R409). -/
def execBar2Read (n : Fin 8) (off : BitVec 28) (len : Fin 4097) (errs : List (Fin 2048 × Fin 3)) (lat : BitVec 16) (s : State) : Out :=
  s.live (fun d => d.bar2Read n.val off.toNat len.val (errPairs errs) lat.toNat)

/-- FLR. A function level reset (R428). -/
def execFlr (f : Fin 9) (s : State) : Out :=
  s.live (fun d => d.flr f.val)

/-- HOT_RESET. A hot reset, or the link going down (R510). -/
def execHotReset (s : State) : Out :=
  s.live (fun d => d.hotReset)

end Sys2Proof.Machine
end

