-- ==== Sys2Proof/Machine/ExecLink.lean ====
section
/-! DEFINITION. What the commands of lanes and links do. -/

namespace Sys2Proof.Machine

open Dev

/-- LANE_TRAIN. LANE.CTL.TRAIN (R361). -/
def execLaneTrain (l : Fin 256) (s : State) : Out :=
  s.hubReg (fun d => d.laneTrain l.val)

/-- LANE_DISABLE. LANE.CTL.DISABLE (R364). -/
def execLaneDisable (l : Fin 256) (s : State) : Out :=
  s.hubReg (fun d => d.laneDisable l.val)

/-- CDR_LOCK. The CDR of a lane locks (R361). -/
def execCdrLock (l : Fin 256) (s : State) : Out :=
  s.live (fun d => d.cdrLock l.val)

/-- COMMA_LOCK. The bits at the next expected comma position; three matches lock (R346). -/
def execCommaLock (l : Fin 256) (w : BitVec 40) (s : State) : Out :=
  s.live (fun d => d.commaLock l.val w.toNat)

/-- COMMA_LOSS. The bits at the expected comma position under lock; four consecutive misses lose it (R346). -/
def execCommaLoss (l : Fin 256) (w : BitVec 40) (s : State) : Out :=
  s.live (fun d => d.commaLoss l.val w.toNat)

/-- FEC_LOCK. Eight consecutive correctable codewords (R346). -/
def execFecLock (l : Fin 256) (s : State) : Out :=
  s.live (fun d => d.fecLock l.val)

/-- FEC_LOSS. 32 consecutive uncorrectable codewords (R346). -/
def execFecLoss (l : Fin 256) (s : State) : Out :=
  s.live (fun d => d.fecLoss l.val)

/-- TLV_EXCHANGE_DONE. TLVs are exchanged on every lane of the bundle (R363); `rtt` is the round trip measured. -/
def execTlvExchangeDone (l : Fin 256) (rtt : BitVec 32) (s : State) : Out :=
  s.live (fun d => d.tlvDone l.val rtt.toNat)

/-- FRAME_END_CHECK. The end of frame f of a period (R347). -/
def execFrameEndCheck (l : Fin 256) (f : Fin 64) (area : BitVec 20544) (hop : BitVec 16) (fixed : BitVec 16) (bad : BitVec 4) (s : State) : Out :=
  s.live (fun d => d.frameEnd l.val f.val area.toNat hop.toNat fixed.toNat bad)

/-- NAK_RESEND_TIMEOUT. 4 µs after a NAK (R359). -/
def execNakResendTimeout (l : Fin 256) (s : State) : Out :=
  s.live (fun d => d.nakTimeout l.val)

/-- NAK_RECEIVE. The flit at the front of the lane is a NAK (R360). -/
def execNakReceive (l : Fin 256) (s : State) : Out :=
  s.live (fun d => d.nakFlit l.val)

/-- LINK_FLIT_RECEIVE. The flit at the front of the lane is a LINK flit (R356). -/
def execLinkFlitReceive (l : Fin 256) (s : State) : Out :=
  s.live (fun d => d.linkFlit l.val)

/-- IDLE_FLIT_RECEIVE. The flit at the front of the lane is an IDLE flit (R349). -/
def execIdleFlitReceive (l : Fin 256) (s : State) : Out :=
  s.live (fun d => d.idleFlit l.val)

/-- TLV_FLIT_RECEIVE. The flit at the front of the lane is a TLV flit (R350). -/
def execTlvFlitReceive (l : Fin 256) (s : State) : Out :=
  s.live (fun d => d.tlvFlit l.val)

/-- PACKET_FLIT_RECEIVE. The next sequenced flit of the bundle of lane l (R352). -/
def execPacketFlitReceive (l : Fin 256) (s : State) : Out :=
  s.live (fun d => d.packetFlit l.val)

/-- FLIT_TRANSMIT. One flit slot of lane l (R353), `sub` eighths of a nanosecond after the last tick. -/
def execFlitTransmit (l : Fin 256) (sub : Fin 32) (s : State) : Out :=
  s.live (fun d => d.flitTransmit l.val (sub.val : Int))

/-- TRAIN_TIMEOUT. 100 ms after TRAIN (R361). -/
def execTrainTimeout (l : Fin 256) (s : State) : Out :=
  s.live (fun d => d.trainTimeout l.val)

/-- TRAIN_RETRY. 10 ms after a failure, with AUTO = 1 (R361). -/
def execTrainRetry (l : Fin 256) (s : State) : Out :=
  s.live (fun d => d.trainRetry l.val)

/-- LANE_EQ_WRITE. A write of EQTX (0), EQRX (1) or QCTL (2) (R342). -/
def execLaneEqWrite (l : Fin 256) (which : Fin 3) (v : BitVec 32) (s : State) : Out :=
  s.hubReg (fun d => d.laneEqWrite l.val which.val v.toNat)

/-- LANE_TEST. A write of CTL.TEST (R366). -/
def execLaneTest (l : Fin 256) (on : Bool) (s : State) : Out :=
  s.hubReg (fun d => d.laneTest l.val on)

/-- LANE_LOOP. A write of CTL.LOOP (R368). -/
def execLaneLoop (l : Fin 256) (mode : Fin 4) (s : State) : Out :=
  s.hubReg (fun d => d.laneLoop l.val mode.val)

/-- INJECT_GO. INJ.GO with the mode and burst that INJ holds (R367). -/
def execInjectGo (l : Fin 256) (s : State) : Out :=
  s.hubReg (fun d => d.injectGo l.val)

/-- EYE_SCAN_START. ESCTL.START (R369). -/
def execEyeScanStart (l : Fin 256) (s : State) : Out :=
  s.hubReg (fun d => d.eyeStart l.val)

/-- EYE_SCAN_DONE. An eye-scan point completes (R369). -/
def execEyeScanDone (l : Fin 256) (count : BitVec 64) (s : State) : Out :=
  s.live (fun d => d.eyeDone l.val count.toNat)

/-- LANE_PLL_UNLOCK. The PLL of a quad unlocks (R509). -/
def execLanePllUnlock (q : Fin 64) (s : State) : Out :=
  s.live (fun d => d.quadPllLost q.val)

/-- PRBS_CHECKER_LOCK. Bits arrive at the PRBS checker of a lane in TEST (R366). -/
def execPrbsCheckerLock (l : Fin 256) (bs : List Bool) (s : State) : Out :=
  s.live (fun d => d.prbsCheck l.val bs)

end Sys2Proof.Machine
end

