-- ==== Sys2Proof/Machine/ExecLoad.lean ====
section
/-! DEFINITION. What the commands of loads, clocks, cluster resets and stores do. -/

namespace Sys2Proof.Machine

open Dev

/-- LOAD_IMAGE. HHP LOAD_IMAGE of function f (R176). `err`: its buffer cannot be read. -/
def execLoadImage (f : Fin 9) (err : Bool) (s : State) : Out :=
  s.live (fun d => d.hhpLoad f.val err)

/-- LOAD_PASS1_COMPLETE. Pass 1 of the load in progress completes (R176). -/
def execLoadPass1Complete (s : State) : Out :=
  s.live (fun d => d.loadPass1Done)

/-- LOAD_PASS2_COMPLETE. Pass 2 of the load in progress completes (R176). -/
def execLoadPass2Complete (s : State) : Out :=
  s.live (fun d => d.loadPass2Done)

/-- COMMIT. HHP COMMIT of function f (R178). -/
def execCommit (f : Fin 9) (ph : Fin 4) (s : State) : Out :=
  s.live (fun d => d.hhpShort f.val ocCOMMIT ph.val)

/-- AUTOSTART_LOAD. The autostart image (R493). -/
def execAutostartLoad (s : State) : Out :=
  s.live (fun d => d.autostartLoad)

/-- CLKCTL_WRITE. A write of CLKCTL of a cluster (R129). -/
def execClkctlWrite (n : Fin 8) (cl : Fin 16) (v : BitVec 32) (s : State) : Out :=
  s.sect n.val (fun d => d.clkctlWrite n.val cl.val v.toNat)

/-- CLOCK_CHANGE_DONE. A clock change of a cluster completes (R128). -/
def execClockChangeDone (n : Fin 8) (cl : Fin 16) (s : State) : Out :=
  s.sect n.val (fun d => d.clockDone n.val cl.val)

/-- CRST. RSTCTL.CRST of a cluster (R132). -/
def execCrst (n : Fin 8) (cl : Fin 16) (s : State) : Out :=
  s.sect n.val (fun d => d.crst n.val cl.val)

/-- CLUSTER_RESET_DONE. A cluster reset completes (R132). -/
def execClusterResetDone (n : Fin 8) (cl : Fin 16) (s : State) : Out :=
  s.sect n.val (fun d => d.clusterResetDone n.val cl.val)

/-- DSTORE_WRITE. A write of a DSTORE word (R97). -/
def execDstoreWrite (n : Fin 8) (cl : Fin 16) (crs : Fin 64) (w : Fin 1024) (v : BitVec 32) (s : State) : Out :=
  s.sect n.val (fun d => d.dstoreWrite n.val cl.val crs.val w.val v.toNat)

/-- DSTORE_READ. A read of a DSTORE word; while RUNNING it waits for a step in which the tap port of the cluster takes no tap (R278). -/
def execDstoreRead (n : Fin 8) (cl : Fin 16) (crs : Fin 64) (w : Fin 1024) (s : State) : Out :=
  s.sect n.val (fun d => d.dstoreTap n.val ⟨cl.val, crs.val, w.val, 0, 4⟩)

/-- CODE_WORD_STAGE. A write of word +0x0 or +0x4 of a CODE slot (R70). -/
def execCodeWordStage (n : Fin 8) (pos : Fin 2) (slot : Fin 393216) (v : BitVec 32) (s : State) : Out :=
  s.sect n.val (fun d => d.codeWrite n.val (16 * slot.val + 4 * pos.val) v.toNat)

/-- CODE_INSTRUCTION_STORE. A write of word +0x8 of a CODE slot (R70). -/
def execCodeInstructionStore (n : Fin 8) (slot : Fin 393216) (v : BitVec 32) (s : State) : Out :=
  s.sect n.val (fun d => d.codeWrite n.val (16 * slot.val + 8) v.toNat)

end Sys2Proof.Machine
end

