-- ==== Sys2Proof/Machine/ExecMem.lean ====
section
/-! DEFINITION. What the commands of section memory do. -/

namespace Sys2Proof.Machine

open Dev

/-- SERVICE_ACCESS. A service master reads `len` bytes, or writes `bs` where it is not empty (R206). `errs` are the errors of its halfwords: place
and 1 corrected, 2 not (R194); `lat` is the latency in cycles (R447). -/
def execServiceAccess (n : Fin 8) (m : Fin 31) (a : BitVec 38) (len : Fin 65) (bs : List (BitVec 8)) (errs : List (Fin 2048 × Fin 3)) (lat : BitVec 16)
    (s : State) : Out :=
  s.sect n.val (fun d => d.serviceAccess n.val m.val a.toNat len.val (bs.map BitVec.toNat) (errPairs errs) lat.toNat)

/-- REQUEST_URGENT. The waiting request of master m has lost 64 consecutive arbitrations at its bank, bank b for a service master (R198). -/
def execRequestUrgent (n : Fin 8) (m : Fin 31) (b : Fin 16) (s : State) : Out :=
  s.sect n.val (fun d => d.requestUrgent n.val m.val b.val)

/-- BANKPWR_WRITE. A write of BANKPWR (R209). -/
def execBankpwrWrite (n : Fin 8) (v : BitVec 32) (s : State) : Out :=
  s.sect n.val (fun d => d.bankpwrWrite n.val v.toNat)

/-- BANK_POWER_DONE. A bank transition completes (R209). -/
def execBankPowerDone (n : Fin 8) (b : Fin 16) (s : State) : Out :=
  s.sect n.val (fun d => d.bankDone n.val b.val)

/-- FABRIC_HBM_REQUEST. The memory engine takes a request packet of queue q (R219). `ue`: lines it reads that cannot be corrected; `errs`:
bank errors of the queue. -/
def execFabricHbmRequest (n : Fin 8) (q : Fin 8) (ue : BitVec 32) (errs : List (Fin 1024 × Fin 3)) (s : State) : Out :=
  s.sect n.val (fun d => d.hbmRequest n.val q.val ue.toNat (errPairs errs))

/-- HBM_REQUEST_COMPLETE. A response of request queue q enters queue q + 8 (R217). -/
def execHbmRequestComplete (n : Fin 8) (q : Fin 8) (s : State) : Out :=
  s.sect n.val (fun d => d.hbmComplete n.val q.val)

/-- HBM_REFRESH_RATE_CHANGE. The temperature of a stack passes 85 °C (R212). -/
def execHbmRefreshRateChange (k : Fin 2) (hot : Bool) (s : State) : Out :=
  s.live (fun d => d.refreshRate k.val hot)

end Sys2Proof.Machine
end

