-- ==== Sys2Proof/Machine/ExecNoc.lean ====
section
/-! DEFINITION. What the commands of the service network do. -/

namespace Sys2Proof.Machine

open Dev

/-- RTCMD_SWAP. RTCMD.SWAP (R449). -/
def execRtcmdSwap (n : Fin 8) (s : State) : Out :=
  s.sect n.val (fun d => d.rtcmdWrite n.val (2 ^ 31))

/-- SWAP_DRAINED. Every named port has drained (R449). -/
def execSwapDrained (n : Fin 8) (s : State) : Out :=
  s.sect n.val (fun d => d.swapDrained n.val)

/-- SWAP_DRAIN_TIMEOUT. Port p has not drained in time (R450). -/
def execSwapDrainTimeout (n : Fin 8) (p : Fin 45) (s : State) : Out :=
  s.sect n.val (fun d => d.swapTimeout n.val p.val)

/-- PACKET_URGENT. A request of initiator ini has lost 256 arbitrations at one port (R446). -/
def execPacketUrgent (n : Fin 8) (ini : Fin 16) (s : State) : Out :=
  s.sect n.val (fun d => d.packetUrgent n.val ini.val)

/-- STCTL_CLR. A write of STCTL with CLR set (R448). -/
def execStctlClr (n : Fin 8) (v : BitVec 32) (s : State) : Out :=
  s.sect n.val (fun d => d.stctlWrite n.val (v.toNat ||| 2 ^ 30))

end Sys2Proof.Machine
end

