-- ==== Sys2Proof/Machine/ExecPort.lean ====
section
/-! DEFINITION. What the commands of JTAG and SMBus do. -/

namespace Sys2Proof.Machine

open Dev

/-- BYPASS. JTAG BYPASS and a scan of `len` bits (R528). -/
def execBypass (len : Fin 4096) (tdi : Nat) (s : State) : Out :=
  s.act (fun d => d.jtagPlain .bypass 1 0 len.val tdi)

/-- IDCODE. JTAG IDCODE and a scan of `len` bits (R528). -/
def execIdcode (len : Fin 4096) (tdi : Nat) (s : State) : Out :=
  s.act (fun d => d.jtagPlain .idcode 32 idCode len.val tdi)

/-- SAMPLE_PRELOAD. JTAG SAMPLE/PRELOAD and a scan (R528). -/
def execSamplePreload (len : Fin 4096) (tdi : Nat) (s : State) : Out :=
  s.act (fun d => d.jtagBoundary .sample len.val tdi 0)

/-- EXTEST. JTAG EXTEST and a scan (R528). -/
def execExtest (len : Fin 4096) (tdi : Nat) (s : State) : Out :=
  s.act (fun d => d.jtagBoundary .extest len.val tdi 0)

/-- EXTEST_PULSE. JTAG EXTEST_PULSE and a scan (R528). -/
def execExtestPulse (len : Fin 4096) (tdi : Nat) (s : State) : Out :=
  s.act (fun d => d.jtagBoundary .pulse len.val tdi 0)

/-- EXTEST_TRAIN. JTAG EXTEST_TRAIN, a scan and `idle` TCK cycles in Run-Test/Idle (R528). -/
def execExtestTrain (len : Fin 4096) (tdi : Nat) (idle : BitVec 8) (s : State) : Out :=
  s.act (fun d => d.jtagBoundary .train len.val tdi idle.toNat)

/-- SMB_SET_ADDRESS. SMBus command 0x01 (R529). `pec`: its PEC is right or absent. -/
def execSmbSetAddress (adr : BitVec 7) (pec : Bool) (v : BitVec 32) (s : State) : Out :=
  s.act (fun d => d.smbSet adr.toNat pec v.toNat)

/-- SMB_READ_REGISTER. SMBus command 0x02 (R529). -/
def execSmbReadRegister (adr : BitVec 7) (pec : Bool) (s : State) : Out :=
  s.act (fun d => d.smbRead adr.toNat pec)

/-- SMB_WRITE_REGISTER. SMBus command 0x03 (R529). -/
def execSmbWriteRegister (adr : BitVec 7) (pec : Bool) (v : BitVec 32) (s : State) : Out :=
  s.act (fun d => d.smbWrite s.otp adr.toNat pec v.toNat)

/-- SMB_READ_STAGE. SMBus command 0x04 (R529). -/
def execSmbReadStage (adr : BitVec 7) (pec : Bool) (s : State) : Out :=
  s.act (fun d => d.smbStage adr.toNat pec)

end Sys2Proof.Machine
end

