-- ==== Sys2Proof/Machine/ExecPower.lean ====
section
/-! DEFINITION. What the commands of power, clocks and temperature do. -/

namespace Sys2Proof.Machine

open Dev

/-- VDD_CORE_WARNING. A confirmed fall of VDD_CORE below 0.665 V, to `mv` (R501). -/
def execVddCoreWarning (mv : BitVec 10) (s : State) : Out :=
  s.live (fun d => d.vddWarning mv.toNat)

/-- BROWNOUT_ALL_HOLDING. Every running section holds (R501). -/
def execBrownoutAllHolding (s : State) : Out :=
  s.live (fun d => d.allHolding)

/-- THR_SWITCH_DONE. Every cluster shows its new divider (R131). -/
def execThrSwitchDone (s : State) : Out :=
  s.live (fun d => d.thrDone)

/-- VDD_CORE_RECOVERY_RISE. A confirmed rise above 0.675 V (R501). -/
def execVddCoreRecoveryRise (s : State) : Out :=
  s.live (fun d => d.vddRise)

/-- VDD_CORE_RECOVERY_FALL. A confirmed fall below 0.675 V, to `mv` (R501). -/
def execVddCoreRecoveryFall (mv : BitVec 10) (s : State) : Out :=
  s.live (fun d => d.vddFall mv.toNat)

/-- RECOVERY_TIMER_EXPIRE. 20 µs of recovery (R501). -/
def execRecoveryTimerExpire (s : State) : Out :=
  s.live (fun d => d.recoveryExpire)

/-- SUPPLY_RESET_LEVEL. VDD_CORE, or another monitored supply, reaches its reset level (R503). -/
def execSupplyResetLevel (core : Bool) (s : State) : Out :=
  .next (s.supplyReset core)

/-- TEMP_SENSOR_READ. The sensors are read: two's complement quarters of a degree (R504). -/
def execTempSensorRead (t : Vector (BitVec 10) 9) (s : State) : Out :=
  .next (s.tempSensors t)

/-- THERMAL_DUTY_TIMER. A step of the 8 µs duty cycle (R504). -/
def execThermalDutyTimer (s : State) : Out :=
  s.live (fun d => d.dutyTimer)

/-- SECTION_POWER_ON. PWR.SECT[n].CTL with ON = 1 (R506). -/
def execSectionPowerOn (n : Fin 8) (srst : Bool) (s : State) : Out :=
  s.hubReg (fun d => d.sectCtlWrite n.val (1 + 2 * b2n srst))

/-- SECTION_POWER_OFF. PWR.SECT[n].CTL with ON = 0 (R506). -/
def execSectionPowerOff (n : Fin 8) (srst : Bool) (s : State) : Out :=
  s.hubReg (fun d => d.sectCtlWrite n.val (2 * b2n srst))

/-- POWER_TRANSITION_DONE. A power transition of section n completes (R506). -/
def execPowerTransitionDone (n : Fin 8) (s : State) : Out :=
  s.live (fun d => d.powerDone n.val)

/-- SECTION_SOFT_RESET. PWR.SECT[n].CTL.SRST (R508). -/
def execSectionSoftReset (n : Fin 8) (on : Bool) (s : State) : Out :=
  s.hubReg (fun d => d.sectCtlWrite n.val (2 + b2n on))

/-- SOFT_RESET_DONE. The soft reset of section n completes (R508). -/
def execSoftResetDone (n : Fin 8) (s : State) : Out :=
  s.live (fun d => d.softDone n.val)

/-- REFCLK_LOSS. REFCLK is lost (R509). -/
def execRefclkLoss (s : State) : Out :=
  .next (s.clockReset)

/-- CORE_PLL_UNLOCK. The core PLL unlocks (R509). -/
def execCorePllUnlock (s : State) : Out :=
  .next (s.clockReset)

/-- VCCIO_CHANGE. The supply of DIO bank b measures `mv` (R525). -/
def execVccioChange (b : Fin 4) (mv : BitVec 12) (s : State) : Out :=
  s.act (fun d => d.vccioChange b.val mv.toNat)

end Sys2Proof.Machine
end

