-- ==== Sys2Proof/Machine/ExecQueue.lean ====
section
/-! DEFINITION. What the commands of ferry queues do. -/

namespace Sys2Proof.Machine

open Dev

/-- QUEUE_WORD_WRITE. A service producer writes words into queue q, the last one marked where `eop` says so (R234), with its tally and its
marks (R240, R241). -/
def execQueueWordWrite (n : Fin 8) (q : Fin 64) (ws : List (BitVec 12)) (eop : Bool) (tally : Option (BitVec 32)) (poison : Bool) (integ : Bool) (s : State) : Out :=
  s.sect n.val (fun d => d.serviceWrite n.val q.val (ws.map BitVec.toNat) eop (tally.map BitVec.toNat) poison integ)

/-- QUEUE_DEQUEUE. The service consumer of queue q takes up to k words (R222, R228). -/
def execQueueDequeue (n : Fin 8) (q : Fin 64) (k : Fin 1025) (errs : List (Fin 1024 × Fin 3)) (s : State) : Out :=
  s.sect n.val (fun d => d.when (unitDrains q.val) (fun d => d.serviceTake n.val q.val k.val (errPairs errs)))

/-- FERRY_RST. FERRY.CTL.RST (R238). -/
def execFerryRst (n : Fin 8) (q : Fin 64) (s : State) : Out :=
  s.sect n.val (fun d => d.queueReset n.val q.val)

/-- QUEUE_TEST. FERRY.CTL.TEST (R231). -/
def execQueueTest (n : Fin 8) (q : Fin 64) (s : State) : Out :=
  s.sect n.val (fun d => d.queueTest n.val q.val)

/-- SCRUB_TEST_DONE. The scrub and test of an episode end (R232); `failed` names a bank that failed. -/
def execScrubTestDone (n : Fin 8) (q : Fin 64) (failed : Option (Fin 2)) (s : State) : Out :=
  s.sect n.val (fun d => d.scrubDone n.val q.val (failed.map Fin.val))

/-- MAILBOX_WRITE. A word for queue 63, with or without the end mark (R243). -/
def execMailboxWrite (n : Fin 8) (w : BitVec 12) (eop : Bool) (s : State) : Out :=
  s.sect n.val (fun d => d.mailboxWrite n.val w.toNat eop)

end Sys2Proof.Machine
end

