-- ==== Sys2Proof/Machine/ExecReg.lean ====
section
/-! DEFINITION. What the commands of register accesses do. -/

namespace Sys2Proof.Machine

open Dev

/-- REG_PAIR_LOW_READ. A read of 1, 2 or 4 bytes of a register, of the low half of a pair or of any other (R4 to R9, R541). The bytes read are
the answer. -/
def execRegPairLowRead (lay : Fin 9) (off : BitVec 26) (size : Fin 3) (s : State) : Out :=
  s.act (fun d => d.portRead lay.val off.toNat (2 ^ size.val))

/-- REG_PAIR_LOW_WRITE. A write of the low half of a writable pair by the function whose layout it is (R7). -/
def execRegPairLowWrite (lay : Fin 9) (off : BitVec 26) (v : BitVec 32) (s : State) : Out :=
  .next (s.pairWrite lay.val off.toNat v.toNat false)

/-- REG_PAIR_HIGH_WRITE. A write of the high half of a writable pair by the function whose layout it is (R7). -/
def execRegPairHighWrite (lay : Fin 9) (off : BitVec 26) (v : BitVec 32) (s : State) : Out :=
  .next (s.pairWrite lay.val off.toNat v.toNat true)

/-- REGISTER_WRITE. A write of 1, 2, 4 or 8 bytes by a source of DEV.ACCERR.SRC to a layout that it reaches (R4 to R11, R540 to R542). -/
def execRegisterWrite (src : Fin 12) (sect : Fin 8) (lay : Fin 9) (off : BitVec 26) (size : Fin 4) (v : BitVec 64) (ph : Fin 4) (s : State) : Out :=
  .next (s.portWrite ⟨src.val, sect.val, ph.val⟩ lay.val off.toNat (2 ^ size.val) (v.toNat % 2 ^ (8 * 2 ^ size.val)))

end Sys2Proof.Machine
end

