-- ==== Sys2Proof/Machine/ExecRun.lean ====
section
/-! DEFINITION. What the commands of run control, holds and faults do. -/

namespace Sys2Proof.Machine

open Dev

/-- HOLD_SAMPLE. The sampling point of a fret of the run group of section n (R142); the board drives the cells of `mask` to `level`. -/
def execHoldSample (n : Fin 8) (mask : BitVec 12) (level : BitVec 12) (s : State) : Out :=
  s.sect n.val (fun d => d.holdSampleEvent n.val mask.toNat level.toNat)

/-- HOLD_RESAMPLE. H8 of a hold (R145). -/
def execHoldResample (n : Fin 8) (s : State) : Out :=
  s.sect n.val (fun d => d.resample n.val)

/-- HOLD_STALL. HLIMIT consecutive held frets (R152). -/
def execHoldStall (n : Fin 8) (s : State) : Out :=
  s.sect n.val (fun d => d.holdStall n.val)

/-- PERIOD_END. The end of an executed period (R85). -/
def execPeriodEnd (n : Fin 8) (s : State) : Out :=
  s.sect n.val (fun d => d.periodEnd n.val)

/-- EPILOGUE_DRAIN_END. The end of the 16-step drain (R103). -/
def execEpilogueDrainEnd (n : Fin 8) (s : State) : Out :=
  s.sect n.val (fun d => d.drainEnd n.val)

/-- START. SCTL.CMD START with MODE 0 now, 1 at TIME, 2 on a trigger (R137). -/
def execStart (n : Fin 8) (mode : Fin 4) (s : State) : Out :=
  s.sect n.val (fun d => d.runCmd n.val rcSTART mode.val none)

/-- PAUSE. SCTL.CMD PAUSE (R137). -/
def execPause (n : Fin 8) (s : State) : Out :=
  s.sect n.val (fun d => d.runCmd n.val rcPAUSE 0 none)

/-- RESUME. SCTL.CMD RESUME (R137). -/
def execResume (n : Fin 8) (s : State) : Out :=
  s.sect n.val (fun d => d.runCmd n.val rcRESUME 0 none)

/-- STEP. SCTL.CMD STEP (R137). -/
def execStepRun (n : Fin 8) (mode : Fin 4) (s : State) : Out :=
  s.sect n.val (fun d => d.runCmd n.val rcSTEP mode.val none)

/-- STOP. SCTL.CMD STOP (R137). -/
def execStop (n : Fin 8) (s : State) : Out :=
  s.sect n.val (fun d => d.runCmd n.val rcSTOP 0 none)

/-- RESTART. SCTL.CMD RESTART (R137). -/
def execRestart (n : Fin 8) (s : State) : Out :=
  s.sect n.val (fun d => d.runCmd n.val rcRESTART 0 none)

/-- BADCMD. SCTL.CMD with an OP that is not defined (R548). -/
def execBadCmd (n : Fin 8) (op : Fin 16) (s : State) : Out :=
  s.sect n.val (fun d => if 1 ≤ op.val ∧ op.val ≤ 6 then d else d.runCmd n.val op.val 0 none)

/-- ARMED_START_FIRE. The TIME target or trigger of an armed command is reached (R140). -/
def execArmedStartFire (n : Fin 8) (s : State) : Out :=
  s.sect n.val (fun d => d.armedFire n.val)

/-- PAUSE_EFFECT. A pending PAUSE at the end of a period (R137). -/
def execPauseEffect (n : Fin 8) (s : State) : Out :=
  s.sect n.val (fun d => (d.pauseEffect n.val).serveGroup)

/-- STOP_EFFECT. A pending STOP at the end of a period (R137). -/
def execStopEffect (n : Fin 8) (s : State) : Out :=
  s.sect n.val (fun d => d.stopEffect n.val)

/-- STEP_COMPLETE. STEP k has run its periods (R162). -/
def execStepComplete (n : Fin 8) (s : State) : Out :=
  s.sect n.val (fun d => (d.stepComplete n.val).serveGroup)

/-- RESTART_COMPLETE. RESTART completes (R137). -/
def execRestartComplete (n : Fin 8) (s : State) : Out :=
  s.sect n.val (fun d => d.restartDone n.val)

/-- FAULT_HALT. The end of the fret or hold in which a fault was raised (R156). -/
def execFaultHalt (n : Fin 8) (s : State) : Out :=
  s.sect n.val (fun d => (d.faultHalt n.val).serveGroup)

/-- GROUP_MEMBER_LEAVE. The run group that section n has left halts (R122). -/
def execGroupMemberLeave (n : Fin 8) (s : State) : Out :=
  s.live (fun d => (d.memberLeave n.val).serveGroup)

/-- HCTL_CLR. HCTL.CLR (R152). -/
def execHctlClr (n : Fin 8) (s : State) : Out :=
  s.sect n.val (fun d => d.hctlClr n.val)

/-- FAULT_RECORD_CLEAR. A write of 1 to FSTAT.VALID (R159). -/
def execFaultRecordClear (n : Fin 8) (s : State) : Out :=
  s.sect n.val (fun d => d.faultClear n.val)

/-- PACE_EVENT. A pace event reaches section n (R153). -/
def execPaceEvent (n : Fin 8) (s : State) : Out :=
  s.sect n.val (fun d => d.paceEvent n.val)

/-- PACECTL_WRITE. A write of PACECTL (R155). -/
def execPacectlWrite (n : Fin 8) (v : BitVec 32) (s : State) : Out :=
  s.sect n.val (fun d => d.pacectlWrite n.val v.toNat)

end Sys2Proof.Machine
end

