-- ==== Sys2Proof/Machine/ExecSys.lean ====
section
/-! DEFINITION. What the commands of systems do. -/

namespace Sys2Proof.Machine

open Dev

/-- NEIGHBOUR_RECEIVE. A NEIGHBOUR packet stands at the front of bundle k (R400). -/
def execNeighbourReceive (k : Fin 256) (s : State) : Out :=
  s.live (fun d => d.neighbourReceive k.val)

/-- CENSUS_RECEIVE. A CENSUS packet stands at the front of bundle k (R378). -/
def execCensusReceive (k : Fin 256) (s : State) : Out :=
  s.live (fun d => d.censusReceive k.val)

/-- REGISTER_RECEIVE. A REGISTER packet stands at the front of bundle k (R400). -/
def execRegisterReceive (k : Fin 256) (s : State) : Out :=
  s.live (fun d => d.registerReceive k.val)

/-- COMMAND_RECEIVE. A COMMAND packet stands at the front of bundle k (R400). -/
def execCommandReceive (k : Fin 256) (s : State) : Out :=
  s.live (fun d => d.commandReceive k.val)

/-- RESPONSE_RECEIVE. A RESPONSE packet stands at the front of bundle k (R400). -/
def execResponseReceive (k : Fin 256) (s : State) : Out :=
  s.live (fun d => d.responseReceive k.val)

/-- NOTICE_RECEIVE. A NOTICE packet stands at the front of bundle k (R400). -/
def execNoticeReceive (k : Fin 256) (s : State) : Out :=
  s.live (fun d => d.noticeReceive k.val)

/-- SVC_FORWARD. A packet for another node stands at the front of SVC channel vc of bundle k (R376). -/
def execSvcForward (k : Fin 256) (vc : Fin 4) (s : State) : Out :=
  s.live (fun d => d.svcForward k.val vc.val)

/-- CENSUS_TIMER. 100 ms since the last CENSUS (R380). -/
def execCensusTimer (s : State) : Out :=
  s.live (fun d => d.censusTimer)

/-- SYSTEM_DEADLINE. 2.0 s after power-good (R380). -/
def execSystemDeadline (s : State) : Out :=
  s.live (fun d => d.systemDeadline)

/-- NODE_LOST_TIMEOUT. 100 ms without a path to a worker (R380). -/
def execNodeLostTimeout (node : Fin 128) (s : State) : Out :=
  s.live (fun d => d.nodeLost node.val)

end Sys2Proof.Machine
end

