-- ==== Sys2Proof/Machine/ExecTime.lean ====
section
/-! DEFINITION. What the commands of time do. -/

namespace Sys2Proof.Machine

open Dev

/-- TIME_TICK. A tick of 4 ns (R316). -/
def execTimeTick (s : State) : Out :=
  s.live (fun d => (d.tick).sysAdvance.registerAgain)

/-- TIME_LOAD. SETCMD.LOAD (R314). -/
def execTimeLoad (s : State) : Out :=
  s.hubReg (fun d => d.setcmdWrite 1)

/-- TIME_ADD. SETCMD.ADD (R314). -/
def execTimeAdd (s : State) : Out :=
  s.hubReg (fun d => d.setcmdWrite 2)

/-- NOWF_READ. A read of NOWF (R313). -/
def execNowfRead (s : State) : Out :=
  s.hubReg (fun d => Dev.reply d.nowfRead 4)

/-- OFFSET_SUBMIT. A write of the high half of D[dm].OFFSET (R316). -/
def execOffsetSubmit (dm : Fin 2) (hi : BitVec 32) (s : State) : Out :=
  s.hubReg (fun d => d.offsetSubmit dm.val hi.toNat)

/-- DOMSEL_WRITE. A write of TIME.CTL (R317). -/
def execDomselWrite (v : BitVec 32) (s : State) : Out :=
  s.hubReg (fun d => d.timeCtlWrite v.toNat)

/-- HOLDOVER_TIMEOUT. No measurement of domain dm within TIMEOUT (R318). -/
def execHoldoverTimeout (dm : Fin 2) (s : State) : Out :=
  s.live (fun d => d.holdover dm.val)

/-- ALARM_ARM. A write of ALCTL[a] (R323). -/
def execAlarmArm (a : Fin 4) (v : BitVec 32) (s : State) : Out :=
  s.hubReg (fun d => d.alarmWrite a.val v.toNat)

/-- COMPARE_FIRE. Alarm a fires (R321). -/
def execCompareFire (a : Fin 4) (s : State) : Out :=
  s.live (fun d => d.alarmFire a.val)

/-- PULSE_GEN_ENABLE. A write of PG[g].CTL with EN set (R332). -/
def execPulseGenEnable (g : Fin 8) (v : BitVec 31) (s : State) : Out :=
  s.hubReg (fun d => d.pgCtlWrite g.val (v.toNat + 2 ^ 31))

/-- PULSE_EDGE. A grid instant of generator g (R331). -/
def execPulseEdge (g : Fin 8) (ph : Fin 4) (s : State) : Out :=
  s.live (fun d => d.pulseEdge g.val ph.val)

/-- TSINFO_READ. A read of ETHp.TSINFO (R326). -/
def execTsinfoRead (p : Fin 2) (s : State) : Out :=
  s.hubReg (fun d => Dev.reply (d.tsinfoRead p.val) 4)

/-- PTP_FRAME_RECEIVE. Port p receives a frame: an event message of a type, domain and sequence number or not; `meas` is the θ of
the exchange that it completes (R328). -/
def execPtpFrameReceive (p : Fin 2) (event : Option (Fin 4 × BitVec 8 × BitVec 16)) (sub : Fin 32) (meas : Option (BitVec 64)) (s : State) : Out :=
  s.live (fun d => d.ptpReceive p.val (event.map (fun e => (e.1.val, e.2.1.toNat, e.2.2.toNat))) (sub.val : Int) (meas.map BitVec.toNat))

/-- DREQ_SEND. The client lane of domain dm sends DREQ (R329). -/
def execDreqSend (dm : Fin 2) (s : State) : Out :=
  s.live (fun d => d.dreqSend dm.val)

/-- DRESP_RECEIVE. Lane l receives a DRESP, `back` eighths of a nanosecond ago (R329). -/
def execDrespReceive (l : Fin 256) (back : BitVec 8) (s : State) : Out :=
  s.live (fun d => d.drespReceive l.val back.toNat)

/-- DREQ_TIMEOUT. 100 µs after t1 of domain dm (R329). -/
def execDreqTimeout (dm : Fin 2) (s : State) : Out :=
  s.live (fun d => d.dreqTimeout dm.val)

/-- DREQ_RECEIVE. Lane l receives a DREQ, `back` eighths of a nanosecond ago (R330). -/
def execDreqReceive (l : Fin 256) (back : BitVec 8) (s : State) : Out :=
  s.live (fun d => d.dreqReceive l.val back.toNat)

/-- ETH_PCS_LINK_CHANGE. The PCS link of port p (R326). -/
def execEthPcsLinkChange (p : Fin 2) (up : Bool) (s : State) : Out :=
  s.live (fun d => d.ethLink p.val up)

/-- PTP_MESSAGE_TRANSMIT. Firmware transmits a message on port p, an event message or not (R327). -/
def execPtpMessageTransmit (p : Fin 2) (event : Option (Fin 4 × BitVec 8 × BitVec 16)) (sub : Fin 32) (s : State) : Out :=
  s.live (fun d => d.ptpTransmit p.val (event.map (fun e => (e.1.val, e.2.1.toNat, e.2.2.toNat))) (sub.val : Int))

end Sys2Proof.Machine
end

