-- ==== Sys2Proof/Machine/ExecTrace.lean ====
section
/-! DEFINITION. What the commands of core trace do. -/

namespace Sys2Proof.Machine

open Dev

/-- DELTA_SYNC. DELTA of a source reaches 16,383 (R463). -/
def execDeltaSync (n : Fin 9) (x : Fin 10) (s : State) : Out :=
  s.unit n.val (fun d => d.deltaSync n.val x.val)

/-- CORE_SLEEP. WFI gates the clock of a core (R464). -/
def execCoreSleep (n : Fin 9) (x : Fin 9) (s : State) : Out :=
  s.unit n.val (fun d => d.coreSleep n.val x.val)

/-- CORE_WAKE. A gated core runs again (R464). -/
def execCoreWake (n : Fin 9) (x : Fin 9) (s : State) : Out :=
  s.unit n.val (fun d => d.coreWake n.val x.val)

/-- TCTL_WRITE. A write of TCTL of a source (R467). -/
def execTctlWrite (n : Fin 9) (x : Fin 10) (v : BitVec 32) (s : State) : Out :=
  s.unit n.val (fun d => d.tctlWrite n.val x.val v.toNat)

/-- TRACE_BUFFER_ACCEPT. The buffer takes one record (R469). -/
def execTraceBufferAccept (n : Fin 9) (s : State) : Out :=
  s.unit n.val (fun d => d.trcAccept n.val)

/-- BCTL_CLR. BCTL.CLR (R472). -/
def execBctlClr (n : Fin 9) (s : State) : Out :=
  s.unit n.val (fun d => d.bctlClr n.val)

/-- TRACE_CLEAR_DONE. The buffer clear completes (R472). -/
def execTraceClearDone (n : Fin 9) (s : State) : Out :=
  s.unit n.val (fun d => d.trcCleared n.val)

end Sys2Proof.Machine
end

