-- ==== Sys2Proof/Machine/ExecTwin.lean ====
section
/-! DEFINITION. What the commands of the twin pair do. -/

namespace Sys2Proof.Machine

open Dev

/-- PAIR_RECEIVE. A PAIR message (R382). -/
def execPairReceive (s : State) : Out :=
  s.live (fun d => d.pairReceive)

/-- PAIR_REPEAT. 1 ms since the last PAIR sent (R382). -/
def execPairRepeat (s : State) : Out :=
  s.live (fun d => d.pairRepeat)

/-- PAIRING_TIMEOUT. The bound on pairing (R382). -/
def execPairingTimeout (s : State) : Out :=
  s.live (fun d => d.pairingTimeout)

/-- HEARTBEAT_SEND. 10 µs since the last HEARTBEAT sent (R392). -/
def execHeartbeatSend (s : State) : Out :=
  s.live (fun d => d.heartbeatSend)

/-- HEARTBEAT_RECEIVE. A HEARTBEAT message (R392). -/
def execHeartbeatReceive (s : State) : Out :=
  s.live (fun d => d.heartbeatReceive)

/-- HEARTBEAT_MISS. An interval without a HEARTBEAT (R395). -/
def execHeartbeatMiss (s : State) : Out :=
  s.live (fun d => d.heartbeatMiss)

/-- DIGEST_RECEIVE. A DIGEST message (R391). -/
def execDigestReceive (s : State) : Out :=
  s.live (fun d => d.digestReceive)

/-- RUNCMD_RECEIVE. A RUNCMD message (R401). -/
def execRuncmdReceive (s : State) : Out :=
  s.live (fun d => d.runcmdReceive)

/-- RUNACK_RECEIVE. A RUNACK message (R401). -/
def execRunackReceive (s : State) : Out :=
  s.live (fun d => d.runackReceive)

/-- LOADCHK_RECEIVE. A LOADCHK message (R401). -/
def execLoadchkReceive (s : State) : Out :=
  s.live (fun d => d.loadchkReceive)

/-- SELF_FAULT_STEPDOWN. A self-detected fault with its cause of R400 (R394). -/
def execSelfFaultStepdown (cause : BitVec 8) (s : State) : Out :=
  s.live (fun d => d.selfFault cause.toNat)

/-- STEPDOWN_RECEIVE. STEPDOWN stands at the front of bundle k (R395). -/
def execStepdownReceive (k : Fin 256) (s : State) : Out :=
  s.live (fun d => d.stepdownReceive k.val)

/-- TAKEOVER_RECEIVE. TAKEOVER stands at the front of bundle k (R395). -/
def execTakeoverReceive (k : Fin 256) (s : State) : Out :=
  s.live (fun d => d.takeoverReceive k.val)

/-- ACCEPT_RECEIVE. ACCEPT stands at the front of bundle k (R396). -/
def execAcceptReceive (k : Fin 256) (s : State) : Out :=
  s.live (fun d => d.acceptReceive k.val)

/-- REJECT_RECEIVE. REJECT stands at the front of bundle k (R397). -/
def execRejectReceive (k : Fin 256) (s : State) : Out :=
  s.live (fun d => d.rejectReceive k.val)

/-- RESUME_RECEIVE. RESUME stands at the front of bundle k (R396). -/
def execResumeReceive (k : Fin 256) (s : State) : Out :=
  s.live (fun d => d.resumeReceive k.val)

/-- TAKEOVER_TIMEOUT. 100 µs after TAKEOVER (R397). -/
def execTakeoverTimeout (s : State) : Out :=
  s.live (fun d => d.takeoverTimeout)

/-- MIRROR_PACKET_RECEIVE. A mirrored packet (R384). -/
def execMirrorPacketReceive (s : State) : Out :=
  s.live (fun d => d.mirrorPacket)

/-- MIRROR_CALL_RETURN. A mirrored call return (R265). -/
def execMirrorCallReturn (s : State) : Out :=
  s.live (fun d => d.mirrorReturn)

/-- MIRROR_MAILBOX. A mirrored mailbox packet (R384). -/
def execMirrorMailbox (s : State) : Out :=
  s.live (fun d => d.mirrorMailbox)

/-- MIRROR_PIN_SAMPLE. A mirrored pin sample (R384). -/
def execMirrorPinSample (s : State) : Out :=
  s.live (fun d => d.mirrorPin)

/-- DISPOSAL_REPORT. A disposal report of the primary (R386). -/
def execDisposalReport (s : State) : Out :=
  s.live (fun d => d.disposalReport)

end Sys2Proof.Machine
end

