-- ==== Sys2Proof/Machine/Dispatch.lean ====
section
/-! DEFINITION. Dispatch: one arm for each command. -/

namespace Sys2Proof.Machine

def exec (i : Instr) (s : State) : Host.Outcome State Fault Refusal :=
  match i with
  | .regPairLowRead lay off size => Sys2Proof.Machine.execRegPairLowRead lay off size s
  | .regPairLowWrite lay off v => Sys2Proof.Machine.execRegPairLowWrite lay off v s
  | .regPairHighWrite lay off v => Sys2Proof.Machine.execRegPairHighWrite lay off v s
  | .registerWrite src sect lay off size v ph => Sys2Proof.Machine.execRegisterWrite src sect lay off size v ph s
  | .executeStep n ph => Sys2Proof.Machine.execExecuteStep n ph s
  | .nop n cl crs bp => Sys2Proof.Machine.execNop n cl crs bp s
  | .lut4 n cl crs bp => Sys2Proof.Machine.execLut4 n cl crs bp s
  | .lut4e n cl crs bp => Sys2Proof.Machine.execLut4e n cl crs bp s
  | .muxg n cl crs bp => Sys2Proof.Machine.execMuxg n cl crs bp s
  | .muxr n cl crs bp => Sys2Proof.Machine.execMuxr n cl crs bp s
  | .mrd n cl crs => Sys2Proof.Machine.execMrd n cl crs s
  | .mwr n cl crs => Sys2Proof.Machine.execMwr n cl crs s
  | .qrd n cl crs errs => Sys2Proof.Machine.execQrd n cl crs errs s
  | .qwr n cl crs => Sys2Proof.Machine.execQwr n cl crs s
  | .call n cl crs => Sys2Proof.Machine.execCall n cl crs s
  | .digest n cl crs => Sys2Proof.Machine.execDigest n cl crs s
  | .qrdReturn n cl crs => Sys2Proof.Machine.execQrdReturn n cl crs s
  | .homePathAccess n cl ecc => Sys2Proof.Machine.execHomePathAccess n cl ecc s
  | .homeMrdReturn n cl crs => Sys2Proof.Machine.execHomeMrdReturn n cl crs s
  | .nonhomeBankAccess n cl lost ecc => Sys2Proof.Machine.execNonhomeBankAccess n cl lost ecc s
  | .nonhomeReturn n cl crs => Sys2Proof.Machine.execNonhomeReturn n cl crs s
  | .clusterSlotRead n cl crs p ecc => Sys2Proof.Machine.execClusterSlotRead n cl crs p ecc s
  | .clusterSlotWrite n cl crs p => Sys2Proof.Machine.execClusterSlotWrite n cl crs p s
  | .exportSlotRead n cl e ecc => Sys2Proof.Machine.execExportSlotRead n cl e ecc s
  | .exportSlotWrite n cl crs p => Sys2Proof.Machine.execExportSlotWrite n cl crs p s
  | .inputPinSample n mask level => Sys2Proof.Machine.execInputPinSample n mask level s
  | .outputUpdate n bp => Sys2Proof.Machine.execOutputUpdate n bp s
  | .outputBallChange c => Sys2Proof.Machine.execOutputBallChange c s
  | .holdSample n mask level => Sys2Proof.Machine.execHoldSample n mask level s
  | .holdResample n => Sys2Proof.Machine.execHoldResample n s
  | .holdStall n => Sys2Proof.Machine.execHoldStall n s
  | .periodEnd n => Sys2Proof.Machine.execPeriodEnd n s
  | .epilogueDrainEnd n => Sys2Proof.Machine.execEpilogueDrainEnd n s
  | .start n mode => Sys2Proof.Machine.execStart n mode s
  | .pause n => Sys2Proof.Machine.execPause n s
  | .resume n => Sys2Proof.Machine.execResume n s
  | .stepRun n mode => Sys2Proof.Machine.execStepRun n mode s
  | .stop n => Sys2Proof.Machine.execStop n s
  | .restart n => Sys2Proof.Machine.execRestart n s
  | .badCmd n op => Sys2Proof.Machine.execBadCmd n op s
  | .armedStartFire n => Sys2Proof.Machine.execArmedStartFire n s
  | .pauseEffect n => Sys2Proof.Machine.execPauseEffect n s
  | .stopEffect n => Sys2Proof.Machine.execStopEffect n s
  | .stepComplete n => Sys2Proof.Machine.execStepComplete n s
  | .restartComplete n => Sys2Proof.Machine.execRestartComplete n s
  | .faultHalt n => Sys2Proof.Machine.execFaultHalt n s
  | .groupMemberLeave n => Sys2Proof.Machine.execGroupMemberLeave n s
  | .hctlClr n => Sys2Proof.Machine.execHctlClr n s
  | .faultRecordClear n => Sys2Proof.Machine.execFaultRecordClear n s
  | .paceEvent n => Sys2Proof.Machine.execPaceEvent n s
  | .pacectlWrite n v => Sys2Proof.Machine.execPacectlWrite n v s
  | .loadImage f err => Sys2Proof.Machine.execLoadImage f err s
  | .loadPass1Complete => Sys2Proof.Machine.execLoadPass1Complete s
  | .loadPass2Complete => Sys2Proof.Machine.execLoadPass2Complete s
  | .commit f ph => Sys2Proof.Machine.execCommit f ph s
  | .autostartLoad => Sys2Proof.Machine.execAutostartLoad s
  | .clkctlWrite n cl v => Sys2Proof.Machine.execClkctlWrite n cl v s
  | .clockChangeDone n cl => Sys2Proof.Machine.execClockChangeDone n cl s
  | .crst n cl => Sys2Proof.Machine.execCrst n cl s
  | .clusterResetDone n cl => Sys2Proof.Machine.execClusterResetDone n cl s
  | .dstoreWrite n cl crs w v => Sys2Proof.Machine.execDstoreWrite n cl crs w v s
  | .dstoreRead n cl crs w => Sys2Proof.Machine.execDstoreRead n cl crs w s
  | .codeWordStage n pos slot v => Sys2Proof.Machine.execCodeWordStage n pos slot v s
  | .codeInstructionStore n slot v => Sys2Proof.Machine.execCodeInstructionStore n slot v s
  | .serviceAccess n m a len bs errs lat => Sys2Proof.Machine.execServiceAccess n m a len bs errs lat s
  | .requestUrgent n m b => Sys2Proof.Machine.execRequestUrgent n m b s
  | .bankpwrWrite n v => Sys2Proof.Machine.execBankpwrWrite n v s
  | .bankPowerDone n b => Sys2Proof.Machine.execBankPowerDone n b s
  | .fabricHbmRequest n q ue errs => Sys2Proof.Machine.execFabricHbmRequest n q ue errs s
  | .hbmRequestComplete n q => Sys2Proof.Machine.execHbmRequestComplete n q s
  | .hbmRefreshRateChange k hot => Sys2Proof.Machine.execHbmRefreshRateChange k hot s
  | .queueWordWrite n q ws eop tally poison integ => Sys2Proof.Machine.execQueueWordWrite n q ws eop tally poison integ s
  | .queueDequeue n q k errs => Sys2Proof.Machine.execQueueDequeue n q k errs s
  | .ferryRst n q => Sys2Proof.Machine.execFerryRst n q s
  | .queueTest n q => Sys2Proof.Machine.execQueueTest n q s
  | .scrubTestDone n q failed => Sys2Proof.Machine.execScrubTestDone n q failed s
  | .mailboxWrite n w eop => Sys2Proof.Machine.execMailboxWrite n w eop s
  | .callPrefetch n x => Sys2Proof.Machine.execCallPrefetch n x s
  | .callDispatch n x => Sys2Proof.Machine.execCallDispatch n x s
  | .callAgeCheck n => Sys2Proof.Machine.execCallAgeCheck n s
  | .hvcdone n x => Sys2Proof.Machine.execHvcdone n x s
  | .watchdogExpiry n x => Sys2Proof.Machine.execWatchdogExpiry n x s
  | .returnEnqueue n => Sys2Proof.Machine.execReturnEnqueue n s
  | .corectlWrite n v => Sys2Proof.Machine.execCorectlWrite n v s
  | .crpoolWrite n cl v => Sys2Proof.Machine.execCrpoolWrite n cl v s
  | .writebackError n line => Sys2Proof.Machine.execWritebackError n line s
  | .coreInstructionRetire n x cyc ph short op evict ecc => Sys2Proof.Machine.execCoreInstructionRetire n x cyc ph short op evict ecc s
  | .captArm n ph => Sys2Proof.Machine.execCaptArm n ph s
  | .captDisarm n ph => Sys2Proof.Machine.execCaptDisarm n ph s
  | .captForce n => Sys2Proof.Machine.execCaptForce n s
  | .rowEvaluate n ph written => Sys2Proof.Machine.execRowEvaluate n ph written s
  | .sequencerRearm n ph => Sys2Proof.Machine.execSequencerRearm n ph s
  | .headerWriteDone n => Sys2Proof.Machine.execHeaderWriteDone n s
  | .captStoreError n ph => Sys2Proof.Machine.execCaptStoreError n ph s
  | .actctlWrite n v => Sys2Proof.Machine.execActctlWrite n v s
  | .trgEdge x up => Sys2Proof.Machine.execTrgEdge x up s
  | .timeTick => Sys2Proof.Machine.execTimeTick s
  | .timeLoad => Sys2Proof.Machine.execTimeLoad s
  | .timeAdd => Sys2Proof.Machine.execTimeAdd s
  | .nowfRead => Sys2Proof.Machine.execNowfRead s
  | .offsetSubmit dm hi => Sys2Proof.Machine.execOffsetSubmit dm hi s
  | .domselWrite v => Sys2Proof.Machine.execDomselWrite v s
  | .holdoverTimeout dm => Sys2Proof.Machine.execHoldoverTimeout dm s
  | .alarmArm a v => Sys2Proof.Machine.execAlarmArm a v s
  | .compareFire a => Sys2Proof.Machine.execCompareFire a s
  | .pulseGenEnable g v => Sys2Proof.Machine.execPulseGenEnable g v s
  | .pulseEdge g ph => Sys2Proof.Machine.execPulseEdge g ph s
  | .tsinfoRead p => Sys2Proof.Machine.execTsinfoRead p s
  | .ptpFrameReceive p event sub meas => Sys2Proof.Machine.execPtpFrameReceive p event sub meas s
  | .dreqSend dm => Sys2Proof.Machine.execDreqSend dm s
  | .drespReceive l back => Sys2Proof.Machine.execDrespReceive l back s
  | .dreqTimeout dm => Sys2Proof.Machine.execDreqTimeout dm s
  | .dreqReceive l back => Sys2Proof.Machine.execDreqReceive l back s
  | .laneTrain l => Sys2Proof.Machine.execLaneTrain l s
  | .laneDisable l => Sys2Proof.Machine.execLaneDisable l s
  | .cdrLock l => Sys2Proof.Machine.execCdrLock l s
  | .commaLock l w => Sys2Proof.Machine.execCommaLock l w s
  | .commaLoss l w => Sys2Proof.Machine.execCommaLoss l w s
  | .fecLock l => Sys2Proof.Machine.execFecLock l s
  | .fecLoss l => Sys2Proof.Machine.execFecLoss l s
  | .tlvExchangeDone l rtt => Sys2Proof.Machine.execTlvExchangeDone l rtt s
  | .frameEndCheck l f area hop fixed bad => Sys2Proof.Machine.execFrameEndCheck l f area hop fixed bad s
  | .nakResendTimeout l => Sys2Proof.Machine.execNakResendTimeout l s
  | .nakReceive l => Sys2Proof.Machine.execNakReceive l s
  | .linkFlitReceive l => Sys2Proof.Machine.execLinkFlitReceive l s
  | .idleFlitReceive l => Sys2Proof.Machine.execIdleFlitReceive l s
  | .tlvFlitReceive l => Sys2Proof.Machine.execTlvFlitReceive l s
  | .packetFlitReceive l => Sys2Proof.Machine.execPacketFlitReceive l s
  | .flitTransmit l sub => Sys2Proof.Machine.execFlitTransmit l sub s
  | .trainTimeout l => Sys2Proof.Machine.execTrainTimeout l s
  | .trainRetry l => Sys2Proof.Machine.execTrainRetry l s
  | .laneEqWrite l which v => Sys2Proof.Machine.execLaneEqWrite l which v s
  | .laneTest l on => Sys2Proof.Machine.execLaneTest l on s
  | .laneLoop l mode => Sys2Proof.Machine.execLaneLoop l mode s
  | .injectGo l => Sys2Proof.Machine.execInjectGo l s
  | .eyeScanStart l => Sys2Proof.Machine.execEyeScanStart l s
  | .eyeScanDone l count => Sys2Proof.Machine.execEyeScanDone l count s
  | .lanePllUnlock q => Sys2Proof.Machine.execLanePllUnlock q s
  | .neighbourReceive k => Sys2Proof.Machine.execNeighbourReceive k s
  | .censusReceive k => Sys2Proof.Machine.execCensusReceive k s
  | .registerReceive k => Sys2Proof.Machine.execRegisterReceive k s
  | .commandReceive k => Sys2Proof.Machine.execCommandReceive k s
  | .responseReceive k => Sys2Proof.Machine.execResponseReceive k s
  | .noticeReceive k => Sys2Proof.Machine.execNoticeReceive k s
  | .svcForward k vc => Sys2Proof.Machine.execSvcForward k vc s
  | .censusTimer => Sys2Proof.Machine.execCensusTimer s
  | .systemDeadline => Sys2Proof.Machine.execSystemDeadline s
  | .nodeLostTimeout node => Sys2Proof.Machine.execNodeLostTimeout node s
  | .pairReceive => Sys2Proof.Machine.execPairReceive s
  | .pairRepeat => Sys2Proof.Machine.execPairRepeat s
  | .pairingTimeout => Sys2Proof.Machine.execPairingTimeout s
  | .heartbeatSend => Sys2Proof.Machine.execHeartbeatSend s
  | .heartbeatReceive => Sys2Proof.Machine.execHeartbeatReceive s
  | .heartbeatMiss => Sys2Proof.Machine.execHeartbeatMiss s
  | .digestReceive => Sys2Proof.Machine.execDigestReceive s
  | .runcmdReceive => Sys2Proof.Machine.execRuncmdReceive s
  | .runackReceive => Sys2Proof.Machine.execRunackReceive s
  | .loadchkReceive => Sys2Proof.Machine.execLoadchkReceive s
  | .selfFaultStepdown cause => Sys2Proof.Machine.execSelfFaultStepdown cause s
  | .stepdownReceive k => Sys2Proof.Machine.execStepdownReceive k s
  | .takeoverReceive k => Sys2Proof.Machine.execTakeoverReceive k s
  | .acceptReceive k => Sys2Proof.Machine.execAcceptReceive k s
  | .rejectReceive k => Sys2Proof.Machine.execRejectReceive k s
  | .resumeReceive k => Sys2Proof.Machine.execResumeReceive k s
  | .takeoverTimeout => Sys2Proof.Machine.execTakeoverTimeout s
  | .mirrorPacketReceive => Sys2Proof.Machine.execMirrorPacketReceive s
  | .mirrorCallReturn => Sys2Proof.Machine.execMirrorCallReturn s
  | .mirrorMailbox => Sys2Proof.Machine.execMirrorMailbox s
  | .mirrorPinSample => Sys2Proof.Machine.execMirrorPinSample s
  | .disposalReport => Sys2Proof.Machine.execDisposalReport s
  | .openCmd f => Sys2Proof.Machine.execOpenCmd f s
  | .closeCmd f => Sys2Proof.Machine.execCloseCmd f s
  | .hhpStart f => Sys2Proof.Machine.execHhpStart f s
  | .hhpPause f => Sys2Proof.Machine.execHhpPause f s
  | .hhpResume f => Sys2Proof.Machine.execHhpResume f s
  | .hhpStep f => Sys2Proof.Machine.execHhpStep f s
  | .hhpStop f => Sys2Proof.Machine.execHhpStop f s
  | .hhpRestart f => Sys2Proof.Machine.execHhpRestart f s
  | .queueReset f => Sys2Proof.Machine.execQueueReset f s
  | .captureArm f ph => Sys2Proof.Machine.execCaptureArm f ph s
  | .captureDisarm f ph => Sys2Proof.Machine.execCaptureDisarm f ph s
  | .readFaults f => Sys2Proof.Machine.execReadFaults f s
  | .timeSet f => Sys2Proof.Machine.execTimeSet f s
  | .attest f err => Sys2Proof.Machine.execAttest f err s
  | .systemStatus f err => Sys2Proof.Machine.execSystemStatus f err s
  | .hqEnable f => Sys2Proof.Machine.execHqEnable f s
  | .cmdtailWrite f v => Sys2Proof.Machine.execCmdtailWrite f v s
  | .commandFetch f err => Sys2Proof.Machine.execCommandFetch f err s
  | .cplheadWrite f v => Sys2Proof.Machine.execCplheadWrite f v s
  | .msixCoalesceTimeout f vec => Sys2Proof.Machine.execMsixCoalesceTimeout f vec s
  | .bar2Write n off bs ep errs => Sys2Proof.Machine.execBar2Write n off bs ep errs s
  | .bar2Read n off len errs lat => Sys2Proof.Machine.execBar2Read n off len errs lat s
  | .flr f => Sys2Proof.Machine.execFlr f s
  | .hotReset => Sys2Proof.Machine.execHotReset s
  | .dmaGo n c dspace vec => Sys2Proof.Machine.execDmaGo n c dspace vec s
  | .dmaHalt n c dspace vec => Sys2Proof.Machine.execDmaHalt n c dspace vec s
  | .dmaWdraw n c dspace vec => Sys2Proof.Machine.execDmaWdraw n c dspace vec s
  | .dmaDoorbell n c => Sys2Proof.Machine.execDmaDoorbell n c s
  | .descriptorFetched n c => Sys2Proof.Machine.execDescriptorFetched n c s
  | .dmaBurstDone n c errs eps => Sys2Proof.Machine.execDmaBurstDone n c errs eps s
  | .readbackDone n c => Sys2Proof.Machine.execReadbackDone n c s
  | .nextWordRead n c => Sys2Proof.Machine.execNextWordRead n c s
  | .dmaTransferError n c k errs => Sys2Proof.Machine.execDmaTransferError n c k errs s
  | .rtcmdSwap n => Sys2Proof.Machine.execRtcmdSwap n s
  | .swapDrained n => Sys2Proof.Machine.execSwapDrained n s
  | .swapDrainTimeout n p => Sys2Proof.Machine.execSwapDrainTimeout n p s
  | .packetUrgent n ini => Sys2Proof.Machine.execPacketUrgent n ini s
  | .stctlClr n v => Sys2Proof.Machine.execStctlClr n v s
  | .deltaSync n x => Sys2Proof.Machine.execDeltaSync n x s
  | .coreSleep n x => Sys2Proof.Machine.execCoreSleep n x s
  | .coreWake n x => Sys2Proof.Machine.execCoreWake n x s
  | .tctlWrite n x v => Sys2Proof.Machine.execTctlWrite n x v s
  | .traceBufferAccept n => Sys2Proof.Machine.execTraceBufferAccept n s
  | .bctlClr n => Sys2Proof.Machine.execBctlClr n s
  | .traceClearDone n => Sys2Proof.Machine.execTraceClearDone n s
  | .porstN => Sys2Proof.Machine.execPorstN s
  | .sysrstN => Sys2Proof.Machine.execSysrstN s
  | .bootStageComplete outcome => Sys2Proof.Machine.execBootStageComplete outcome s
  | .flcmdRead => Sys2Proof.Machine.execFlcmdRead s
  | .flcmdProgram => Sys2Proof.Machine.execFlcmdProgram s
  | .flcmdErase => Sys2Proof.Machine.execFlcmdErase s
  | .flcmdDone fail => Sys2Proof.Machine.execFlcmdDone fail s
  | .otpProgramSlot alg slot => Sys2Proof.Machine.execOtpProgramSlot alg slot s
  | .otpProgramLock => Sys2Proof.Machine.execOtpProgramLock s
  | .otpProgramDone fail => Sys2Proof.Machine.execOtpProgramDone fail s
  | .bootAdvance => Sys2Proof.Machine.execBootAdvance s
  | .vddCoreWarning mv => Sys2Proof.Machine.execVddCoreWarning mv s
  | .brownoutAllHolding => Sys2Proof.Machine.execBrownoutAllHolding s
  | .thrSwitchDone => Sys2Proof.Machine.execThrSwitchDone s
  | .vddCoreRecoveryRise => Sys2Proof.Machine.execVddCoreRecoveryRise s
  | .vddCoreRecoveryFall mv => Sys2Proof.Machine.execVddCoreRecoveryFall mv s
  | .recoveryTimerExpire => Sys2Proof.Machine.execRecoveryTimerExpire s
  | .supplyResetLevel core => Sys2Proof.Machine.execSupplyResetLevel core s
  | .tempSensorRead t => Sys2Proof.Machine.execTempSensorRead t s
  | .thermalDutyTimer => Sys2Proof.Machine.execThermalDutyTimer s
  | .sectionPowerOn n srst => Sys2Proof.Machine.execSectionPowerOn n srst s
  | .sectionPowerOff n srst => Sys2Proof.Machine.execSectionPowerOff n srst s
  | .powerTransitionDone n => Sys2Proof.Machine.execPowerTransitionDone n s
  | .sectionSoftReset n on => Sys2Proof.Machine.execSectionSoftReset n on s
  | .softResetDone n => Sys2Proof.Machine.execSoftResetDone n s
  | .refclkLoss => Sys2Proof.Machine.execRefclkLoss s
  | .corePllUnlock => Sys2Proof.Machine.execCorePllUnlock s
  | .vccioChange b mv => Sys2Proof.Machine.execVccioChange b mv s
  | .bypass len tdi => Sys2Proof.Machine.execBypass len tdi s
  | .idcode len tdi => Sys2Proof.Machine.execIdcode len tdi s
  | .samplePreload len tdi => Sys2Proof.Machine.execSamplePreload len tdi s
  | .extest len tdi => Sys2Proof.Machine.execExtest len tdi s
  | .extestPulse len tdi => Sys2Proof.Machine.execExtestPulse len tdi s
  | .extestTrain len tdi idle => Sys2Proof.Machine.execExtestTrain len tdi idle s
  | .smbSetAddress adr pec v => Sys2Proof.Machine.execSmbSetAddress adr pec v s
  | .smbReadRegister adr pec => Sys2Proof.Machine.execSmbReadRegister adr pec s
  | .smbWriteRegister adr pec v => Sys2Proof.Machine.execSmbWriteRegister adr pec v s
  | .smbReadStage adr pec => Sys2Proof.Machine.execSmbReadStage adr pec s
  | .resetRelease clock => Sys2Proof.Machine.execResetRelease clock s
  | .prbsCheckerLock l bs => Sys2Proof.Machine.execPrbsCheckerLock l bs s
  | .ethPcsLinkChange p up => Sys2Proof.Machine.execEthPcsLinkChange p up s
  | .ptpMessageTransmit p event sub => Sys2Proof.Machine.execPtpMessageTransmit p event sub s

end Sys2Proof.Machine
end

