-- ==== Sys2Proof/WellFormed.lean ====
section
/-! DEFINITION. Which commands are well formed: what the operand types cannot say. -/

namespace Sys2Proof

/-- Whether the operands of a command make sense together. The machine gives every command a meaning; an ill-formed one is one that nothing
outside can send. -/
def Instr.wf : Instr → Bool
  | .regPairLowRead _ _ _ => true
  | .regPairLowWrite _ _ _ => true
  | .regPairHighWrite _ _ _ => true
  | .registerWrite src sect _ _ size v _ => (src.val == 11 || sect.val == 0) && (size.val == 3 || decide (v.toNat < 2 ^ (8 * 2 ^ size.val)))
  | .executeStep _ _ => true
  | .nop _ _ _ _ => true
  | .lut4 _ _ _ _ => true
  | .lut4e _ _ _ _ => true
  | .muxg _ _ _ _ => true
  | .muxr _ _ _ _ => true
  | .mrd _ _ _ => true
  | .mwr _ _ _ => true
  | .qrd _ _ _ errs => errs.all (fun e => decide (e.1.val < 4) && e.2.val != 0)
  | .qwr _ _ _ => true
  | .call _ _ _ => true
  | .digest _ _ _ => true
  | .qrdReturn _ _ _ => true
  | .homePathAccess _ _ _ => true
  | .homeMrdReturn _ _ _ => true
  | .nonhomeBankAccess _ _ _ _ => true
  | .nonhomeReturn _ _ _ => true
  | .clusterSlotRead _ _ _ _ _ => true
  | .clusterSlotWrite _ _ _ _ => true
  | .exportSlotRead _ _ _ _ => true
  | .exportSlotWrite _ _ _ _ => true
  | .inputPinSample _ _ _ => true
  | .outputUpdate _ _ => true
  | .outputBallChange _ => true
  | .holdSample _ _ _ => true
  | .holdResample _ => true
  | .holdStall _ => true
  | .periodEnd _ => true
  | .epilogueDrainEnd _ => true
  | .start _ _ => true
  | .pause _ => true
  | .resume _ => true
  | .stepRun _ _ => true
  | .stop _ => true
  | .restart _ => true
  | .badCmd _ op => op.val == 0 || decide (6 < op.val)
  | .armedStartFire _ => true
  | .pauseEffect _ => true
  | .stopEffect _ => true
  | .stepComplete _ => true
  | .restartComplete _ => true
  | .faultHalt _ => true
  | .groupMemberLeave _ => true
  | .hctlClr _ => true
  | .faultRecordClear _ => true
  | .paceEvent _ => true
  | .pacectlWrite _ _ => true
  | .loadImage _ _ => true
  | .loadPass1Complete => true
  | .loadPass2Complete => true
  | .commit _ _ => true
  | .autostartLoad => true
  | .clkctlWrite _ _ _ => true
  | .clockChangeDone _ _ => true
  | .crst _ _ => true
  | .clusterResetDone _ _ => true
  | .dstoreWrite _ _ _ _ _ => true
  | .dstoreRead _ _ _ _ => true
  | .codeWordStage _ _ _ _ => true
  | .codeInstructionStore _ _ _ => true
  | .serviceAccess _ m _ len bs errs _ =>
    decide (16 ≤ m.val) && (if bs.isEmpty then len.val != 0 else len.val == 0 && decide (bs.length ≤ 64)) && errs.all (fun e => e.2.val != 0)
  | .requestUrgent _ _ _ => true
  | .bankpwrWrite _ _ => true
  | .bankPowerDone _ _ => true
  | .fabricHbmRequest _ _ _ errs => errs.all (fun e => e.2.val != 0)
  | .hbmRequestComplete _ _ => true
  | .hbmRefreshRateChange _ _ => true
  | .queueWordWrite _ q ws eop tally poison integ =>
    decide ((8 ≤ q.val ∧ q.val ≤ 15) ∨ (32 ≤ q.val ∧ q.val ≤ 47) ∨ (56 ≤ q.val ∧ q.val ≤ 62)) && decide (1 ≤ ws.length ∧ ws.length ≤ 1024) &&
      eop == tally.isSome && (eop || !poison) && (poison || !integ)
  | .queueDequeue _ q k errs =>
    decide (q.val ≤ 7 ∨ (16 ≤ q.val ∧ q.val ≤ 31) ∨ (48 ≤ q.val ∧ q.val ≤ 55)) && errs.all (fun e => decide (e.1.val < k.val) && e.2.val != 0)
  | .ferryRst _ _ => true
  | .queueTest _ _ => true
  | .scrubTestDone _ _ _ => true
  | .mailboxWrite _ _ _ => true
  | .callPrefetch _ _ => true
  | .callDispatch _ _ => true
  | .callAgeCheck _ => true
  | .hvcdone _ _ => true
  | .watchdogExpiry _ _ => true
  | .returnEnqueue _ => true
  | .corectlWrite _ _ => true
  | .crpoolWrite _ _ _ => true
  | .writebackError _ _ => true
  | .coreInstructionRetire n x _ _ _ _ evict _ => (n.val != 8 || x.val == 0) && (x.val == 8 || evict.isEmpty)
  | .captArm _ _ => true
  | .captDisarm _ _ => true
  | .captForce _ => true
  | .rowEvaluate _ _ _ => true
  | .sequencerRearm _ _ => true
  | .headerWriteDone _ => true
  | .captStoreError _ _ => true
  | .actctlWrite _ _ => true
  | .trgEdge _ _ => true
  | .timeTick => true
  | .timeLoad => true
  | .timeAdd => true
  | .nowfRead => true
  | .offsetSubmit _ _ => true
  | .domselWrite _ => true
  | .holdoverTimeout _ => true
  | .alarmArm _ _ => true
  | .compareFire _ => true
  | .pulseGenEnable _ _ => true
  | .pulseEdge _ _ => true
  | .tsinfoRead _ => true
  | .ptpFrameReceive _ _ _ _ => true
  | .dreqSend _ => true
  | .drespReceive _ _ => true
  | .dreqTimeout _ => true
  | .dreqReceive _ _ => true
  | .laneTrain _ => true
  | .laneDisable _ => true
  | .cdrLock _ => true
  | .commaLock _ _ => true
  | .commaLoss _ _ => true
  | .fecLock _ => true
  | .fecLoss _ => true
  | .tlvExchangeDone _ _ => true
  | .frameEndCheck _ _ _ _ _ _ => true
  | .nakResendTimeout _ => true
  | .nakReceive _ => true
  | .linkFlitReceive _ => true
  | .idleFlitReceive _ => true
  | .tlvFlitReceive _ => true
  | .packetFlitReceive _ => true
  | .flitTransmit _ _ => true
  | .trainTimeout _ => true
  | .trainRetry _ => true
  | .laneEqWrite _ _ _ => true
  | .laneTest _ _ => true
  | .laneLoop _ _ => true
  | .injectGo _ => true
  | .eyeScanStart _ => true
  | .eyeScanDone _ _ => true
  | .lanePllUnlock _ => true
  | .neighbourReceive _ => true
  | .censusReceive _ => true
  | .registerReceive _ => true
  | .commandReceive _ => true
  | .responseReceive _ => true
  | .noticeReceive _ => true
  | .svcForward _ _ => true
  | .censusTimer => true
  | .systemDeadline => true
  | .nodeLostTimeout _ => true
  | .pairReceive => true
  | .pairRepeat => true
  | .pairingTimeout => true
  | .heartbeatSend => true
  | .heartbeatReceive => true
  | .heartbeatMiss => true
  | .digestReceive => true
  | .runcmdReceive => true
  | .runackReceive => true
  | .loadchkReceive => true
  | .selfFaultStepdown _ => true
  | .stepdownReceive _ => true
  | .takeoverReceive _ => true
  | .acceptReceive _ => true
  | .rejectReceive _ => true
  | .resumeReceive _ => true
  | .takeoverTimeout => true
  | .mirrorPacketReceive => true
  | .mirrorCallReturn => true
  | .mirrorMailbox => true
  | .mirrorPinSample => true
  | .disposalReport => true
  | .openCmd _ => true
  | .closeCmd _ => true
  | .hhpStart _ => true
  | .hhpPause _ => true
  | .hhpResume _ => true
  | .hhpStep _ => true
  | .hhpStop _ => true
  | .hhpRestart _ => true
  | .queueReset _ => true
  | .captureArm _ _ => true
  | .captureDisarm _ _ => true
  | .readFaults _ => true
  | .timeSet _ => true
  | .attest _ _ => true
  | .systemStatus _ _ => true
  | .hqEnable _ => true
  | .cmdtailWrite _ _ => true
  | .commandFetch _ _ => true
  | .cplheadWrite _ _ => true
  | .msixCoalesceTimeout _ _ => true
  | .bar2Write _ off bs _ _ => decide (1 ≤ bs.length ∧ bs.length ≤ 512 ∧ off.toNat + bs.length ≤ 2 ^ 28)
  | .bar2Read _ off len _ _ => decide (1 ≤ len.val ∧ off.toNat + len.val ≤ 2 ^ 28)
  | .flr _ => true
  | .hotReset => true
  | .dmaGo n c _ _ => n.val != 8 || decide (c.val < 2)
  | .dmaHalt n c _ _ => n.val != 8 || decide (c.val < 2)
  | .dmaWdraw n c _ _ => n.val != 8 || decide (c.val < 2)
  | .dmaDoorbell n c => n.val != 8 || decide (c.val < 2)
  | .descriptorFetched n c => n.val != 8 || decide (c.val < 2)
  | .dmaBurstDone n c _ _ => n.val != 8 || decide (c.val < 2)
  | .readbackDone n c => n.val != 8 || decide (c.val < 2)
  | .nextWordRead n c => n.val != 8 || decide (c.val < 2)
  | .dmaTransferError n c _ _ => n.val != 8 || decide (c.val < 2)
  | .rtcmdSwap _ => true
  | .swapDrained _ => true
  | .swapDrainTimeout _ _ => true
  | .packetUrgent _ _ => true
  | .stctlClr _ _ => true
  | .deltaSync n x => (n.val != 8 || x.val == 0) && x.val != 9
  | .coreSleep n x => n.val != 8 || x.val == 0
  | .coreWake n x => n.val != 8 || x.val == 0
  | .tctlWrite n x _ => (n.val != 8 || x.val == 0) && x.val != 9
  | .traceBufferAccept _ => true
  | .bctlClr _ => true
  | .traceClearDone _ => true
  | .porstN => true
  | .sysrstN => true
  | .bootStageComplete _ => true
  | .flcmdRead => true
  | .flcmdProgram => true
  | .flcmdErase => true
  | .flcmdDone _ => true
  | .otpProgramSlot _ _ => true
  | .otpProgramLock => true
  | .otpProgramDone _ => true
  | .bootAdvance => true
  | .vddCoreWarning _ => true
  | .brownoutAllHolding => true
  | .thrSwitchDone => true
  | .vddCoreRecoveryRise => true
  | .vddCoreRecoveryFall _ => true
  | .recoveryTimerExpire => true
  | .supplyResetLevel _ => true
  | .tempSensorRead _ => true
  | .thermalDutyTimer => true
  | .sectionPowerOn _ _ => true
  | .sectionPowerOff _ _ => true
  | .powerTransitionDone _ => true
  | .sectionSoftReset _ _ => true
  | .softResetDone _ => true
  | .refclkLoss => true
  | .corePllUnlock => true
  | .vccioChange _ _ => true
  | .bypass len tdi => decide (tdi < 2 ^ len.val)
  | .idcode len tdi => decide (tdi < 2 ^ len.val)
  | .samplePreload len tdi => decide (tdi < 2 ^ len.val)
  | .extest len tdi => decide (tdi < 2 ^ len.val)
  | .extestPulse len tdi => decide (tdi < 2 ^ len.val)
  | .extestTrain len tdi _ => decide (tdi < 2 ^ len.val)
  | .smbSetAddress _ _ _ => true
  | .smbReadRegister _ _ => true
  | .smbWriteRegister _ _ _ => true
  | .smbReadStage _ _ => true
  | .resetRelease _ => true
  | .prbsCheckerLock _ _ => true
  | .ethPcsLinkChange _ _ => true
  | .ptpMessageTransmit _ _ _ => true

end Sys2Proof
end

