-- ==== Sys2Proof/Safety.lean ====
section
/-! DEFINITION. The terms in which statements speak: what a command answers, when the device, a section or the hub's registers take
commands, and what counts as a safe run. -/

namespace Sys2Proof.Machine

/-- The command answers a next state: the device becomes `d`, and the fuses and the queue stay. -/
def Runs (c : Instr) (s : State) (d : Dev) : Prop := exec c s = .next { s with dev := d }

/-- The device is not held in reset. -/
abbrev State.up (s : State) : Prop := s.dev.held = false

/-- Section n takes commands: the device is not held in reset, and the section is ON and not in soft reset. -/
abbrev State.upIn (s : State) (n : Nat) : Prop := s.dev.held = false ∧ s.dev.sectionOn n = true

/-- The hub registers that do not answer in SAFE take writes. -/
abbrev State.hubUp (s : State) : Prop := s.dev.held = false ∧ s.dev.inSafe = false

/-- Every command that waits is well formed. -/
def State.queueOk (s : State) : Bool := s.pending.all Instr.wf

/-- A step that goes on. -/
def State.goesOn (s : State) : Bool :=
  match step s with
  | .next _ => true
  | _ => false

end Sys2Proof.Machine
end

