-- ==== Sys2Proof/Certificates/Slice0/Obligations.lean ====
section
/-! DEFINITION. The statements for the provers, family by family. A statement whose section rules leave a choice says so through the
names it uses; the choices are in the assumption log. -/

open Sys2Proof Sys2Proof.Machine Sys2Proof.Machine.Dev

/-- A step with command c at the front of the queue is exec of c on the machine with the queue's rest (log 1). -/
def Obligations.StepRunsFrontCommand : Prop := ∀ (s : State) (c : Instr) (rest : List Instr), s.pending = c :: rest →
  step s = exec c { s with pending := rest }

/-- Every command in every state answers a next state, whose queue is the queue's rest; and all but the end of OTP programming, BOOT.CMD.ADVANCE (as its
own command, as a write by the device controller, source 10, or as a store of its core, section number 8) and the commands that can reset the device
leave the fuses as they are. -/
def Obligations.EveryCommandCompletes : Prop := ∀ (c : Instr) (s : State), ∃ t : State, exec c s = .next t ∧ t.pending = s.pending ∧
  (t.otp = s.otp ∨ (∃ b, c = .otpProgramDone b) ∨ c = .bootAdvance ∨ c = .porstN ∨ c = .sysrstN ∨ (∃ b, c = .supplyResetLevel b) ∨
    (∃ v, c = .tempSensorRead v) ∨ c = .refclkLoss ∨ c = .corePllUnlock ∨
    (∃ src sect ph lay off size v, c = .registerWrite src sect ph lay off size v ∧ src.val = 10) ∨
    (∃ n x cyc ph short op evict ecc, c = .coreInstructionRetire n x cyc ph short op evict ecc ∧ n.val = 8))

/-- R484, R485, R489, R490: fuses only blow. Over every step, whatever the command, COUNT does not fall, and no blown key fuse, programmed bit, revocation
or LOCK returns. -/
def Obligations.FusesOnlyBlow : Prop := ∀ (s t : State), step s = .next t →
  s.otp.count ≤ t.otp.count ∧ (s.otp.lock = true → t.otp.lock = true) ∧
  (∀ k < 4, (s.otp.revR.getLsbD k = true → t.otp.revR.getLsbD k = true) ∧ (s.otp.revS.getLsbD k = true → t.otp.revS.getLsbD k = true) ∧
    (s.otp.irevR.getLsbD k = true → t.otp.irevR.getLsbD k = true) ∧ (s.otp.irevS.getLsbD k = true → t.otp.irevS.getLsbD k = true)) ∧
  (∀ (k : Fin 4) (i : Nat), ((s.otp.keysR[k]).fuses.getLsbD i = true → (t.otp.keysR[k]).fuses.getLsbD i = true) ∧
    ((s.otp.keysS[k]).fuses.getLsbD i = true → (t.otp.keysS[k]).fuses.getLsbD i = true) ∧
    ((s.otp.keysR[k]).prog = true → (t.otp.keysR[k]).prog = true) ∧ ((s.otp.keysS[k]).prog = true → (t.otp.keysS[k]).prog = true))

/-- R484, R489: the rollback count has 64 fuses: over every step a count of at most 64 stays one. -/
def Obligations.CountStaysInRange : Prop := ∀ (s t : State), s.otp.count ≤ 64 → step s = .next t → t.otp.count ≤ 64

/-- R312, R372, R484, R488, R510: after reset no command waits, boot is at stage 0, nothing holds the device, every section is OFF, TIME is 0, no session
is open, every register but the shadows of SCTL.STATE shows its reset value, memory lists nothing, and COUNT is within its 64 fuses. Which values stand where
the manual gives none is the choice of logs 1, 6, 12, 13 and 16. -/
def Obligations.ResetState : Prop := let s := State.reset
  s.pending = [] ∧ s.dev.bootStage = 0 ∧ s.dev.held = false ∧ (∀ n < 8, s.dev.pstate n = 0 ∧ s.dev.runState n = stOFF) ∧
  s.dev.time = ⟨0, 0, 0⟩ ∧ (∀ f < 9, s.dev.sessionOpen f = false) ∧ (∀ l : Loc, l.reset < 2 ^ 32 → (∀ n < 8, l.key ≠ (sctlState n).key) →
    s.dev.rd l = l.reset) ∧
  (∀ x ∈ s.dev.secs.toList, x.mem.spad = [] ∧ x.mem.hbm = []) ∧ s.otp.count ≤ 64

/-- R548: an undefined OP of SCTL.CMD gives BADCMD, code 6, with the OP in LASTOP, and nothing else. -/
def Obligations.BadCmdRefused : Prop := ∀ (s : State) (n : Fin 8) (op : Fin 16), s.upIn n → (op.val = 0 ∨ 6 < op.val) →
  Runs (.badCmd n op) s ((s.dev.wf (cmdstat n) 7 4 op).wf (cmdstat n) 3 0 6)

/-- R137, R140, R143, R153, R387, R548: what each run command does when CMDSTAT shows no error, in every form and state it is accepted in. PAUSE and a STOP
of a run leave BUSY and, in every member of the run group, the pending flag. STOP of a PAUSED group begins the epilogue, STOP of an armed group ends the
wait. START and STEP begin the run at once, or with MODE 1 or 2 arm the group; in a paired primary a START at once is armed at TIME plus 20 µs. RESUME and a
STEP from PAUSED run on. RESTART discards what is in flight and ends acquisitions. An armed command begins its run once its tick or trigger has come and the
clocks of the group are ready. A run that begins leaves every member RUNNING at POS 0 with the prologue and epilogue flags given, takes the sample of fret
0 and goes on to its hold check (HoldEvents); one from LOADED takes up no earlier pace event, counts its STEP and sends STARTED. A paired primary sends
RUNCMD for an accepted command to its twin, and a device outside a pair nothing. Choices of the model in it: logs 68, 73, 74 and 92. -/
def Obligations.RunCommandsAccepted : Prop :=
  (∀ (s : State) (n : Fin 8) (mode : Fin 4), s.upIn n →
    let g := s.dev.group n
    let cmd := fun (op : Nat) => (s.dev.wf (cmdstat n) 7 4 op).wf (cmdstat n) 3 0 0
    let busy := fun (op : Nat) => (cmd op).wb (cmdstat n) 31 true
    let flag := fun (b : Nat) (d : Dev) => d.each g (fun m d => d.wb (sctlState m) b true)
    let unpaced := fun (d : Dev) => d.each g (fun m d => d.clearPace m)
    let arm := fun (op : Nat) (m : ArmMode) (step : Bool) (stime : Dev → Dev) =>
      let d := flag 4 ((stime (cmd op)).wb (cmdstat n) 31 true)
      d.run n (fun r => { r with
        armed := some m
        armStep := step
        trigSeen := false
        late := m == .atTime && d.timeReached n
        timeHit := false })
    let soon := fun (d : Dev) => d.wr64 Reg.SCTL.STIME n [] ((d.time.ns + 20000) % 2 ^ 48)
    (s.dev.runErr n rcPAUSE 0 false = 0 → Runs (.pause n) s ((flag 6 (busy 2)).forwardRun n 2 0 none)) ∧
    (s.dev.runErr n rcSTOP 0 false = 0 →
      (s.dev.runState n = stRUNNING → s.dev.getSec n none (fun x => x.run.armed) = none →
        Runs (.stop n) s ((flag 5 (busy 5)).forwardRun n 5 0 none)) ∧
      (s.dev.runState n = stPAUSED → s.dev.getSec n none (fun x => x.run.armed) = none →
        Runs (.stop n) s (((flag 5 (cmd 5)).beginRun n false true).forwardRun n 5 0 none)) ∧
      (s.dev.runState n = stLOADED →
        let d := (((cmd 5).each g (fun m d => d.wb (sctlState m) 4 false)).wb (cmdstat n) 31 false).run n (fun r => { r with
          armed := none
          trigSeen := false
          late := false
          timeHit := false })
        Runs (.stop n) s (if s.dev.getSec n none (fun x => x.run.armed) = some .onTrigger then d else d.forwardRun n 5 0 none))) ∧
    (s.dev.runErr n rcRESTART 0 false = 0 → Runs (.restart n) s
      ((((cmd 6).each g (fun m d => ((d.discardFlight m).capRunEnd m).run m (fun r => { r with restarting := true }))).wb (cmdstat n) 31 true).forwardRun
        n 6 0 none)) ∧
    (s.dev.runErr n rcSTART mode false = 0 →
      (mode.val = 0 → s.dev.pairedPrimary = false → Runs (.start n mode) s ((cmd 1).startRun n false)) ∧
      (mode.val = 0 → s.dev.pairedPrimary = true → Runs (.start n mode) s ((arm 1 .atTime false soon).forwardRun n 1 0 none)) ∧
      (mode.val = 1 → Runs (.start n mode) s ((arm 1 .atTime false id).forwardRun n 1 1 none)) ∧
      (mode.val = 2 → Runs (.start n mode) s (arm 1 .onTrigger false id))) ∧
    (s.dev.runErr n rcSTEP mode false = 0 → s.dev.runState n = stLOADED →
      (mode.val = 0 → s.dev.pairedPrimary = false → Runs (.stepRun n mode) s ((cmd 4).startRun n true)) ∧
      (mode.val = 0 → s.dev.pairedPrimary = true → Runs (.stepRun n mode) s ((arm 4 .atTime true soon).forwardRun n 4 0 none)) ∧
      (mode.val = 1 → Runs (.stepRun n mode) s ((arm 4 .atTime true id).forwardRun n 4 1 none)) ∧
      (mode.val = 2 → Runs (.stepRun n mode) s (arm 4 .onTrigger true id))) ∧
    (s.dev.runErr n rcSTEP mode false = 0 → s.dev.runState n = stPAUSED → Runs (.stepRun n mode) s
      ((((unpaced (cmd 4)).run n (fun r => { r with stepsLeft := some (s.dev.rd (Reg.SCTL.STEPK.of n)) })).beginRun n false false).forwardRun n 4 mode none)) ∧
    (s.dev.runErr n rcRESUME 0 false = 0 → Runs (.resume n) s (((unpaced (cmd 3)).beginRun n false false).forwardRun n 3 0 none))) ∧
  (∀ (s : State) (n : Fin 8), s.upIn n → s.dev.haltDue n = false → (∀ m ∈ s.dev.group n, s.dev.clocksReady m = true) →
    let step := s.dev.getSec n false (fun x => x.run.armStep)
    (s.dev.getSec n none (fun x => x.run.armed) = some .atTime → s.dev.getSec n false (fun x => x.run.timeHit) = true →
      Runs (.armedStartFire n) s (s.dev.startRun n step)) ∧
    (s.dev.getSec n none (fun x => x.run.armed) = some .onTrigger → s.dev.getSec n false (fun x => x.run.trigSeen) = true →
      (s.dev.pairedPrimary = false → Runs (.armedStartFire n) s (s.dev.startRun n step)) ∧
      (s.dev.pairedPrimary = true → Runs (.armedStartFire n) s ((s.dev.acceptStart n 0 step).forwardRun n (if step then 4 else 1) 0 none)))) ∧
  (∀ (d : Dev) (n : Nat) (pro epi step : Bool), n < 8 →
    let begun := fun (e : Dev) (pro epi : Bool) => ∀ m ∈ d.group n, e.runState m = stRUNNING ∧ e.fb (sctlState m) 7 = pro ∧ e.fb (sctlState m) 8 = epi ∧
      e.fb (sctlState m) 4 = false ∧ e.rd (Reg.SCTL.POS.of m) = 0 ∧ e.dcyc m = d.dcyc m ∧ e.group m = d.group m ∧
      e.getSec m (some .atTime) (fun x => x.run.armed) = none
    (∃ e : Dev, d.beginRun n pro epi = (e.sampleGroup n (e.fretHere n)).holdCheck n ∧ begun e pro epi) ∧
    (∃ e : Dev, d.startRun n step = ((((e.sampleGroup n (e.fretHere n)).holdCheck n).wb (cmdstat n) 31 false).notice n 0x0101 [d.wrapNs]).when
        (d.getSec n false (fun x => x.run.late)) (fun d => d.notice n 0x0105 []) ∧ begun e true false ∧
      (∀ m ∈ d.group n, e.fd (Reg.SCTL.PACEPEND.of m) 15 0 = 0 ∧ e.getSec m [1] (fun x => x.run.paceTimes) = []) ∧
      e.getSec n none (fun x => x.run.stepsLeft) = (if step then some (d.rd (Reg.SCTL.STEPK.of n)) else none) ∧
      e.getSec n 1 (fun x => x.run.holdRun) = 0)) ∧
  (∀ (d : Dev) (n op mode : Nat) (asker : Option Asker),
    (d.pairedPrimary = false → d.forwardRun n op mode asker = d) ∧
    (d.pairedPrimary = true →
      let m := if (op = 1 ∨ op = 4) ∧ mode = 0 ∧ d.armed n = true then 1 else mode
      d.forwardRun n op mode asker = (d.sendMir 0 ([4, n % 8 + d.fd (sctlState n) 23 16 * 8, m * 16 + op] ++ words12 4 (d.rd64 Reg.SCTL.STIME n) ++
        [d.rd (Reg.SCTL.STRIG.of n) % 512] ++ words12 3 (d.rd (Reg.SCTL.STEPK.of n)))).twn (fun t => { t with
          fwd := t.fwd ++ [⟨n, m * 16 + op, asker⟩] })))

/-- R137, R162: where a period has ended and no halt is due: PAUSE takes the group to PAUSED and PAUSED is sent; STEP k whose periods have run does so
with STEP_DONE, and PAUSED after it when a PAUSE waits; STOP goes first and begins the epilogue, and the command is over. R137: in a group that enters
PAUSED every member shows PAUSED, with PAUSE pending no longer, and the leader's command is over. R278: reads of DSTORE that waited are answered then;
without one nothing else happens. R85, R103, R137, R390: the end of an executed period that is not an epilogue, outside a twin pair or where no digest
is due, adds each member's cycle number to its digest and raises DCYC; a STEP has one period less to run; what waits takes effect next, and else the hold of
the next period is checked. The end of an epilogue begins the drain, and the end of the drain, no halt being due, brings every member to LOADED with no
transfer on its way and sends STOPPED. Choices of the model in it: logs 48 and 67. -/
def Obligations.PeriodEnds : Prop :=
  (∀ (s : State) (n : Fin 8), s.upIn n → s.dev.effectDue n = true →
    let ld := s.dev.leader n
    let left := s.dev.getSec ld none (fun x => x.run.stepsLeft)
    (s.dev.fb (sctlState ld) 5 = false → s.dev.fb (sctlState ld) 6 = true → left ≠ some 0 →
      Runs (.pauseEffect n) s ((s.dev.enterPaused n).notice ld 0x0102 []).serveGroup) ∧
    (s.dev.fb (sctlState ld) 5 = false → s.dev.fb (sctlState ld) 6 = false → left = some 0 →
      Runs (.stepComplete n) s ((s.dev.enterPaused n).notice ld 0x0104 []).serveGroup) ∧
    (s.dev.fb (sctlState ld) 5 = false → s.dev.fb (sctlState ld) 6 = true → left = some 0 →
      Runs (.stepComplete n) s (((s.dev.enterPaused n).notice ld 0x0104 []).notice ld 0x0102 []).serveGroup) ∧
    (s.dev.fb (sctlState ld) 5 = true → Runs (.stopEffect n) s
      (((s.dev.each (s.dev.group n) (fun m d => ((d.wb (sctlState m) 8 true).wb (sctlState m) 6 false).run m
        (fun r => { r with
          effectDue := false
          stepsLeft := none }))).wb (cmdstat ld) 31 false).holdCheck n))) ∧
  (∀ (d : Dev) (n m : Nat), m ∈ d.group n → m < 8 → d.leader n < 8 →
    (d.enterPaused n).runState m = stPAUSED ∧ (d.enterPaused n).fb (sctlState m) 6 = false ∧
    (d.enterPaused n).fb (cmdstat (d.leader n)) 31 = false) ∧
  (∀ d : Dev, (∀ m < 8, d.getSec m [] (fun x => x.run.reads) = []) → d.serveGroup = d) ∧
  (∀ (s : State) (n : Fin 8), s.upIn n → s.dev.haltDue n = false →
    let g := s.dev.group n
    let ld := s.dev.leader n
    (s.dev.getSec n false (fun x => x.run.atEnd) = true → s.dev.running n = true → s.dev.fb (sctlState n) 8 = true →
      Runs (.periodEnd n) s ((s.dev.each g (fun m d => d.run m (fun r => { r with atEnd := false }))).each g
        (fun m d => d.run m (fun r => { r with drain := some 0 })))) ∧
    (s.dev.getSec n false (fun x => x.run.atEnd) = true → s.dev.running n = true → s.dev.fb (sctlState n) 8 = false →
      (s.dev.twinState ≠ 2 ∨ ∀ m ∈ g, (s.dev.dcyc m + 1) % 4096 ≠ 0) →
      ∃ d : Dev, Runs (.periodEnd n) s (if d.fb (sctlState ld) 5 || d.fb (sctlState ld) 6 || d.getSec ld none (fun x => x.run.stepsLeft) == some 0
          then d.each g (fun m d => d.run m (fun r => { r with effectDue := true })) else d.holdCheck n) ∧
        d.fb (sctlState ld) 5 = s.dev.fb (sctlState ld) 5 ∧ d.fb (sctlState ld) 6 = s.dev.fb (sctlState ld) 6 ∧
        d.getSec ld none (fun x => x.run.stepsLeft) = (s.dev.getSec ld none (fun x => x.run.stepsLeft)).map (fun k => k - 1) ∧
        ∀ m ∈ g, d.dcyc m = (s.dev.dcyc m + 1) % 2 ^ 64 ∧ d.fb (sctlState m) 7 = false ∧ d.runState m = s.dev.runState m ∧
          d.rd64 Reg.TWIN.SDIG 8 [m] = digestBytes (s.dev.rd64 Reg.TWIN.SDIG 8 [m]) (toBytes 8 (s.dev.dcyc m)) % 2 ^ 64) ∧
    (s.dev.getSec n none (fun x => x.run.drain) = some 16 →
      ∃ d : Dev, Runs (.epilogueDrainEnd n) s (d.notice ld 0x0103 []) ∧ d.fb (cmdstat ld) 31 = false ∧
        ∀ m ∈ g, d.runState m = stLOADED ∧ (∀ b : Nat, 5 ≤ b → b ≤ 8 → d.fb (sctlState m) b = false) ∧
          d.getSec m [] (fun x => x.fab.xfers.map (fun y => y.done)) = [] ∧ d.getSec m (some 0) (fun x => x.run.drain) = none))

/-- R142, R145, R149, R151, R152: the step whose start is a sampling point begins with the sample of the fret ahead; a hold not yet sampled at H8 is sampled
there, and goes on for another fret while a member is not ready; HOLD_STALL is sent once, after HLIMIT held frets. R142, R146, R147, R149, R153, R201: a
section is ready for a fret just when pacing has an event for it, no throttle and no twin asks it to wait, and in every used cluster the non-home queue
has room and every active entry of a stage that runs is satisfied; a sample notes that of every member. At a fret boundary a group that is ready goes on
without its sample; one that is not, and need not halt, holds: every member counts the fret under its causes, and HLAST shows them with the fret.
Choices of the model in it: logs 48, 72 and 75. -/
def Obligations.HoldEvents : Prop :=
  (∀ (s : State) (n : Fin 8) (mask level : BitVec 12), s.upIn n →
    (let d := (s.dev.boardDrive n mask.toNat level.toNat).openStep n
     (s.dev.boardDrive n mask.toNat level.toNat).inStep n = false → d.inStep n = true → d.sampled n = false →
     ∀ a : FretAt, d.fretAhead n = some a → Runs (.holdSample n mask level) s (d.sampleGroup n a)) ∧
    (let d := s.dev.sampleGroup n (s.dev.fretHere n)
     s.dev.holding n = true → s.dev.getSec n true (fun x => x.run.resampled) = false →
     (d.groupReady n = true →
       Runs (.holdResample n) s (d.each (d.group n) (fun m d => d.run m (fun r => { r with resampled := true })))) ∧
     (d.groupReady n = false → d.haltDue n = false → Runs (.holdResample n) s (d.beginHold n))) ∧
    (let ld := s.dev.leader n
     let lim := s.dev.rd (Reg.SCTL.HLIMIT.of ld)
     s.dev.holding n = true → lim ≠ 0 → s.dev.getSec ld true (fun x => x.run.stallSent) = false →
     lim ≤ s.dev.getSec ld 0 (fun x => x.run.holdRun) →
     Runs (.holdStall n) s ((s.dev.notice ld 0x0107 []).run ld (fun r => { r with stallSent := true })))) ∧
  (∀ (d : Dev) (n : Nat) (a : FretAt), n < 8 →
    ((d.sampleSection n a).2 = 0 ↔
      (a.f ≠ 0 ∨ d.fb (Reg.SCTL.PACECTL.of (d.leader n)) 31 = false ∨ d.fd (Reg.SCTL.PACEPEND.of (d.leader n)) 15 0 ≠ 0) ∧
      d.brownoutReq = false ∧ d.pow.hotReq = false ∧ d.twinHold n a = false ∧
      ∀ c ∈ d.usedClusters n, d.nonhomeLen n c < 40 ∧ ∀ i < 8, (d.waitEnt n c a.f i).testBit 31 = true →
        a.off (bits (d.waitEnt n c a.f i) 27 27) = false → d.waitOk n c a (d.waitEnt n c a.f i) = true) ∧
    (d.group n = [n] → (d.sampleGroup n a).getSec n none (fun x => x.run.sample) = some (d.sampleSection n a).2)) ∧
  (∀ (d : Dev) (n : Nat), n < 8 →
    (d.haltDue n = false → d.groupReady n = true → d.holdCheck n = d.each (d.group n) (fun m d => d.run m (fun r => { r with sample := none }))) ∧
    (d.haltDue n = false → d.groupReady n = false → d.holdCheck n = d.beginHold n) ∧
    (∀ m ∈ d.group n,
      let t := d.beginHold n
      let un := d.getSec m 0 (fun x => x.run.sample.getD 0) % 2 ^ 11
      let causes := if un = 0 then 2 ^ 10 else un
      t.holding m = true ∧ t.getSec m true (fun x => x.run.resampled) = false ∧
      t.rd64 Reg.SCTL.HCNT m [0] = satAdd 64 (d.rd64 Reg.SCTL.HCNT m [0]) 1 ∧
      (∀ c < 11, c ≠ 0 → t.rd64 Reg.SCTL.HCNT m [c] =
        if causes.testBit c then satAdd 64 (d.rd64 Reg.SCTL.HCNT m [c]) 1 else d.rd64 Reg.SCTL.HCNT m [c]) ∧
      t.rd (Reg.SCTL.HLAST.of m) = (causes / 2 * 2 ^ 16 + d.fd (Reg.SCTL.POS.of m) 20 16) % 2 ^ 32))

/-- R156, R122, R137: at the end of the fret, hold or drain in which a fault was raised the group halts, and so does a group that a section has left while it
ran. R104, R156, R158, R159: every member of a group that halts shows HALTED without any flag, its FHALT the fret, the record it had, nothing in flight, and
with no RESTART pending its command is over. R85, R94, R137, R141, R159: RESTART completes once no member has a non-home access or a current call left:
every member is LOADED at step 0 with DCYC, its digest and its fault record clear, the command is over, and RESTARTED is sent.
Choices of the model in it: logs 48 and 68. -/
def Obligations.HaltsAndRestarts : Prop :=
  (∀ (s : State) (n m : Fin 8), s.up → (∀ x ∈ s.dev.group m, s.dev.running x = true) → s.dev.running m = true → s.dev.inStep m = false →
    s.dev.haltDue m = true →
    let drain := s.dev.getSec m none (fun x => x.run.drain)
    (drain = some 16 ∨ (drain = none ∧ (s.dev.holding m = true ∨ s.dev.posStep m % 16 = 0))) →
    let fret := if drain.isSome then 0 else if s.dev.holding m then s.dev.posStep m / 16 else s.dev.getSec m 0 (fun x => x.run.lastStep) / 16
    let t := ((s.dev.settleGroup m).haltGroup m fret).serveGroup
    (s.dev.sectionOn m = true → Runs (.faultHalt m) s t) ∧
    ((List.range 8).find? (fun x => s.dev.getSec x false (fun y => y.run.memberLeft.contains n.val)) = some m.val → Runs (.groupMemberLeave n) s t)) ∧
  (∀ (d : Dev) (n fret m : Nat), n < 8 → m ∈ d.group n →
    let t := d.haltGroup n fret
    t.runState m = stHALTED ∧ (∀ b : Nat, 3 ≤ b → b < 16 → t.fb (sctlState m) b = false) ∧ t.group m = d.group m ∧
    t.rd (Reg.SFLT.FHALT.of m) = fret % 32 ∧ (d.fb (Reg.SFLT.FSTAT.of m) 31 = true → t.rd (Reg.SFLT.FSTAT.of m) = d.rd (Reg.SFLT.FSTAT.of m)) ∧
    t.getSec m [true] (fun x => x.fab.xfers.map (fun y => y.done)) = [] ∧ t.getSec m [] (fun x => x.mem.acc.filter (fun a => a.home)) = [] ∧
    t.getSec m true (fun x => x.run.haltDue) = false ∧ t.getSec m [0] (fun x => x.run.memberLeft) = [] ∧
    (d.getSec m true (fun x => x.run.restarting) = false → t.fb (cmdstat m) 31 = false)) ∧
  (∀ (s : State) (n : Fin 8), s.upIn n → s.dev.leader n = n → s.dev.getSec n false (fun x => x.run.restarting) = true →
    (∀ m ∈ s.dev.group n, s.dev.nhCount m = 0 ∧ ∀ i < 8, s.dev.getSlot m i true (fun x => x.cur.isNone) = true) →
    ∃ d : Dev, Runs (.restartComplete n) s (d.notice n 0x0108 []) ∧ d.fb (cmdstat n) 31 = false ∧
      ∀ m ∈ s.dev.group n, d.runState m = stLOADED ∧ d.dcyc m = 0 ∧ d.rd64 Reg.TWIN.SDIG 8 [m] = 0 ∧ d.rd (Reg.SCTL.POS.of m) = 0 ∧
        d.rd (Reg.SFLT.FSTAT.of m) = 0 ∧ d.getSec m true (fun x => x.run.restarting) = false)

/-- R152, R153, R155, R159: HCTL.CLR clears every hold counter and nothing else; PACECTL takes TOL in every state and EN only while the section is not
RUNNING; a pace event raises PACEPEND by one up to 65,535, where it sets OVF; FSTAT.VALID cleared in LOADED or HALTED clears the whole fault record.
Choices of the model in it: log 76. -/
def Obligations.RunRegisters : Prop := ∀ (s : State) (n : Fin 8) (v : BitVec 32), s.upIn n →
  (∃ t : Dev, Runs (.hctlClr n) s t ∧ (∀ c < 11, t.rd64 Reg.SCTL.HCNT n [c] = 0) ∧ t.secs = s.dev.secs ∧
    ∀ l : Loc, (∀ c < 11, l.key ≠ (Reg.SCTL.HCNT.of n [c]).key ∧ l.key ≠ (Reg.SCTL.HCNT.of n [c]).key + 4) → t.rd l = s.dev.rd l) ∧
  (s.dev.runState n ≠ stRUNNING → Runs (.pacectlWrite n v) s (s.dev.wr (Reg.SCTL.PACECTL.of n) (bits v.toNat 31 31 * 2 ^ 31 + v.toNat % 2 ^ 16))) ∧
  (s.dev.runState n = stRUNNING → Runs (.pacectlWrite n v) s
    (s.dev.wr (Reg.SCTL.PACECTL.of n) (s.dev.fd (Reg.SCTL.PACECTL.of n) 31 31 * 2 ^ 31 + v.toNat % 2 ^ 16))) ∧
  (∀ (t : Nat) (rest : List Nat), s.dev.getSec n [] (fun x => x.run.paceDue) = t :: rest →
    (s.dev.fd (Reg.SCTL.PACEPEND.of n) 15 0 < 0xFFFF → ∃ d : Dev, Runs (.paceEvent n) s d ∧
      d.fd (Reg.SCTL.PACEPEND.of n) 15 0 = s.dev.fd (Reg.SCTL.PACEPEND.of n) 15 0 + 1 ∧ d.getSec n [] (fun x => x.run.paceDue) = rest) ∧
    (s.dev.fd (Reg.SCTL.PACEPEND.of n) 15 0 = 0xFFFF → ∃ d : Dev, Runs (.paceEvent n) s d ∧ d.fb (Reg.SCTL.PACEPEND.of n) 31 = true)) ∧
  (s.dev.runState n = stLOADED ∨ s.dev.runState n = stHALTED → ∃ d : Dev, Runs (.faultRecordClear n) s d ∧
    ∀ r ∈ [Reg.SFLT.FSTAT, Reg.SFLT.FLOC, Reg.SFLT.FCYC, Reg.SFLT.FLATER, Reg.SFLT.FHALT], d.rd (r.of n) = 0)

/-- R34, R47 to R52, R68: a logic instruction of a used course issues once in the step, and does nothing else but that: where the stage of its course runs
and it meets no fault it records the bit of its BP, and with a fault it records that bit as 0 and raises the fault with its OPND code, course, BP, step
and cycle; where the stage is suppressed its bit is 0. R47: a NOP whose fields are zero yields 0. R48, R51: LUT4 and MUXG yield the bit of TT at
8·D + 4·C + 2·B + A. R49: LUT4E with D = 1 yields the bit of TT at 4·C + 2·B + A, and with D = 0 its bit of the course's own result word of the step,
read for the cycle before. R52: the MUXR of a complete gang whose members meet no fault yields the operand that its own operands select, member D·C and
operand B·A. R156, R158: a fault in a RUNNING section makes a halt due, and is recorded where none was. Choices of the model in it: log 66. -/
def Obligations.LogicOpsIssue : Prop :=
  (∀ (s : State) (n : Fin 8) (cl : Fin 16) (crs : Fin 64) (bp : Fin 12), s.upIn n →
    let d := s.dev.beginStep n
    let a := d.atStep n cl crs
    let i := d.code n cl crs bp (d.posStep n)
    let o := d.bpOut a bp (d.suppressed n)
    let issued := fun (b : Bool) => d.fab n (fun f => { f with issued := (bpKey cl crs bp, b) :: f.issued })
    d.issuing n = true → d.used n cl = true → d.getSec n true (fun x => x.fab.issued.any (fun p => p.1 == bpKey cl crs bp)) = false →
    ∀ t : Dev,
      ((d.suppressed n (stageOf (d.insns a)) = true ∧ t = issued false) ∨
       (d.suppressed n (stageOf (d.insns a)) = false ∧ o.fault = none ∧ t = issued o.bit) ∨
       (d.suppressed n (stageOf (d.insns a)) = false ∧ ∃ c k : Nat, o.fault = some (c, k) ∧
         t = (issued o.bit).raise n ⟨c, k, globalCourse n cl crs, bp, d.posStep n, cycleOf a i⟩)) →
      (iOP i = opNOP → Runs (.nop n cl crs bp) s t) ∧ (iOP i = opLUT4 → Runs (.lut4 n cl crs bp) s t) ∧
      (iOP i = opLUT4E → Runs (.lut4e n cl crs bp) s t) ∧ (iOP i = opMUXG → Runs (.muxg n cl crs bp) s t) ∧
      (iOP i = opMUXR → Runs (.muxr n cl crs bp) s t)) ∧
  (∀ (d : Dev) (a : At) (sup : Nat → Bool) (bp i : Nat), (d.insns a).getD bp 0 = i →
    iparOk i = true → opBad (d.insns a) bp (bp == 0 && d.limitSpent a sup) = false →
    (iOP i = opNOP → iSTG i = 0 → bits i 87 78 = 0 → bits i 71 0 = 0 → d.bpOut a bp sup = BpOut.clean false) ∧
    ∀ vs : List Bool, badOperand a.p i = none → iPORT i = 0 → d.readBits a i = .inl vs →
    (iOP i = opLUT4 ∨ iOP i = opMUXG → d.bpOut a bp sup = BpOut.clean ((iTT i).testBit (lutIndex vs))) ∧
    (iOP i = opLUT4E → bits (iTT i) 15 8 = 0 →
      (vs.getD 3 false = true → d.bpOut a bp sup = BpOut.clean ((iTT i).testBit (lutIndex (vs.take 3)))) ∧
      (vs.getD 3 false = false → ∀ v : Nat, d.readWord a a.k (cycleOf a i + 1) = .inl v → d.bpOut a bp sup = BpOut.clean (v.testBit bp))) ∧
    (iOP i = opMUXR → iTT i = 0 → (∀ m < 4, ((d.member a (d.insns a) (bp - 4 + m)).1).fault = none) →
      d.bpOut a bp sup = BpOut.clean ((d.member a (d.insns a) (bp - 4 + lutIndex vs / 4)).2.getD (lutIndex vs % 4) false))) ∧
  (∀ (d : Dev) (n : Nat) (f : FaultInfo), n < 8 → d.runState n = stRUNNING →
    let t := d.raise n f
    t.runState n = stRUNNING ∧ t.getSec n false (fun x => x.run.haltDue) = true ∧
    (d.fb (Reg.SFLT.FSTAT.of n) 31 = false → t.rd (Reg.SFLT.FSTAT.of n) = (2 ^ 31 + n * 2 ^ 27 + f.code) % 2 ^ 32 ∧
      t.rd (Reg.SFLT.FLOC.of n) = (f.opnd * 2 ^ 29 + f.course * 2 ^ 16 + f.bp * 2 ^ 12 + f.step) % 2 ^ 32 ∧
      t.rd64 Reg.SFLT.FCYC n = f.cycle % 2 ^ 64))

/-- R59, R62 to R65, R68: a word op on BP0 of a used course issues once in the step; CALL and DIGEST let those of the lower courses go first, and where there
is none begin at once. Where the stage is suppressed it does nothing, and a fault of its own is raised. Without a fault: MRD and MWR queue their access,
for the home path or the cluster's non-home queue, or raise MEM_RANGE where their window does not map it; QRD takes the words that AVAIL lets it have and
schedules their return, or raises INTEGRITY or POISONED for a word so marked; QWR writes its words, in order, behind those of its queue, the last one
marked where EOP is set; CALL posts its entry, or is refused with CALL_REFUSED; DIGEST folds its words into SDIG. R54 to R57: what an op does is read from its
PORT, TT and operands, once they are legal and its words pass their checks. Choices of the model in it: log 66. -/
def Obligations.WordOpsIssue : Prop :=
  (∀ (s : State) (n : Fin 8) (cl : Fin 16) (crs : Fin 64) (errs : List (Fin 1024 × Fin 3)), s.upIn n →
    let b := s.dev.beginStep n
    let op := iOP (b.code n cl crs 0 (b.posStep n))
    let d := if op = opCALL ∨ op = opDIGEST then b.issueUpTo n cl crs op else b
    let a := d.atStep n cl crs
    let cyc := cycleOf a ((d.insns a).getD 0 0)
    let gc := globalCourse n cl crs
    let o := d.bpOut a 0 (d.suppressed n)
    let issued := d.fab n (fun f => { f with issued := (bpKey cl crs 0, false) :: f.issued })
    let fault := fun (c k : Nat) (t : Dev) => t.raise n ⟨c, k, gc, 0, a.k, cyc⟩
    let ran := fun (t : Dev) => (op = opMRD → Runs (.mrd n cl crs) s t) ∧ (op = opMWR → Runs (.mwr n cl crs) s t) ∧
      (op = opQRD → Runs (.qrd n cl crs errs) s t) ∧ (op = opQWR → Runs (.qwr n cl crs) s t) ∧
      (op = opCALL → Runs (.call n cl crs) s t) ∧ (op = opDIGEST → Runs (.digest n cl crs) s t)
    b.issuing n = true → d.issuing n = true → d.used n cl = true →
    d.getSec n true (fun x => x.fab.issued.any (fun p => p.1 == bpKey cl crs 0)) = false →
    (d.suppressed n (stageOf (d.insns a)) = true → ran issued) ∧
    (d.suppressed n (stageOf (d.insns a)) = false →
      (∀ c k : Nat, o = BpOut.bad c k → ran (fault c k issued)) ∧
      (∀ (port w dst cnt : Nat) (home : Bool), op = opMRD → o = ⟨false, none, .mrd port w dst cnt home⟩ →
        (d.portAddr n cl port w cnt false home = none → Runs (.mrd n cl crs) s (fault fMEM_RANGE 0 issued)) ∧
        (∀ x : Nat, d.portAddr n cl port w cnt false home = some x → Runs (.mrd n cl crs) s (issued.mem n (fun m => { m with
          acc := m.acc ++ [⟨false, home, home || bankOf x == cl, cl, crs, port, w, [], cnt, dst, cyc % 2, a.k, cyc,
            if home || bankOf x == cl then 3 else 0, false⟩] })))) ∧
      (∀ (port w : Nat) (ws : List Nat) (home : Bool), op = opMWR → o = ⟨false, none, .mwr port w ws home⟩ →
        (d.portAddr n cl port w ws.length true home = none → Runs (.mwr n cl crs) s (fault fMEM_RANGE 0 issued)) ∧
        (∀ x : Nat, d.portAddr n cl port w ws.length true home = some x → Runs (.mwr n cl crs) s (issued.mem n (fun m => { m with
          acc := m.acc ++ [⟨true, home, home || bankOf x == cl, cl, crs, port, w, ws, ws.length, 0, cyc % 2, a.k, cyc,
            if home || bankOf x == cl then 3 else 0, false⟩] })))) ∧
      (∀ q dst cnt : Nat, q < 64 → op = opQRD → o = ⟨false, none, .qrd q dst cnt⟩ → errs = [] →
        let was := d.getQ n q [] Queue.words
        let k := min cnt (d.getQ n q 0 Queue.avail)
        let ws := was.take k
        ∃ e : Dev, e.getQ n q [] Queue.words = was.drop k ∧
          (ws = [] → Runs (.qrd n cl crs errs) s e) ∧
          (ws ≠ [] → (∀ w ∈ ws, w.poison = false) → Runs (.qrd n cl crs errs) s (e.fab n (fun f => { f with
            rets := f.rets ++ [⟨.qrd, cl, crs, dst, ws.zipIdx.map (fun p => (p.2, p.1.data.toNat)), cyc % 2, 3, false, false⟩] }))) ∧
          ((∃ w ∈ ws, w.poison = true ∧ w.integ = true) → Runs (.qrd n cl crs errs) s (fault fINTEGRITY 0 e)) ∧
          ((∃ w ∈ ws, w.poison = true) → (∀ w ∈ ws, w.poison = true → w.integ = false) →
            Runs (.qrd n cl crs errs) s (fault fPOISONED 0 e))) ∧
      (∀ (q : Nat) (ws : List Nat) (eop : Bool), q < 64 → op = opQWR → o = ⟨false, none, .qwr q ws eop⟩ →
        ws.length ≤ d.getQ n q 0 Queue.free → d.getQ n q 1024 (fun x => x.openLen) + ws.length < 1024 →
        (d.getQ n q false Queue.toBanks = false ∨ d.getQ n q [] (fun x => x.chain) = []) →
        ∃ t : Dev, Runs (.qwr n cl crs) s t ∧
          t.getQ n q [] (fun x => x.words.map (fun w => (w.data.toNat, w.eop))) =
            d.getQ n q [] (fun x => x.words.map (fun w => (w.data.toNat, w.eop))) ++
              ws.zipIdx.map (fun p => (p.1 % 4096, eop && p.2 + 1 == ws.length)) ∧
          t.rd (Reg.FERRY.OVRCNT.of n [q]) = d.rd (Reg.FERRY.OVRCNT.of n [q])) ∧
      (∀ (cls tag : Nat) (args : List Nat), op = opCALL → o = ⟨false, none, .call cls args tag⟩ →
        let e : CallEnt := ⟨d.getSec n 0 (fun x => x.calls.nextSeq), cyc, gc, cls, args, tag, d.fd (classLoc n cls) 29 28, d.clk, d.clk, false⟩
        let refused := fun (r : Nat) => ((issued.bump (Reg.CALL.REFCNT.of n)).decision n 3 0 e 0 r).notice n 0x0111 [cls, cl, r]
        (d.fb (classLoc n cls) 31 = false → Runs (.call n cl crs) s (refused 2)) ∧
        (d.fb (classLoc n cls) 31 = true → d.credits n cl = 0 → Runs (.call n cl crs) s (refused 1)) ∧
        (d.fb (classLoc n cls) 31 = true → d.credits n cl ≠ 0 → d.secondary = false → d.getSec n [] (fun x => x.calls.mirror) = [] →
          Runs (.call n cl crs) s ((issued.calls n (fun c => { c with
            ready := c.ready ++ [e]
            nextSeq := c.nextSeq + 1 })).bump (Reg.CALL.POSTCNT.of n)))) ∧
      (∀ ws : List Nat, op = opDIGEST → o = ⟨false, none, .digest ws⟩ →
        Runs (.digest n cl crs) s (issued.wr64 Reg.TWIN.SDIG 8 [n.val] (digestBytes (d.rd64 Reg.TWIN.SDIG 8 [n.val])
          ((ws.map (fun w => toBytes 2 w)).flatten))))) ∧
    ((∀ c ∈ b.usedClusters n, c ≤ cl.val → ∀ x < (if c = cl.val then crs.val else 64), iOP (b.code n c x 0 (b.posStep n)) ≠ op) → d = b)) ∧
  (∀ (d : Dev) (a : At) (sup : Nat → Bool) (i : Nat) (ws : List (List Nat)), (d.insns a).getD 0 0 = i →
    isWordOp (iOP i) = true → iparOk i = true → opBad (d.insns a) 0 (d.limitSpent a sup) = false → (∀ k < 4, wordOperandBad a.p i k = false) →
    portOk (iOP i) (iPORT i) = true → iTT i &&& (0xFFFF - ttUse (iOP i)) = 0 → d.readAll a i = .inl ws →
    let one := fun (k : Nat) => (ws.getD k []).getD 0 0
    let o := d.bpOut a 0 sup
    (iOP i = opMRD → o = ⟨false, none, .mrd (iPORT i) (one 1 * 4096 + one 0) (iOPD i 2 / 16) (iTT i % 4 + 1) ((iTT i).testBit 5)⟩) ∧
    (iOP i = opMWR → o = ⟨false, none, .mwr (iPORT i) (one 1 * 4096 + one 0) (ws.getD 2 []) ((iTT i).testBit 5)⟩) ∧
    (iOP i = opQRD → o = ⟨false, none, .qrd (iPORT i) (iOPD i 0 / 16) (iTT i % 4 + 1)⟩) ∧
    (iOP i = opQWR → o = ⟨false, none, .qwr (iPORT i) (ws.getD 0 []) ((iTT i).testBit 4)⟩) ∧
    (iOP i = opCALL → o = ⟨false, none, .call (iPORT i) [one 0, one 1, one 2, one 3] (iTT i % 16)⟩) ∧
    (iOP i = opDIGEST → o = ⟨false, none, .digest (ws.getD 0 [])⟩))

/-- R99, R100, R108 to R111, R114 to R116, R120, R121: each slot entry of the row of the coming step is read once. A valid one whose source word passes its
check sends the word on its way: two steps later through CLp, seven steps later through its GB port, fifteen steps later through the GB port of the section
that a bridge entry names where that bridge is open and fewer than eight words go before it. An uncorrectable table error and a bad source word
raise PARITY; a word for a closed bridge, or for the own section, is counted and raises DOMAIN_OFF; a ninth word raises SLOT_COLLISION; an entry that is not valid sends
nothing. R59, R60, R80, R99, R116, R118: outside a step and a hold, each arrival that is due is written: a slot transfer's word into the import word that it
names, as it was read, with SLOT_COLLISION where it loses, and DOMAIN_OFF toward a cluster that is not used; a return that has its RET port writes its words
one after the other with the generation of its cycle, and one that has not raises SLOT_COLLISION. R84: the return of an MRD with HOME = 0 is discarded in HALTED,
below LOADED and during RESTART, is written at once in a PAUSED, LOADED or holding section, waits for a free step while one is in progress, and is written
after a step where no other return is on its way. Choices of the model in it: logs 49, 69 and 70. -/
def Obligations.SlotTransfers : Prop :=
  (∀ (s : State) (n : Fin 8) (cl : Fin 16) (x : Fin 64) (p : Fin 2) (e : Fin 16) (ecc : Fin 3) (r : Nat), s.upIn n →
    let d := s.dev.beginStep n
    let at_ := d.stepNow n
    let fault := fun (c o course : Nat) (t : Dev) => t.raise n ⟨c, o, globalCourse n cl course, 0xF, at_.1, at_.2⟩
    d.inStep n = true → d.used n cl = true → d.getSec n none (fun y => y.fab.row) = some r →
    (let k := cslotDone cl x p
     let c := d.cslot n cl r x p
     let w := d.word n cl (bits c 30 25) (bits c 24 16)
     let read := d.fab n (fun f => { f with rowDone := k :: f.rowDone })
     (d.getSec n [] (fun y => y.fab.rowDone)).contains k = false →
     (ecc.val = 2 → Runs (.clusterSlotRead n cl x p ecc) s (fault fPARITY 0 x read)) ∧
     (ecc.val ≠ 2 → c.testBit 31 = false → Runs (.clusterSlotRead n cl x p ecc) s read) ∧
     (ecc.val ≠ 2 → c.testBit 31 = true → wordBad w = true → Runs (.clusterSlotRead n cl x p ecc) s (fault fPARITY 6 (bits c 30 25) read)) ∧
     (ecc.val ≠ 2 → c.testBit 31 = true → wordBad w = false → Runs (.clusterSlotRead n cl x p ecc) s (read.fab n (fun f => { f with
       xfers := f.xfers ++ [⟨false, false, if p.val = 0 then .cl0 else .cl1, n, bits c 30 25, cl, 0, cl, x, bits c 8 0, w, at_.1, at_.2, 1, false⟩] })))) ∧
    (let k := gslotDone cl e
     let c := d.gslot n cl r e
     let w := d.word n cl (exSrc c) (exWord c)
     let m := if exBridge c then bits c 38 36 else n.val
     let read := d.fab n (fun f => { f with rowDone := k :: f.rowDone })
     (d.getSec n [] (fun y => y.fab.rowDone)).contains k = false →
     (ecc.val = 2 → Runs (.exportSlotRead n cl e ecc) s
       (fault fPARITY 0 (exSrc c) (read.fab n (fun f => { f with rowErr := k :: f.rowErr })))) ∧
     (ecc.val ≠ 2 → c.testBit 63 = false → Runs (.exportSlotRead n cl e ecc) s read) ∧
     (ecc.val ≠ 2 → c.testBit 63 = true → wordBad w = true → Runs (.exportSlotRead n cl e ecc) s (fault fPARITY 6 (exSrc c) read)) ∧
     (ecc.val ≠ 2 → c.testBit 63 = true → wordBad w = false →
       (exBridge c = true → (m = n.val ∨ d.fb (Reg.SCTL.BROPEN.of n) m = false) → Runs (.exportSlotRead n cl e ecc) s
         (fault fDOMAIN_OFF 0 (exSrc c) ((read.wb (Reg.SCTL.BRERR.of n) m true).bump (Reg.SCTL.BRCNT.of n)))) ∧
       (exBridge c = true → m ≠ n.val → d.fb (Reg.SCTL.BROPEN.of n) m = true → 8 ≤ d.bridgeRank n r cl e m →
         Runs (.exportSlotRead n cl e ecc) s (fault fSLOT_COLLISION 0 (exSrc c) read)) ∧
       ((exBridge c = true → m ≠ n.val ∧ d.fb (Reg.SCTL.BROPEN.of n) m = true ∧ d.bridgeRank n r cl e m < 8) →
         Runs (.exportSlotRead n cl e ecc) s (read.fab m (fun f => { f with
           xfers := f.xfers ++ [⟨exBridge c, true, if bit c 9 then .gb1 else .gb0, n, exSrc c, cl, e, bits c 35 32, bits c 15 10, bits c 8 0, w,
             at_.1, at_.2, if exBridge c then 14 else 6, false⟩] })))))) ∧
  (∀ (s : State) (n : Fin 8) (cl : Fin 16) (crs : Fin 64) (p : Fin 2), s.upIn n →
    s.dev.inStep n = false → s.dev.holding n = false →
    let lx := s.dev.dueXfers n
    let lr := s.dev.dueRets n
    let at_ := s.dev.getSec n (0, 0) (fun x => (x.run.lastStep, x.run.lastPeriod))
    let coll := fun (d : Dev) => d.raise n ⟨fSLOT_COLLISION, 0, globalCourse n cl crs, 0xF, at_.1, at_.2⟩
    (∀ x : Xfer, x.dcl = cl → x.dcrs = crs →
      let t := s.dev.fab n (fun f => { f with xfers := f.xfers.map (fun y => if y = x then { y with done := true } else y) })
      let wrote := t.setWord n cl crs (512 + x.dword) x.word
      (x.global = false → lx.filter (fun y => !y.done && (!y.global && y.dcl == cl.val && y.dcrs == crs.val &&
          y.port == (if p.val = 0 then .cl0 else .cl1))) = [x] →
        (s.dev.writes n lx x = true → Runs (.clusterSlotWrite n cl crs p) s wrote) ∧
        (s.dev.writes n lx x = false → Runs (.clusterSlotWrite n cl crs p) s (coll t)) ∧
        (lx = [x] → s.dev.writes n lx x = true)) ∧
      (x.global = true → lx.filter (fun y => !y.done && (y.global && y.dcl == cl.val && y.dcrs == crs.val &&
          y.port == (if p.val = 0 then .gb0 else .gb1))) = [x] →
        (s.dev.used n cl = false → Runs (.exportSlotWrite n cl crs p) s
          (t.raise x.srcSec ⟨fDOMAIN_OFF, 0, globalCourse x.srcSec x.srcCl x.srcCourse, 0xF, x.readStep, x.readPeriod⟩)) ∧
        (s.dev.used n cl = true → s.dev.writes n lx x = true → Runs (.exportSlotWrite n cl crs p) s wrote) ∧
        (s.dev.used n cl = true → s.dev.writes n lx x = false → Runs (.exportSlotWrite n cl crs p) s (coll t)) ∧
        (s.dev.used n cl = true → lx = [x] → s.dev.writes n lx x = true))) ∧
    (∀ r : Ret, (r.kind = .qrd ∨ r.kind = .home) →
      lr.filter (fun y => !y.done && (y.kind == r.kind && y.cl == cl.val && y.crs == crs.val) && (y.kind != .nonhome || (hasPort lr y && firstWaiting lr y))) = [r] →
      let t := s.dev.fab n (fun f => { f with rets := markFirst r f.rets })
      let ran := fun (t : Dev) => (r.kind = .qrd → Runs (.qrdReturn n cl crs) s t) ∧ (r.kind = .home → Runs (.homeMrdReturn n cl crs) s t)
      (hasPort lr r = false → ran (coll t)) ∧
      (hasPort lr r = true → ran (t.each r.words (fun w d =>
        if lx.any (fun y => y.dcl == r.cl && y.dcrs == r.crs && 512 + y.dword == r.first + w.1 && s.dev.delivered n lx y) then coll d
        else d.setWord n cl crs (r.first + w.1) (mkWord w.2 r.gen 1)))) ∧
      (lr = [r] → hasPort lr r = true))) ∧
  (∀ (s : State) (n : Fin 8) (cl : Fin 16) (crs : Fin 64) (r : Ret), s.upIn n →
    let st := s.dev.runState n
    let restarting := s.dev.getSec n false (fun x => x.run.restarting)
    let words := fun (d : Dev) => d.each r.words (fun w d => d.setWord n cl crs (r.first + w.1) (mkWord w.2 r.gen 1))
    s.dev.getSec n none (fun x => x.fab.rets.find? (fun r => r.kind == .nonhome && r.cl == cl.val && r.crs == crs.val && !r.done)) = some r →
    let gone := s.dev.fab n (fun f => { f with rets := f.rets.erase r })
    ((st = stHALTED ∨ st ≤ stSLIPWAY ∨ restarting = true) → s.dev.getSec n none (fun x => x.fab.clearDue) = none →
      Runs (.nonhomeReturn n cl crs) s gone) ∧
    ((st = stPAUSED ∨ st = stLOADED ∨ (st = stRUNNING ∧ s.dev.holding n = true)) → restarting = false →
      Runs (.nonhomeReturn n cl crs) s (words gone)) ∧
    (st = stRUNNING → restarting = false → s.dev.holding n = false → ∀ i : Nat,
      s.dev.getSec n none (fun x => x.fab.rets.findIdx? (fun r => (r.kind == .nonhome && r.cl == cl.val && r.crs == crs.val && !r.done) && !r.waiting)) = some i →
      (s.dev.inStep n = true → Runs (.nonhomeReturn n cl crs) s
        (s.dev.fab n (fun f => { f with rets := modNth (fun r => { r with waiting := true }) i f.rets }))) ∧
      (s.dev.inStep n = false → s.dev.getSec n [] (fun x => x.fab.rets) = [r] → r.left = 0 → s.dev.dueXfers n = [] →
        Runs (.nonhomeReturn n cl crs) s (words (s.dev.fab n (fun f => { f with rets := [{ r with
          waiting := true
          done := true }] }))))))

/-- R63, R84, R194, R196, R198 to R200, R205, R208: the oldest entry of a cluster's non-home queue is granted where no other request goes first at its bank, and
waits otherwise; one that has lost 64 arbitrations before is urgent, and counts once. A home-path access is performed in the step in which it is due; one with
HOME = 0 goes on outside RUNNING. What is granted is mapped by its region as it stands then: MEM_RANGE without one, BANK_OFF where the bank is not ON; a
write stores its words at its address, and a read sends the words that stand there on their way to RET, a corrected error counted, an uncorrectable one
counted, its line poisoned and PARITY raised. Stage 3 of a load that waits for it goes on once nothing is left (LoadPasses). R524: the output register of a cell loads the
bit of its record at the record's step, and its ball follows. R523, R525, R384: the input records of a step are taken from the synchronisers, 0 without a supply
and else the level as the board drives it; in a paired secondary from the mirrored sample. Choices of the model in it: log 81. -/
def Obligations.PortsAndPins : Prop :=
  (∀ (s : State) (n : Fin 8) (cl : Fin 16) (lost : Fin 128) (ecc : Fin 3) (i : Nat) (a : MemAcc), s.upIn n →
    let first := fun (d : Dev) (p : MemAcc → Bool) => d.getSec n none (fun x => x.mem.acc.findIdx? p) = some i ∧
      d.getSec n none (fun x => x.mem.acc[i]?) = some a
    let taken := fun (d : Dev) => d.mem n (fun m => { m with acc := m.acc.eraseIdx i })
    let served := fun (d t : Dev) (a : MemAcc) =>
      let fault := fun (c : Nat) (t : Dev) => t.raise n ⟨c, 0, globalCourse n a.cl a.crs, 0, a.step, a.cycle⟩
      (d.accAddr n a = none ∧ t = fault fMEM_RANGE d) ∨
      ∃ x : Nat, d.accAddr n a = some x ∧
        let e := d.flushDirty n a.cl (x / 64)
        let back := fun (t : Dev) => t.fab n (fun f => { f with rets := f.rets ++ [⟨if a.home then .home else .nonhome, a.cl, a.crs, a.first,
          (List.range a.count).map (fun i => (i, t.fabWord n (x + 2 * i))), a.gen, if a.path then 2 else 0, false, !a.home && a.path⟩] })
        ((d.bankOn n (bankOf x) = false ∧ t = fault fBANK_OFF d) ∨
         (d.bankOn n (bankOf x) = true ∧ a.write = true ∧ t = e.writeLine n x ((a.words.map (fun w => [w % 256, w % 4096 / 256])).flatten) none) ∨
         (d.bankOn n (bankOf x) = true ∧ a.write = false ∧
           ((ecc.val = 0 ∧ t = back e) ∨ (ecc.val = 1 ∧ t = back (e.bump (Reg.SPAD.ECCCE.of n))) ∨
            (ecc.val = 2 ∧ t = fault fPARITY ((e.bump (Reg.SPAD.ECCUE.of n)).poisonLine n (x / 64))))))
    (first s.dev (fun a => !a.home && !a.path && a.cl == cl.val) →
      let u := if 64 ≤ lost.val ∧ a.urgent = false then
          (s.dev.mem n (fun m => { m with acc := modNth (fun a => { a with urgent := true }) i m.acc })).bump (Reg.SPAD.URGCNT.of n [cl])
        else s.dev
      let urgent := a.urgent || decide (64 ≤ lost.val)
      (∀ x : Nat, s.dev.accAddr n a = some x → u.wins n (bankOf x) cl urgent = false → Runs (.nonhomeBankAccess n cl lost ecc) s u) ∧
      ((∀ x : Nat, s.dev.accAddr n a = some x → u.wins n (bankOf x) cl urgent = true) →
        ∀ t : Dev, served (taken u) t a → Runs (.nonhomeBankAccess n cl lost ecc) s (t.slipwayClear n))) ∧
    (s.dev.runState n ≠ stRUNNING → first s.dev (fun a => a.path && a.cl == cl.val && !a.home) →
      ∀ t : Dev, served (taken s.dev) t a → Runs (.homePathAccess n cl ecc) s (t.slipwayClear n)) ∧
    (let d := s.dev.beginStep n
     s.dev.runState n = stRUNNING → d.inStep n = true → first d (fun a => a.path && a.cl == cl.val && a.left == 0) →
      ∀ t : Dev, served (taken d) t a → Runs (.homePathAccess n cl ecc) s t)) ∧
  (∀ (d : Dev) (n : Nat), d.getSec n none (fun x => x.fab.clearDue) = none → d.slipwayClear n = d) ∧
  (∀ (s : State) (n : Fin 8) (bp : Fin 12) (c : Fin 96) (mask level : BitVec 12) (i : Nat) (r : PinRec) (v : Bool),
    (s.up → Sparse.find c.val s.dev.pins.out = some v →
      Runs (.outputBallChange c) s (s.dev.pin (fun p => { p with ball := Sparse.put c.val v p.ball }))) ∧
    (let d := s.dev.beginStep n
     let b := (wordData (d.word n r.cl r.crs r.word)).testBit r.bit
     s.upIn n → d.issuing n = true → (d.duePins n true).find? (fun p => p.2.cell == bp.val) = some (i, r) →
     Runs (.outputUpdate n bp) s ((d.pin (fun p => { p with out := Sparse.put (12 * n.val + bp.val) b p.out })).fab n
       (fun f => { f with pinsDone := i :: f.pinsDone }))) ∧
    (let d := (s.dev.boardDrive n mask.toNat level.toNat).beginStep n
     let rs := fun (stg : Nat) => (d.duePins n false).filter (fun p => p.2.stg == stg)
     s.upIn n → d.issuing n = true →
      ∃ (t : Dev) (v : Nat → Option Nat), Runs (.inputPinSample n mask level) s t ∧
        (t.duePins n false).filter (fun p => decide (p.2.stg ≤ 1)) = [] ∧
        t.getSec n [] (fun x => x.fab.rets) = d.getSec n [] (fun x => x.fab.rets) ++ ([0, 1].map (fun stg => match v stg with
          | none => []
          | some x => (rs stg).map (fun p => (⟨.pin, p.2.cl, p.2.crs, p.2.word, [(0, x)], (d.dcyc n - stg) % 2, 0, false, false⟩ : Ret)))).flatten ∧
        (d.secondary = true → ∀ stg ≤ 1, rs stg ≠ [] → v stg = (d.twin.pins.find? (fun p => p.sec == n.val && p.stg == stg && p.step == d.posStep n &&
          p.cycle == d.dcyc n - stg)).map (fun p => p.data)) ∧
        (d.secondary = false → ∀ stg ≤ 1, ∃ x : Nat, v stg = some x ∧ ∀ k < 12,
          (d.bankGood (12 * n.val + k) = false → x.testBit k = false) ∧
          (d.bankGood (12 * n.val + k) = true → d.ownDrive (12 * n.val + k) = none → mask.toNat.testBit k = true →
            x.testBit k = level.toNat.testBit k))))

/-- R34, R36, R81, R100, R103, R141, R142, R145: EXECUTE_STEP of a run group, every member RUNNING at one step: the coming step begins unless it has, and all of it
that has not happened happens: every BP of a used course has issued, every slot entry of the row has been read, and each course whose stage runs holds its
result word of the step, the twelve result bits with the generation of its cycle and valid, where none of it had issued before; that of a suppressed course stays. POS moves on
by one, to 0 from the last step of the period, with POS.FRET = STEP / 16, the step is no longer in progress and the row read next is that of the step. The group runs
on: at the end of a fret and of the drain what is due arrives, and at the end of a fret that does not end the period the coming one is checked for a hold
(HoldEvents). A step of the drain leaves POS and counts one of its sixteen steps. Choices of the model in it: log 48. -/
def Obligations.StepsAdvance : Prop :=
  (∀ (s : State) (n : Fin 8) (ph : Fin 4), s.upIn n →
    let b := s.dev.beginStep n
    let g := b.group n
    let k := b.posStep n
    b.inStep n = true → n.val ∈ g → g.Nodup →
    (∀ m ∈ g, m < 8 ∧ b.runState m = stRUNNING ∧ b.inStep m = true ∧ b.posStep m = k ∧ b.period m = b.period n ∧
      b.getSec m none (fun x => x.run.drain) = b.getSec n none (fun x => x.run.drain)) →
    (b.getSec n none (fun x => x.run.drain) = none → (k < 511 ∨ k + 1 = b.period n) →
      let next := if k + 1 = b.period n then 0 else k + 1
      ∃ e : Dev, Runs (.executeStep n ph) s (if next % 16 ≠ 0 then e
          else
            let f := (e.settleGroup n).fretRan n
            if f.getSec n false (fun x => x.run.atEnd) then f else (f.holdCheck n).each g (fun m d => d.serveReads m)) ∧
        ∀ m ∈ g, e.posStep m = next ∧ e.fd (Reg.SCTL.POS.of m) 20 16 = next / 16 ∧ e.inStep m = false ∧ e.runState m = stRUNNING ∧
          e.dcyc m = b.dcyc m ∧ e.getSec m none (fun x => x.fab.row) = some k ∧
          e.getSec m false (fun x => x.run.atEnd) = (k + 1 == b.period n) ∧
          ∀ cl < 16, b.used m cl = true → ∀ crs < 64,
            let a := b.atStep m cl crs
            let stg := stageOf (b.insns a)
            (∀ bp < 12, e.getSec m false (fun x => x.fab.issued.any (fun p => p.1 == bpKey cl crs bp)) = true) ∧
            ((b.getSec m none (fun x => x.fab.row)).isSome = true →
              (∀ p < 2, cslotDone cl crs p ∈ e.getSec m [] (fun x => x.fab.rowDone)) ∧
              ∀ y < 16, gslotDone cl y ∈ e.getSec m [] (fun x => x.fab.rowDone)) ∧
            (b.suppressed m stg = true → e.word m cl crs k = b.word m cl crs k) ∧
            (b.suppressed m stg = false → b.getSec m [(0, true)] (fun x => x.fab.issued) = [] →
              e.word m cl crs k = mkWord (ofOnes ((List.range 12).filter (fun bp => (b.bpOut a bp (b.suppressed m)).bit))) (b.dcyc m + stg) 1)) ∧
    (∀ i : Nat, b.getSec n none (fun x => x.run.drain) = some i →
      ∃ e : Dev, Runs (.executeStep n ph) s (if i + 1 = 16 then e.settleGroup n else e) ∧
        ∀ m ∈ g, e.posStep m = k ∧ e.inStep m = false ∧ e.runState m = stRUNNING ∧ e.getSec m none (fun x => x.run.drain) = some (i + 1) ∧
          e.getSec m (some 0) (fun x => x.fab.row) = none)) ∧
  (∀ (d : Dev) (n : Nat), (d.fretRan n).secs.toList.map (fun x => (x.fab, x.mem, x.queues, x.calls)) =
      d.secs.toList.map (fun x => (x.fab, x.mem, x.queues, x.calls)) ∧ (d.fretRan n).regs = d.regs ∧
    (d.leader n < 8 → (d.fretRan n).getSec (d.leader n) 1 (fun x => x.run.holdRun) = 0 ∧
      (d.fretRan n).getSec (d.leader n) true (fun x => x.run.stallSent) = false))

/-- R176, R179, R423: LOAD_IMAGE completes at once for a buffer that is absent, not aligned or empty, or that cannot be read; otherwise stage 1 begins
with the load it names: decided at once where no other load is in stages 1 to 4, waiting behind one whose targets are others, and refused with TARGET where
they overlap. R175, R176, R179, R180, R493: the passes of a load. When pass 1 completes, a rejected load completes with its report and is
gone; an accepted one brings every target to SLIPWAY, out of its run group, without a period, a fault record, a call, a queue word or a word in flight, sets
the banks it touches ON and enters stage 4. When pass 2 can end, a changed image abandons the load with CHANGED; otherwise the sections are written, the
instructions, cluster slots, queue bindings and pin records of the relocated image in their places, and the load of a host command completes and awaits
COMMIT in stage 5. The autostart image begins after READY, and once it awaits COMMIT, its queues tested and its twin agreeing, it is committed and started as
its record says. Choices of the model in it: logs 40, 41, 42, 43, 45, 46, 47 and 79. -/
def Obligations.LoadPasses : Prop :=
  (∀ (s : State) (f : Fin 9) (err : Bool) (c : HostCmd), s.up →
    c.opc = ocLOAD → s.dev.loads.any (fun x => x.fn == f.val && !x.auto && decide (x.stage < 5)) = false →
    ∀ d : Dev, ((s.dev.getFn f none (fun h => h.long) = none ∧ s.dev.frontCmd f = some c ∧
        d = (s.dev.popCmd f).fn f (fun h => { h with long := some c })) ∨
      (s.dev.getFn f none (fun h => h.long) = some c ∧ d = s.dev)) →
    (∀ e : Nat, d.cmdErr f c = e → e ≠ 0 → Runs (.loadImage f err) s ((d.finishLong f c.cid e []).settleQueue f)) ∧
    (d.cmdErr f c = 0 →
      ((c.buf = 0 ∨ c.buf % 64 ≠ 0 ∨ c.blen = 0 ∨ c.buf2 % 64 ≠ 0) →
        Runs (.loadImage f err) s ((d.finishLong f c.cid scBUFFER []).settleQueue f)) ∧
      (c.buf ≠ 0 → c.buf % 64 = 0 → c.blen ≠ 0 → c.buf2 % 64 = 0 →
        (err = true → Runs (.loadImage f err) s ((d.finishLong f c.cid scHOSTERR []).settleQueue f)) ∧
        (err = false → Runs (.loadImage f err) s ((d.loadBegin (newLoad f c.cid false c.buf c.blen c.buf2)).settleQueue f))))) ∧
  (∀ (d : Dev) (x : LoadSt),
    let b := d.imageBytes x
    let busy := d.loads.any (fun y => decide (y.stage < 5))
    let held := ((d.loads.filter (fun y => decide (y.stage < 5))).map (fun y => y.place)).flatten
    (busy = true → (∀ n ∈ d.certainTargets x, n ∉ held) → d.loadBegin x = d) ∧
    (busy = true → (∃ n ∈ d.certainTargets x, n ∈ held) →
      d.loadBegin x = d.loadEnd x ldTARGET (loadReport ldTARGET { st := ldTARGET } [] 0 0)) ∧
    (busy = false →
      (∀ (r : Rej) (place : List Nat), d.pass1 x.fn b (d.placeMap x) = .inr (r, place) →
        let e := if r.st = ldSIGNATURE then d.rejectNotice r else d
        d.loadBegin x = { e with loads := e.loads ++ [{ x with
          rej := some (loadReport r.st r place 0 0)
          place := [] }] }) ∧
      (∀ p : Pass1, d.pass1 x.fn b (d.placeMap x) = .inl p → ∃ y : LoadSt, d.loadBegin x = { d with loads := d.loads ++ [y] } ∧
        y.stage = x.stage ∧ y.rej = x.rej ∧ y.fn = x.fn ∧ y.cid = x.cid ∧ y.auto = x.auto ∧ y.place = p.place ∧ y.perms = p.perms ∧
        y.period = Hvx.period b ∧ y.nv = Hvx.nvsec b ∧ y.digest = Hvx.digestNow b ∧
        y.masks = (List.range (Hvx.nvsec b)).map (fun v => ofOnes ((Hvx.used b v).map (permOf p.perms v)))))) ∧
  (∀ (s : State) (x : LoadSt), s.up →
    (s.dev.loadNow = some x → x.stage = 2 →
      (∀ r, x.rej = some r → Runs .loadPass1Complete s ((s.dev.loadSet x none).loadEnd x (ofBytes (r.take 2)) r)) ∧
      (x.rej = none → (∃ n ∈ x.place, s.dev.eligibleIn x.fn x.place n = false) →
        Runs .loadPass1Complete s ((s.dev.loadSet x none).loadEnd x ldTARGET (loadReport ldTARGET { st := ldTARGET } x.place 0 0))) ∧
      (x.rej = none → (∀ n ∈ x.place, s.dev.eligibleIn x.fn x.place n = true) →
        let b := s.dev.imageBytes x
        let d := s.dev.each x.place.zipIdx (fun p d => d.enterSlipway x.place (x.masks.getD p.2 0) p.1)
        let d := d.each x.place (fun n d => d.runRest n)
        let t := (d.each x.place.zipIdx (fun p d => d.banksUp p.1 (touchedBanks b (Hvx.segs b) p.2))).loadSet x (some { x with stage := 4 })
        Runs .loadPass1Complete s t ∧
        ((∀ n ∈ x.place, n < 8) → x.place.Nodup → (∀ m < 8, ∀ y ∈ s.dev.group m, y < 8 ∧ s.dev.group y = s.dev.group m) →
          ∀ n ∈ x.place, t.runState n = stSLIPWAY ∧ t.group n = [n] ∧ t.period n = 0 ∧ t.rd (Reg.SFLT.FSTAT.of n) = 0 ∧
            t.fb (cmdstat n) 31 = false ∧ t.ready n = [] ∧ t.getSec n [true] (fun y => y.fab.xfers.map (fun z => z.done)) = [] ∧
            (∀ q < 64, t.getQ n q [⟨0, true, true, true, none, none⟩] Queue.words = [] ∧ t.getQ n q 0 (fun y => y.mode) = 1) ∧
            ∀ p ∈ x.place.zipIdx, p.1 = n → ∀ k ∈ touchedBanks b (Hvx.segs b) p.2,
              t.fd (Reg.SPAD.BANKPWR.of n) (2 * k + 1) (2 * k) = 0))) ∧
    (s.dev.loadNow = some x → x.stage = 4 → s.dev.loadReady x = true → x.auto = false →
      let b := s.dev.imageBytes x
      let l := Hvx.segs b
      (Hvx.digestNow b ≠ x.digest → Runs .loadPass2Complete s
        ((s.dev.loadAbandon x).loadEnd x ldCHANGED (loadReport ldCHANGED { st := ldCHANGED } x.place x.hdrop x.wmax))) ∧
      (∀ img, Hvx.digestNow b = x.digest → relocate b l x.place x.perms = .inl img →
        let ts := (List.range x.nv).map (fun v =>
          match Hvx.waitTables img l (permOf x.perms v) (Hvx.view img l v) with
          | .inl t => t
          | .inr _ => ⟨[], 0⟩)
        let d := s.dev.each x.place.zipIdx (fun e d => d.putSection e.1 e.2 ⟨img, x.place, x.perms, ts⟩)
        let t := (d.loadSet x (some { x with stage := 5 })).loadEnd x 0 (loadReport 0 { st := 0 } x.place x.hdrop x.wmax)
        t.secondary = false → Runs .loadPass2Complete s t ∧
        ((∀ n ∈ x.place, n < 8) → x.place.Nodup → ∀ e ∈ x.place.zipIdx,
          let n := e.1
          let v := e.2
          let perm := permOf x.perms v
          (∀ c ∈ Hvx.used img v, perm c < 16) → (∀ c ∈ Hvx.used img v, ∀ c' ∈ Hvx.used img v, perm c = perm c' → c = c') →
          (∀ c ∈ Hvx.used img v, ∀ k < Hvx.period img, k < 512 → ∀ crs < 64,
            (∀ bp < 12, t.code n (perm c) crs bp k = Hvx.code img (Hvx.segs img) v c crs bp k % 2 ^ 96) ∧
            ∀ p < 2, t.cslot n (perm c) k crs p = Hvx.cslot img (Hvx.segs img) v c k crs p % 2 ^ 32) ∧
          (∀ q : Nat, 16 ≤ q → q < 62 → t.rd (Reg.LINKQ.MAP.of n [q - 16]) =
            (match (Hvx.qmaps img (Hvx.segs img) v).find? (fun r => r.1 == q) with
            | some r => (2 ^ 31 + r.2.1 * 2 ^ 8 + r.2.2.1 * 2 ^ 6 + r.2.2.2) % 2 ^ 32
            | none => 0)) ∧
          t.getSec n [] (fun y => y.fab.pinMap) = (Hvx.pins img (Hvx.segs img) v).map (fun m => { m.pin with cl := perm m.pin.cl })))) ∧
    (s.dev.bootStage = 5 →
      (s.dev.loads.find? (fun x => x.auto && x.stage == 5) = some x →
        (s.dev.pairedPrimary = true → s.dev.twin.loadChk = some (loadChkWords x)) → (∀ n ∈ x.place, s.dev.queuesTested n = true) →
        ∀ r, s.dev.boot.booted = some r →
        let mode := leAt r.auto 8 1
        let ld := (minOf x.place).getD 0
        let astat := fun (v : Nat) (d : Dev) => d.wf Reg.BOOT.ASTAT.hubAt 2 0 v
        let e := astat 2 (s.dev.commitLoad x)
        (mode ≠ 1 → mode ≠ 2 → Runs .autostartLoad s e) ∧
        (mode = 1 → Runs .autostartLoad s (astat 3 (e.runCmd ld rcSTART 0 none))) ∧
        (mode = 2 → Runs .autostartLoad s (astat 3 ((e.wr (Reg.SCTL.STRIG.of ld) (leAt r.auto 0xC 4)).runCmd ld rcSTART 2 none)))) ∧
      (∀ r, s.dev.loads.any (fun x => x.auto) = false → s.dev.boot.booted = some r → r.auto ≠ [] → s.dev.fd Reg.BOOT.ASTAT.hubAt 2 0 ≤ 1 →
        Runs .autostartLoad s ((s.dev.wf Reg.BOOT.ASTAT.hubAt 2 0 1).loadBegin (newLoad 0 0 true (leAt r.auto 0 4) (leAt r.auto 4 4) 0)))))

/-- R178, R179, R231, R387: COMMIT of a load in stage 5 that its own function issued commits it and completes with the mask of its sections and
their leader, once the start-up test of every queue of its targets has ended; in a paired primary only a load that the twin has loaded alike, and with TARGET otherwise; without such a
load it completes with FUNCTION. R178: the sections of a committed load are LOADED together, one run group under the
lowest-numbered of them, each with its bridges open to the others; the load is over. R85, R94, R127, R128, R141, R153, R231, R390: each of them then has the period of the image, POS,
DCYC, its digest and its pace events at 0, its queues in normal service but for retired ones, the clocks of the used clusters running and the others gated off, and, where
its controller holds no changed line, in every used cluster the initial values of its reserve with V = 1 and G = 1, every other word with V = 0.
Choices of the model in it: logs 44, 45 and 78. -/
def Obligations.CommitFormsGroup : Prop :=
  (∀ (s : State) (f : Fin 9) (ph : Fin 4) (c : HostCmd), s.up → s.dev.frontIs f ocCOMMIT = some c →
    (∀ y ∈ s.dev.twin.fwd, y.asker ≠ some (.host f c.cid)) →
    (∀ e : Nat, s.dev.cmdErr f c = e → e ≠ 0 → Runs (.commit f ph) s ((s.dev.finish f c e []).settleQueue f)) ∧
    (s.dev.cmdErr f c = 0 →
      (∀ x : LoadSt, s.dev.loads.find? (fun x => x.stage == 5 && x.fn == f.val && !x.auto) = some x →
        let agrees := s.dev.pairedPrimary = true → s.dev.twin.loadChk = some (loadChkWords x)
        (¬agrees → Runs (.commit f ph) s ((s.dev.finish f c (0x0200 + ldTARGET) []).settleQueue f)) ∧
        (agrees → (∃ n ∈ x.place, s.dev.queuesTested n = false) → Runs (.commit f ph) s s.dev) ∧
        (agrees → (∀ n ∈ x.place, s.dev.queuesTested n = true) →
          Runs (.commit f ph) s (((s.dev.commitLoad x).finish f c 0 [ofOnes x.place, (minOf x.place).getD 0]).settleQueue f))) ∧
      (s.dev.loads.find? (fun x => x.stage == 5 && x.fn == f.val && !x.auto) = none →
        Runs (.commit f ph) s ((s.dev.finish f c 5 []).settleQueue f)))) ∧
  (∀ (d : Dev) (x : LoadSt) (n : Nat), (∀ m ∈ x.place, m < 8) → n ∈ x.place →
    let t := d.commitLoad x
    t.runState n = stLOADED ∧ t.fd (Reg.SCTL.STATE.of n) 23 16 = ofOnes x.place ∧
    t.leader n = (minOf x.place).getD 0 ∧ t.rd (Reg.SCTL.BROPEN.of n) = ofOnes x.place - (ofOnes x.place &&& 2 ^ n) ∧
    (∀ m ∈ x.place, m ≠ n → (t.rd (Reg.SCTL.BROPEN.of n)).testBit m = true) ∧
    t.period n = x.period % 2 ^ 10 ∧ t.rd (Reg.SCTL.POS.of n) = 0 ∧ t.dcyc n = 0 ∧ t.rd64 Reg.TWIN.SDIG 8 [n] = 0 ∧
    t.rd (Reg.SCTL.PACEPEND.of n) = 0 ∧ (∀ c < 11, t.rd64 Reg.SCTL.HCNT n [c] = 0) ∧
    (∀ q < 64, t.getQ n q 0 (fun y => y.mode) = if d.getQ n q 1 (fun y => y.mode) = 1 ∧ d.getQ n q true (fun y => y.retired) = false then 0
      else d.getQ n q 0 (fun y => y.mode)) ∧
    (x.place.Nodup → ∀ e ∈ x.place.zipIdx, e.1 = n →
      Sparse.find n t.images = some ⟨x.imgid, x.digest, x.secver⟩ ∧
      ∀ c < 16, t.rd (clkctl n c) = (if (x.masks.getD e.2 0).testBit c then 0x10 else 0x03) ∧ t.fb (clkstat n c) 4 = false ∧
        (d.memWf = true → d.getSec n [(0, [])] (fun y => y.ctl.dirty) = [] → (x.masks.getD e.2 0).testBit c = true →
          ∀ crs < 64, ∀ w < 1024,
          let a := hbmBase + reserveAt + 2 * (65536 * c + 1024 * crs + w)
          ((d.memByte n (a + 1)).testBit 7 = true → t.word n c crs w = mkWord (d.fabWord n a) 1 1) ∧
          ((d.memByte n (a + 1)).testBit 7 = false → wordV (t.word n c crs w) = 0))))

/-- R128, R129, R132: clocks and resets of a cluster. While the section is RUNNING or PAUSED a CLKCTL write that changes a used cluster, or that sets USED
or SRC, changes nothing but REJ. Any other write takes hold, at once or after the change in progress; a change of SRC, DIV or GATE shows BUSY until it
is done, and then shows in CLKSTAT, at ÷2 during a brownout and not gated during a reset; the write that waited takes hold then. CRST is taken in PARKED,
SLIPWAY, LOADED and HALTED, ungates the cluster, is ignored while its reset runs, and is refused with REJ elsewhere; at its end the data stores of
the cluster are clear, its staged halves' and reject flags too, the words from it and for it in flight are gone, and it is gated again where GATE is 1.
Choices of the model in it: log 71. -/
def Obligations.ClockAndResetOfACluster : Prop := ∀ (s : State) (n : Fin 8) (cl : Fin 16) (v : BitVec 32), s.upIn n →
  let old := s.dev.rd (clkctl n cl)
  let new := v.toNat % 32
  let frozen := s.dev.runState n = stRUNNING ∨ s.dev.runState n = stPAUSED
  let refused := frozen ∧ ((old.testBit 4 = true ∧ new ≠ old) ∨ (new.testBit 4 = true ∧ old.testBit 4 = false) ∨
    (new.testBit 2 = true ∧ old.testBit 2 = false))
  let busy := s.dev.fb (clkstat n cl) 4
  (refused → Runs (.clkctlWrite n cl v) s (s.dev.wb (clkstat n cl) 7 true)) ∧
  (¬refused → busy = true → Runs (.clkctlWrite n cl v) s (s.dev.fab n (fun f => { f with clkNext := Sparse.put cl.val new f.clkNext }))) ∧
  (¬refused → busy = false → new % 16 = old % 16 → Runs (.clkctlWrite n cl v) s (s.dev.wr (clkctl n cl) new)) ∧
  (¬refused → busy = false → new % 16 ≠ old % 16 → Runs (.clkctlWrite n cl v) s ((s.dev.wr (clkctl n cl) new).wb (clkstat n cl) 4 true)) ∧
  (busy = true → ∃ d : Dev, Runs (.clockChangeDone n cl) s d ∧
    (∀ l : Loc, l.key ≠ (clkstat n cl).key → l.key ≠ (clkctl n cl).key → d.rd l = s.dev.rd l) ∧
    d.fd (clkstat n cl) 1 0 = (if s.dev.fb (clkstat n cl) 6 then 1 else old % 4) ∧ d.fd (clkstat n cl) 2 2 = bits old 2 2 ∧
    d.fd (clkstat n cl) 3 3 = (if s.dev.fb (clkstat n cl) 5 then 0 else bits old 3 3) ∧
    (s.dev.getSec n none (fun x => Sparse.find cl.val x.fab.clkNext) = none →
      d.fb (clkstat n cl) 4 = false ∧ d.rd (clkctl n cl) = old ∧ d.secs = s.dev.secs) ∧
    (∀ v' : Nat, s.dev.getSec n none (fun x => Sparse.find cl.val x.fab.clkNext) = some v' →
      d.fb (clkstat n cl) 4 = (old % 16 != v' % 16) ∧ d.rd (clkctl n cl) = v' % 2 ^ 32 ∧
      d.getSec n (some v') (fun x => Sparse.find cl.val x.fab.clkNext) = none)) ∧
  (s.dev.fb (clkstat n cl) 5 = false →
    (s.dev.runState n ∈ [stPARKED, stSLIPWAY, stLOADED, stHALTED] →
      Runs (.crst n cl) s ((s.dev.wb (clkstat n cl) 5 true).wb (clkstat n cl) 3 false)) ∧
    (s.dev.runState n ∉ [stPARKED, stSLIPWAY, stLOADED, stHALTED] → Runs (.crst n cl) s (s.dev.wb (clkstat n cl) 7 true))) ∧
  (s.dev.fb (clkstat n cl) 5 = true → Runs (.crst n cl) s s.dev) ∧
  (s.dev.fb (clkstat n cl) 5 = true →
    ∃ d : Dev, Runs (.clusterResetDone n cl) s d ∧ d.fb (clkstat n cl) 5 = false ∧ d.rd (Reg.CLUS.SLSTAT.of n [cl]) = 0 ∧
      d.rd (Reg.CLUS.DSSTAT.of n [cl]) = 0 ∧ d.rd (clkctl n cl) = old ∧ (busy = false → d.fd (clkstat n cl) 3 3 = bits old 3 3) ∧
      (∀ crs < 64, ∀ w < 1024, d.word n cl crs w = 0) ∧
      (∀ c : Nat, c ≠ cl.val → ∀ crs < 64, ∀ w < 1024, d.word n c crs w = s.dev.word n c crs w) ∧
      (∀ m < 8, ∀ x ∈ d.getSec m [] (fun y => y.fab.xfers), x.srcSec = n.val → x.srcCl ≠ cl.val) ∧
      (∀ x ∈ d.getSec n [] (fun y => y.fab.xfers), x.dcl ≠ cl.val) ∧
      ∀ (c crs bp a : Nat), d.code n c crs bp a = s.dev.code n c crs bp a)

/-- R70, R71, R97: the data-store and code windows. While RUNNING a write changes nothing but a REJ. Otherwise a DSTORE write stores DATA, G and V with
their parity, inverted under PINV; the words at +0x0 and +0x4 of a CODE slot are staged for it; and the word at +0x8 stores the 96 bits, each lower
word as staged for this instruction or else as stored, and clears the staging. R97, R278: a DSTORE read returns the word as it stands, at once or, while the
section executes a step in which a tap is taken in the cluster, with the first step in which none is. -/
def Obligations.StoreWindows : Prop := ∀ (s : State) (n : Fin 8) (cl : Fin 16) (crs : Fin 64) (w : Fin 1024) (v : BitVec 32) (slot : Fin 393216),
  s.upIn n →
  let busy := s.dev.runState n = stRUNNING
  let x := mkWord (bits v.toNat 11 0) (bits v.toNat 14 14) (bits v.toNat 15 15)
  let sel := s.dev.fd (Reg.CODE.SEL.of n) 3 0
  let key := codeKey sel (slot.val / 512 / 12) (slot.val / 512 % 12) (slot.val % 512)
  let old := s.dev.code n sel (slot.val / 512 / 12) (slot.val / 512 % 12) (slot.val % 512)
  let part := fun (st : Option (Nat × BitVec 32)) (z : Nat) => match st with | some (k, y) => if k = key then y.toNat else z | none => z
  (busy → Runs (.dstoreWrite n cl crs w v) s (s.dev.wb (Reg.CLUS.DSSTAT.of n [cl]) 0 true)) ∧
  (¬busy → Runs (.dstoreWrite n cl crs w v) s ((s.dev.settle n).setWord n cl crs w
    (if s.dev.fb (Reg.CLUS.DSCTL.of n [cl]) 0 then x ^^^ 0x1000 else x))) ∧
  (let answer := fun (d e : Dev) => { d with
    rdata := (toBytes 4 ((e.settle n).word n cl crs w).toNat).map (BitVec.ofNat 8)
    rstat := 0 }
   let r : TapRead := ⟨cl, crs, w, 0, 4⟩
   let tap := fun (d : Dev) => d.runState n = stRUNNING ∧ d.holding n = false ∧ d.getSec n (some 0) (fun x => x.run.drain) = none ∧
    ∃ i < min 512 (d.nProbe n), bits (d.rd (Reg.CAPT.PROBE.of n [i])) 8 0 = d.posStep n ∧ bits (d.rd (Reg.CAPT.PROBE.of n [i])) 29 26 = cl.val ∧
      d.suppressed n (bits (d.rd (Reg.CAPT.PROBE.of n [i])) 30 30) = false
   (¬tap s.dev → Runs (.dstoreRead n cl crs w) s (answer s.dev s.dev)) ∧
   (tap s.dev → Runs (.dstoreRead n cl crs w) s (s.dev.run n (fun x => { x with reads := x.reads ++ [r] }))) ∧
   (∀ d : Dev, d.getSec n [] (fun x => x.run.reads) = [r] →
    (tap d → d.serveReads n = d) ∧ (¬tap d → d.serveReads n = answer (d.run n (fun x => { x with reads := [] })) d))) ∧
  (busy → (∀ pos, Runs (.codeWordStage n pos slot v) s (s.dev.wb (Reg.CODE.STAT.of n) 1 true)) ∧
    Runs (.codeInstructionStore n slot v) s (s.dev.wb (Reg.CODE.STAT.of n) 1 true)) ∧
  (¬busy → Runs (.codeWordStage n 0 slot v) s (s.dev.fab n (fun f => { f with codeLo := some (key, v) })) ∧
    Runs (.codeWordStage n 1 slot v) s (s.dev.fab n (fun f => { f with codeMid := some (key, v) })) ∧
    Runs (.codeInstructionStore n slot v) s (s.dev.fab n (fun f => { f with
      code := f.code.set key (BitVec.ofNat 96 (v.toNat * 2 ^ 64 + part f.codeMid (old / 2 ^ 32 % 2 ^ 32) * 2 ^ 32 + part f.codeLo (old % 2 ^ 32)))
      codeLo := none
      codeMid := none })))

/-- R196 to R198, R206, R210: an access of a service master that does not win its banks waits. Otherwise it is counted (R447), and performed as its regions allow:
one that no region of the master allows performs nothing, answers RANGE, counts in RVCNT and is latched in RVIOL and RVADDR when they hold none; a read that
reaches a bank that is not ON answers DOMAIN_OFF and no bytes; any other read answers the stored byte of each address, mapped by the lowest region that covers
the access and grants reads, and UNCORR where an uncorrectable error lies in it; a write whose banks are ON, met by no error, stores its bytes at the mapped
addresses and changes no other byte. Both clauses on bytes are for a section controller's cache that holds no changed line; where it does, the line goes to memory first. The
master's requests are urgent no longer once granted. Choices of the model in it: log 81. -/
def Obligations.ServiceAccesses : Prop :=
  (∀ (s : State) (n : Fin 8) (m : Fin 31) (a : BitVec 38) (len : Fin 65) (bs : List (BitVec 8)) (errs : List (Fin 2048 × Fin 3))
      (lat : BitVec 16), s.upIn n → 16 ≤ m.val →
    let k := if bs = [] then len.val else bs.length
    let bytes := bs.map BitVec.toNat
    let es := errPairs errs
    let d := s.dev.nocStat n m k (some lat.toNat)
    let r := d.svcRead n m a.toNat len es
    let w := d.svcWrite n m a.toNat bytes none false es
    let code := fun (x : Resp) => match x with | .ok => 0 | .uncorr => 1 | .range => 3 | .domainOff => 4
    let c := Instr.serviceAccess n m a len bs errs lat
    let mayGo := ∀ j : Nat, s.dev.allow n m a.toNat k (bs ≠ []) = some j → ∀ i < k, ∀ x : Nat, s.dev.region n m j (a.toNat + i) = some x →
      inSpad x = true → s.dev.bankOn n (bankOf x) = true →
      s.dev.wins n (bankOf x) m (s.dev.getSec n false (fun y => y.mem.urgent.contains (m.val, bankOf x))) = true
    let counted := fun (t : Dev) => ∀ i : Nat, initiatorOf m = some i → s.dev.fb (Reg.SNOC.STCTL.of n) 31 = false →
      t.rd64 Reg.SNOC.REQ n [i] = satAdd 64 (s.dev.rd64 Reg.SNOC.REQ n [i]) 1 ∧
      t.rd64 Reg.SNOC.BYTES n [i] = satAdd 64 (s.dev.rd64 Reg.SNOC.BYTES n [i]) k ∧
      t.rd64 Reg.SNOC.LATSUM n [i] = satAdd 64 (s.dev.rd64 Reg.SNOC.LATSUM n [i]) lat.toNat
    (0 < k → ¬mayGo → Runs c s s.dev) ∧
    (mayGo →
      (bs = [] → Runs c s { r.1 with
        rdata := r.2.2.map (BitVec.ofNat 8)
        rstat := code r.2.1 }) ∧
      (bs ≠ [] → Runs c s { w.1 with
        rdata := []
        rstat := code w.2 }) ∧
      (s.dev.allow n m a.toNat k (bs ≠ []) = none → ∃ t : Dev, Runs c s t ∧ t.rdata = [] ∧ t.rstat = 3 ∧ counted t ∧ t.secs = s.dev.secs ∧
        t.rd (Reg.SPAD.RVCNT.of n) = satAdd 32 (s.dev.rd (Reg.SPAD.RVCNT.of n)) 1 ∧
        (s.dev.fb (Reg.SPAD.RVIOL.of n) 31 = true → t.rd (Reg.SPAD.RVIOL.of n) = s.dev.rd (Reg.SPAD.RVIOL.of n)) ∧
        (s.dev.fb (Reg.SPAD.RVIOL.of n) 31 = false → t.rd (Reg.SPAD.RVIOL.of n) = 2 ^ 31 + (if bs = [] then 0 else 2 ^ 30) + m.val * 2 ^ 24 ∧
          t.rd (Reg.SPAD.RVADDR.of n) = a.toNat / 64)) ∧
      (∀ j : Nat, s.dev.allow n m a.toNat k (bs ≠ []) = some j → 0 < k → k ≤ 64 →
        let tr := fun (i : Nat) => (s.dev.region n m j (a.toNat + i)).getD (a.toNat + i)
        ((∀ i < k, inSpad (tr i) = true) ∨ (∀ i < k, inHbm (tr i) = true)) →
        s.dev.getSec n [(0, [])] (fun x => x.ctl.dirty) = [] →
        let answers := fun (st : Nat) (out : List (BitVec 8)) (t : Dev) => Runs c s t ∧ t.rstat = st ∧ t.rdata = out ∧ counted t ∧
          ∀ u ∈ t.getSec n [] (fun y => y.mem.urgent), u.1 ≠ m.val
        (bs = [] → (∃ i < k, s.dev.reachable n (tr i) = false) → ∃ t : Dev, answers 4 [] t) ∧
        (bs = [] → (∀ i < k, s.dev.reachable n (tr i) = true) → ∃ t : Dev,
          answers (if ∃ e ∈ es, 2 * (a.toNat / 2 + e.1) < a.toNat + k ∧ e.2 = 2 then 1 else 0)
            ((List.range k).map (fun i => BitVec.ofNat 8 (s.dev.memByte n (tr i)))) t ∧
          ∀ y x : Nat, t.memByte y x = s.dev.memByte y x) ∧
        (bs ≠ [] → (∀ i < k, s.dev.reachable n (tr i) = true) → errs = [] → ∃ t : Dev, answers 0 [] t ∧
          (∀ i < k, t.memByte n (tr i) = bytes.getD i 0) ∧
          ∀ y x : Nat, (inSpad x = true ∨ hbmBase ≤ x) → (y = n.val → ∀ i < k, x ≠ tr i) → t.memByte y x = s.dev.memByte y x))))

/-- R195, R220: bytes stored inside one line read back as stored, and every other byte of the section, and every byte of another section, reads as before. -/
def Obligations.StoredBytesReadBack : Prop := ∀ (d : Dev) (n m a x : Nat) (bs : List Nat) (tag : Option LineTag), n < 8 →
  a / 64 = (a + bs.length - 1) / 64 → (inSpad a = true ∨ hbmBase ≤ a) → (inSpad x = true ∨ hbmBase ≤ x) →
  (d.writeLine n a bs tag).memByte m x = if m = n ∧ a ≤ x ∧ x < a + bs.length then bs.getD (x - a) 0 % 256 else d.memByte m x

/-- R198, R209, R210: REQUEST_URGENT counts a waiting request once and marks it. A write of BANKPWR fences every bank that is not in transition and whose
target differs from its state, and changes no stored byte; when a transition is done BANKSTAT shows the new state, ON without its fence, or the next
transition begins where the target has changed, and a bank that was or becomes OFF has lost its contents, while the other banks keep theirs.
Choices of the model in it: logs 52 and 81. -/
def Obligations.BankPowerAndUrgency : Prop := ∀ (s : State) (n : Fin 8) (m : Fin 31) (v : BitVec 32) (b : Fin 16), s.upIn n →
  let st := Reg.SPAD.BANKSTAT.of n
  (16 ≤ m.val → (∀ u ∈ s.dev.getSec n [] (fun x => x.mem.urgent), u.1 ≠ m.val) →
    Runs (.requestUrgent n m b) s ((s.dev.mem n (fun x => { x with urgent := (m.val, b.val) :: x.urgent })).bump (Reg.SPAD.URGCNT.of n [m]))) ∧
  (16 ≤ m.val → (∃ u ∈ s.dev.getSec n [] (fun x => x.mem.urgent), u.1 = m.val) → Runs (.requestUrgent n m b) s s.dev) ∧
  (m.val < 16 → ∀ (i : Nat) (a : MemAcc),
    s.dev.getSec n none (fun x => x.mem.acc.findIdx? (fun a => !a.home && !a.path && a.cl == m.val)) = some i →
    s.dev.getSec n none (fun x => x.mem.acc[i]?) = some a →
    (a.urgent = false → Runs (.requestUrgent n m b) s ((s.dev.mem n (fun x => { x with
      acc := modNth (fun a => { a with urgent := true }) i x.acc })).bump (Reg.SPAD.URGCNT.of n [m]))) ∧
    (a.urgent = true → Runs (.requestUrgent n m b) s s.dev)) ∧
  (∃ d : Dev, Runs (.bankpwrWrite n v) s d ∧ d.rd (Reg.SPAD.BANKPWR.of n) = v.toNat ∧ (∀ (k a : Nat), d.memByte k a = s.dev.memByte k a) ∧
    ∀ b : Fin 16,
      let cur := s.dev.fd st (2 * b + 1) (2 * b)
      let tgt := min 2 (bits v.toNat (2 * b + 1) (2 * b))
      (cur ≠ 3 → cur ≠ tgt → d.fd st (2 * b + 1) (2 * b) = 3 ∧ d.bankOn n b = false ∧
        Sparse.find b.val (d.getSec n [] (fun x => x.mem.bankMove)) = some (cur, tgt)) ∧
      (cur = tgt ∨ cur = 3 → d.fd st (2 * b + 1) (2 * b) = cur)) ∧
  (∀ old new : Nat, new < 3 → s.dev.getSec n none (fun x => Sparse.find b.val x.mem.bankMove) = some (old, new) →
    ∃ d : Dev, Runs (.bankPowerDone n b) s d ∧
      (s.dev.bankTarget n b = new → d.fd st (2 * b + 1) (2 * b) = new ∧ d.getSec n (some (0, 0)) (fun x => Sparse.find b.val x.mem.bankMove) = none ∧
        (new = 0 → d.bankOn n b = true ∧ d.fb (Reg.SNOC.FSTAT.of n) b = false)) ∧
      (s.dev.bankTarget n b ≠ new → d.fd st (2 * b + 1) (2 * b) = 3 ∧
        d.getSec n none (fun x => Sparse.find b.val x.mem.bankMove) = some (new, s.dev.bankTarget n b)) ∧
      (∀ a < 0x800000, d.memByte n a = if bankOf a = b ∧ (old = 2 ∨ new = 2) then 0 else s.dev.memByte n a) ∧
      ∀ c : Fin 16, c ≠ b → d.fd st (2 * c + 1) (2 * c) = s.dev.fd st (2 * c + 1) (2 * c))

/-- R215 to R220: the memory engine takes the complete packet of a request queue, up to its mark, when a tag is free. A poisoned packet answers UNCORR, a
malformed one MALFORMED with MEM_RANGE against the QWR of its mark, one that no region allows the status of its refusal with MEM_RANGE, and ERR latches the first
failure; any other is performed: a READ answers the words that stand at its mapped address, or UNCORR where the stack cannot correct a line, which is counted and
poisoned; a WRITE stores its words there, and no other byte changes; both forms of it and a FENCE answer as their command has it. A response enters queue q + 8, as
many words as FREE allows, the rest with its tag staying; one that finds room enters whole, in order, behind the words of that queue. R212: a stack's refresh flag
follows its temperature on every channel in service of its four sections. Choices of the model in it: logs 61, 82 and 83. -/
def Obligations.MemoryEngineRequests : Prop := ∀ (s : State) (n q : Fin 8) (ue : BitVec 32) (errs : List (Fin 1024 × Fin 3)) (c : Fin 2) (hot : Bool),
  (s.upIn n → ∀ had more : Nat, s.dev.hasTag n q = true → s.dev.requestPacket n q = some (had, more) →
    let held := s.dev.getQ n q [] (fun x => x.taken)
    let was := s.dev.getQ n q [] Queue.words
    let t := s.dev.queueTake n q more (errPairs errs)
    let ws := held ++ t.2
    let d := t.1.queue n q (fun x => { x with taken := [] })
    let r := Request.read (ws.map (fun w => w.data.toNat))
    let k := d.fregCheck n r.sma (2 * (r.len + 1)) (r.cmd != 1)
    let tr := fun (x : Nat) => (d.freg n k.2 x).getD x
    let reply := fun (d : Dev) (status : Nat) (data : List Nat) (poison integ : Bool) =>
      let out := [status * 256 + r.len, r.tag] ++ (if r.cmd = 1 then if status = rOK then data else List.replicate (r.len + 1) 0 else [])
      if r.cmd = 2 then d
      else d.sec n (fun x => { x with eng := x.eng ++ [⟨q, out, crcEnd (out.foldl crcWord crcStart), poison, integ⟩] })
    let latch := fun (status : Nat) (d : Dev) => if d.fb (Reg.HBMC.ERR.of n) 31 then d else d.wr (Reg.HBMC.ERR.of n) (2 ^ 31 + status * 2 ^ 8 + q)
    let failed := fun (status : Nat) (d : Dev) => match ws.getLast?.bind (fun w => w.org) with
      | some (course, st, cyc) => (latch status d).raise n ⟨fMEM_RANGE, 0, course, 0, st, cyc⟩
      | none => latch status d
    let ran := Runs (.fabricHbmRequest n q ue errs) s
    (errs = [] → t.2 = was.take more ∧ d.getQ n q [] Queue.words = was.drop more) ∧
    (held = [] → ((was.take (s.dev.getQ n q 0 Queue.avail)).findIdx? (fun w => w.eop)).map (fun i => i + 1) = some more) ∧
    ((∃ w ∈ ws, w.poison = true) →
      ran (reply (latch rUNCORR d) (if 1 ≤ r.cmd ∧ r.cmd ≤ 4 then rUNCORR else rMALFORMED) [] true false)) ∧
    ((∀ w ∈ ws, w.poison = false) →
      (r.malformed = true → ran (failed rMALFORMED (reply d rMALFORMED [] false false))) ∧
      (r.malformed = false → r.cmd = 4 → ran (reply d rOK [] false false)) ∧
      (r.malformed = false → r.cmd ≠ 4 → k.1 ≠ rOK → ran (failed k.1 (reply d k.1 [] false false))) ∧
      (r.malformed = false → r.cmd = 1 → k.1 = rOK →
        let lines := (List.range ((r.sma + 2 * r.len + 1) / 64 - r.sma / 64 + 1)).map (fun i => tr (max r.sma ((r.sma / 64 + i) * 64)) / 64)
        let e := d.each lines (fun l d => d.flushDirty n 31 l)
        (ue.toNat = 0 ∨ lines.length < ue.toNat →
          ran (reply e rOK ((List.range (r.len + 1)).map (fun i => e.fabWord n (tr (r.sma + 2 * i)))) (lines.any (e.lineBad n)) (lines.any (e.lineBad n)))) ∧
        (0 < ue.toNat → ue.toNat ≤ lines.length → ran (reply (latch rUNCORR (((e.poisonLine n (lines.getD (ue.toNat - 1) 0)).bump
          (Reg.HBMC.UECNT.of n)).selfDetected 0x20)) rUNCORR [] true false))) ∧
      (r.malformed = false → r.cmd = 2 ∨ r.cmd = 3 → k.1 = rOK →
        let bs := (r.data.map (fun w => [w % 256, w % 4096 / 256])).flatten
        ∃ e : Dev, ran (reply e rOK [] false false) ∧ e.getSec n [] (fun x => x.eng) = d.getSec n [] (fun x => x.eng) ∧
          (d.getSec n [(0, [])] (fun x => x.ctl.dirty) = [] →
           (∀ i < bs.length, ∀ j < bs.length, tr (r.sma + i) = tr (r.sma + j) → i = j) →
            (∀ i < bs.length, e.memByte n (tr (r.sma + i)) = bs.getD i 0) ∧
            ∀ y x : Nat, (inSpad x = true ∨ hbmBase ≤ x) → (y = n.val → ∀ i < bs.length, x ≠ tr (r.sma + i)) → e.memByte y x = d.memByte y x)))) ∧
  (s.upIn n → ∀ (e : EngReq) (i : Nat), s.dev.getSec n none (fun x => x.eng.findIdx? (fun e => e.queue == q.val)) = some i →
    s.dev.getSec n none (fun x => x.eng[i]?) = some e →
    let free := s.dev.getQ n (q + 8) 0 Queue.free
    (free < e.words.length → Runs (.hbmRequestComplete n q) s
      ((s.dev.queueWrite n (q + 8) (packetWords (e.words.take free) false) ⟨some e.tally, e.poison, e.integ⟩).sec n
        (fun x => { x with eng := modNth (fun e => { e with words := e.words.drop free }) i x.eng }))) ∧
    (e.words.length ≤ free → ∃ t : Dev, Runs (.hbmRequestComplete n q) s t ∧
      t = (s.dev.queueWrite n (q + 8) (packetWords e.words true) ⟨some e.tally, e.poison, e.integ⟩).sec n (fun x => { x with eng := x.eng.eraseIdx i }) ∧
      (s.dev.getQ n (q + 8) 1024 (fun x => x.openLen) + e.words.length < 1024 →
       (s.dev.getQ n (q + 8) false Queue.toBanks = false ∨ s.dev.getQ n (q + 8) [] (fun x => x.chain) = []) →
        t.getQ n (q + 8) [] (fun x => x.words.map (fun w => (w.data.toNat, w.eop))) =
          s.dev.getQ n (q + 8) [] (fun x => x.words.map (fun w => (w.data.toNat, w.eop))) ++
            e.words.zipIdx.map (fun p => (p.1 % 4096, decide (p.2 + 1 = e.words.length)))))) ∧
  (s.up → ∃ t : Dev, Runs (.hbmRefreshRateChange c hot) s t ∧ t.pow.hotStack.getLsbD c = hot ∧
    (∀ m < 8, t.fd (Reg.HBMC.STAT.of m) 7 4 =
      if m / 4 = c.val then (if hot then s.dev.fd (Reg.HBMC.STAT.of m) 3 0 else 0) else s.dev.fd (Reg.HBMC.STAT.of m) 7 4) ∧
    t.secs = s.dev.secs ∧ ∀ l : Loc, (∀ m < 8, l.key ≠ (Reg.HBMC.STAT.of m).key) → t.rd l = s.dev.rd l)

/-- R222, R225, R228, R551: the words that AVAIL counts leave a queue in the order in which they entered, and those left keep their order. -/
def Obligations.QueueIsFifo : Prop := ∀ (q : Queue) (k : Nat), k ≤ q.avail →
  (q.popN k).1 = q.words.take k ∧ (q.popN k).2.words = q.words.drop k

/-- R222, R228, R234, R240 to R242: the queue's service commands. A service producer's words, into a queue that it fills, join the end where they find room, the last
one marked with its tally; a packet that it marks, or that lost a word, is poisoned whole, and counted. Words that find no room are dropped and counted, OVERRUN set and, where it was
clear, Q_OVERRUN sent. A consumer of a queue that service units drain takes the words that AVAIL counts, as many as asked for and no further than the end of
a packet. Other queues it cannot reach. R231, R232, R238, R239, R243: RST empties the queue and shows in RSTCNT how many words it held; TEST begins an episode in normal
service and is ignored elsewhere; the end of an episode's scrub and test passes the banks, normal service resuming where the chain is empty, or retires the queue; a
mailbox word enters queue 63, is mirrored with its packet by a paired primary and ignored and counted by a paired secondary.
Choices of the model in it: logs 60 and 84. -/
def Obligations.QueueCommands : Prop :=
  (∀ (s : State) (n : Fin 8) (q : Fin 64) (ws : List (BitVec 12)) (eop poison integ : Bool) (tally : Option (BitVec 32)), s.upIn n →
    let x := s.dev.getQ n q Queue.start id
    let st := Reg.FERRY.STAT.of n [q]
    let new := ws.zipIdx.map (fun p => (p.1, eop && p.2 + 1 == ws.length))
    let c := Instr.queueWordWrite n q ws eop tally poison integ
    (unitFills q = false → Runs c s s.dev) ∧
    (unitFills q = true → (eop = true → tally.isSome = true) →
      Runs c s (s.dev.queueWrite n q (packetWords (ws.map BitVec.toNat) eop) ⟨tally.map BitVec.toNat, poison, integ⟩) ∧
      (ws.length ≤ x.free → x.openLen + ws.length < 1024 → (x.toBanks = false ∨ x.chain = []) →
        ∃ d : Dev, Runs c s d ∧ d.getQ n q [] (fun y => y.words.map (fun w => (w.data, w.eop))) = x.words.map (fun w => (w.data, w.eop)) ++ new ∧
          d.rd (Reg.FERRY.OVRCNT.of n [q]) = s.dev.rd (Reg.FERRY.OVRCNT.of n [q]) ∧
          (eop = false → d.getQ n q [] Queue.words = x.words ++ ws.map (fun w => ⟨w, false, false, false, none, none⟩)) ∧
          (eop = true → ws ≠ [] → d.rd (Reg.FERRY.PKTIN.of n [q]) = satAdd 32 (s.dev.rd (Reg.FERRY.PKTIN.of n [q])) 1 ∧
            d.getQ n q 1 (fun y => y.openLen) = 0 ∧
            (poison = false → x.bad = false → x.long = false →
              tally = some (BitVec.ofNat 32 (crcEnd ((ws.map BitVec.toNat).foldl crcWord x.openCrc.toNat))) →
              d.getQ n q [] Queue.words = x.words ++ ws.zipIdx.map (fun p => (⟨p.1, p.2 + 1 == ws.length, false, false, none,
                if p.2 + 1 == ws.length then tally else none⟩ : QWord))) ∧
            (poison = true ∨ x.bad = true → d.rd (Reg.FERRY.POISCNT.of n [q]) = satAdd 32 (s.dev.rd (Reg.FERRY.POISCNT.of n [q])) 1 ∧
              d.fb st 4 = true ∧ ∀ w ∈ (d.getQ n q [] Queue.words).drop (x.words.length - x.openLen), w.poison = true))) ∧
      (x.free < ws.length → x.openLen + x.free < 1024 →
        ∃ d : Dev, Runs c s d ∧ d.fb st 2 = true ∧ d.getQ n q false (fun y => y.bad) = true ∧
          d.rd (Reg.FERRY.OVRCNT.of n [q]) = satAdd 32 (s.dev.rd (Reg.FERRY.OVRCNT.of n [q])) (ws.length - x.free)) ∧
      (x.free = 0 → ws ≠ [] →
        let d := ((s.dev.bump (Reg.FERRY.OVRCNT.of n [q]) ws.length).wb st 2 true).queue n q (fun x =>
          { (packetWords (ws.map BitVec.toNat) eop).foldl Queue.produced x with bad := true })
        Runs c s ((if s.dev.fb st 2 then d else d.notice n 0x0302 [q]).queueSettle n q)))) ∧
  (∀ (s : State) (n : Fin 8) (q : Fin 64) (k : Fin 1025), s.upIn n →
    let get := fun (d : Dev) => d.getQ n q Queue.start id
    let x := get s.dev
    (unitDrains q = false → Runs (.queueDequeue n q k []) s s.dev) ∧
    (unitDrains q = true → x.taken.getLast?.all (fun w => !w.eop) = true →
      let j := min (min k.val ((x.words.takeWhile (fun w => !w.eop)).length + 1)) x.avail
      ∃ d : Dev, Runs (.queueDequeue n q k []) s d ∧ (get d).words = x.words.drop j ∧ (get d).taken = x.taken ++ x.words.take j ∧
        d.lanes = s.dev.lanes ∧ (∀ m < 8, ∀ r < 64, m ≠ n.val ∨ r ≠ q.val → d.getQ m r Queue.start id = s.dev.getQ m r Queue.start id))) ∧
  (∀ (s : State) (n : Fin 8) (q : Fin 64) (w : BitVec 12) (eop : Bool), s.upIn n →
    let x := s.dev.getQ n q Queue.start id
    (∃ d : Dev, Runs (.ferryRst n q) s d ∧ d.getQ n q [] Queue.words = [] ∧ d.getQ n q 1 (fun y => y.openLen) = 0 ∧
      d.getQ n q true (fun y => y.bad) = x.prodOpen ∧ d.rd (Reg.FERRY.RSTCNT.of n [q]) = x.words.length % 2 ^ 32) ∧
    (x.mode = 0 → ∃ d : Dev, Runs (.queueTest n q) s d ∧ d = (s.dev.episode n q 2).queueSettle n q ∧ d.getQ n q 0 (fun y => y.mode) = 2 ∧
      d.getQ n q true (fun y => y.passed) = false ∧ d.getQ n q [] Queue.words = x.words) ∧
    (x.mode ≠ 0 → Runs (.queueTest n q) s s.dev) ∧
    (x.mode ≠ 0 → x.passed = false → x.retired = false → x.banks = [] →
      (∃ d : Dev, Runs (.scrubTestDone n q none) s d ∧ d.getQ n q [] Queue.words = x.words ∧
        (x.mode = 1 → d.getQ n q false (fun y => y.passed && y.mode == 1) = true) ∧
        (2 ≤ x.mode → x.words = [] → d.getQ n q 1 (fun y => y.mode) = 0) ∧
        (2 ≤ x.mode → x.words ≠ [] → d.getQ n q false (fun y => y.passed && y.mode == x.mode) = true ∧ d.getQ n q [] (fun y => y.lead) = x.words)) ∧
      ∀ b : Fin 2, Runs (.scrubTestDone n q (some b)) s
        (((s.dev.queue n q (fun x => { x with retired := true })).wb (Reg.FERRY.STAT.of n [q]) 10 true).notice n 0x0307 [q, b])) ∧
    (let wrote := s.dev.queueWrite n 63 [plainWord w.toNat eop] ⟨none, false, false⟩
     let y := s.dev.getQ n 63 Queue.start id
     let open_ := Sparse.get (fun _ => []) s.dev.twin.mboxOpen n ++ [w.toNat]
     (s.dev.secondary = true → Runs (.mailboxWrite n w eop) s (s.dev.bump (Reg.FERRY.OVRCNT.of n [63]))) ∧
     (s.dev.secondary = false → s.dev.pairedPrimary = false → Runs (.mailboxWrite n w eop) s wrote) ∧
     (s.dev.secondary = false → s.dev.pairedPrimary = true →
      (eop = true → Runs (.mailboxWrite n w eop) s ((wrote.sendMir 3 (n.val :: open_)).twn (fun t => { t with mboxOpen := Sparse.drop n t.mboxOpen }))) ∧
      (eop = false → Runs (.mailboxWrite n w eop) s (wrote.twn (fun t => { t with mboxOpen := Sparse.put n open_ t.mboxOpen })))) ∧
     (0 < y.free → y.openLen < 1023 → (y.toBanks = false ∨ y.chain = []) →
      wrote.getQ n 63 [] (fun z => z.words.map (fun w => (w.data, w.eop))) = y.words.map (fun w => (w.data, w.eop)) ++ [(w, eop)])))

/-- R255 to R257: while the section serves calls, an empty prefetch slot takes the best eligible entry of the lists (BestEntryIsBest), the lower cores having none to
take; a prefetched entry becomes the current call of a core that has none, with its age, cleared return words and its watchdog limit, and is counted. A
decision that TRCTL does not enable leaves no record. Choices of the model in it: log 59. -/
def Obligations.PrefetchAndDispatch : Prop := (∀ (s : State) (n x : Fin 8) (e : CallEnt), s.upIn n →
  stLOADED ≤ s.dev.runState n → s.dev.getSec n true (fun y => y.run.restarting) = false → s.dev.secondary = false →
  ((∀ i < x.val, (s.dev.getSlot n i none (fun y => y.pref)).isSome = true ∨ s.dev.bestFor n i = none) →
    s.dev.getSlot n x none (fun y => y.pref) = none → s.dev.bestFor n x = some e →
    Runs (.callPrefetch n x) s ((s.dev.calls n (fun c => { c with ready := c.ready.filter (fun y => y.seq != e.seq) })).slot n x
      (fun y => { y with pref := some e }))) ∧
  (s.dev.getSlot n x none (fun y => y.cur) = none → s.dev.getSlot n x none (fun y => y.pref) = some e →
    let age := s.dev.clk - e.postT
    Runs (.callDispatch n x) s (((s.dev.slot n x (fun y => { y with
      pref := none
      cur := some e
      curT := s.dev.clk
      age := age
      rets := List.replicate 16 0
      stat := 0
      limit := log2Limit (s.dev.fd (Reg.CALL.WDOG.of n) 4 0) })).bump (Reg.CALL.DISPCNT.of n)).decision n 0 x e age 0))) ∧
  (∀ (d : Dev) (n ev core age r : Nat) (e : CallEnt), d.fb (Reg.CALL.TRCTL.of n) ev = false → d.decision n ev core e age r = d)

/-- R255: an entry is eligible for call core i when bit i of its class's CORES and bit i of CORECTL.EN are 1 and the core is not held in reset. The best
eligible entry is the urgent one earliest in post order, or else, where none is urgent, the one of the highest level that holds an eligible entry which is
earliest in post order, whatever level it was posted at; there is one just when an eligible entry waits. -/
def Obligations.BestEntryIsBest : Prop := ∀ (d : Dev) (n i : Nat), (∀ y ∈ d.ready n, y.level < 4) →
  (d.ready n).Pairwise (fun a b => a.seq < b.seq) →
  (∀ c : Nat, d.eligible n i c = true ↔ d.fb (Reg.CALL.CLASS.of n [c]) i = true ∧ d.fb (Reg.CALL.CORECTL.of n) i = true ∧
    d.fb (Reg.CALL.CORESTAT.of n [i]) 28 = false) ∧
  (d.bestFor n i = none ↔ ∀ y ∈ d.ready n, d.eligible n i y.cls = false) ∧
  ∀ e : CallEnt, d.bestFor n i = some e → e ∈ d.ready n ∧ d.eligible n i e.cls = true ∧
    ∀ y ∈ d.ready n, d.eligible n i y.cls = true →
      (y.urgent = true → e.urgent = true ∧ e.seq ≤ y.seq) ∧ (e.urgent = false → y.level ≤ e.level ∧ (y.level = e.level → e.seq ≤ y.seq))

/-- R258 to R263, R251, R253, R547: the age check raises the level of every waiting entry whose time at its level is over, in the lists and in the prefetch slots, and counts it; one at
level 3 becomes urgent, is counted and announced, and takes the prefetch slot of the lowest eligible core where each of these holds an entry that is not urgent.
hvcdone and the watchdog end the current call with its return packet, the status and tag first, where its class is blocking; the watchdog resets the core, counts and
announces it. The earliest finished return enters queue 62 once no earlier blocking call is open and there is room, in a paired primary with its copy to the twin, and waits before.
CORECTL enables cores, and one that it disables gives its prefetched entry back; a CRPOOL write beyond 256 entries in all, or while RUNNING or PAUSED, only sets REJ.
Choices of the model in it: log 59. -/
def Obligations.CallsCompleteAndRegisters : Prop := ∀ (s : State) (n x : Fin 8) (cl : Fin 16) (v : BitVec 32) (e : CallEnt), s.upIn n →
  let pref := fun (d : Dev) (i : Nat) => d.getSlot n i none (fun y => y.pref)
  let aged := fun (e : CallEnt) => let lim := log2Limit (s.dev.fd (Reg.CALL.AGELIM.of n) (8 * e.level + 4) (8 * e.level))
    lim ≠ 0 ∧ lim < s.dev.clk - e.levelT ∧ e.urgent = false
  (s.dev.runState n < stLOADED → Runs (.callAgeCheck n) s s.dev) ∧
  (stLOADED ≤ s.dev.runState n → ((s.dev.undispatched n).map (fun y => y.seq)).Nodup →
    (∀ y ∈ s.dev.undispatched n, aged y → y.level < 3) →
    let up := fun (y : CallEnt) => if aged y then { y with
        level := y.level + 1
        levelT := s.dev.clk } else y
    ∃ t : Dev, Runs (.callAgeCheck n) s t ∧ t.ready n = (s.dev.ready n).map up ∧ (∀ i < 8, pref t i = (pref s.dev i).map up) ∧
      t.rd (Reg.CALL.PROMCNT.of n) = satAdd 32 (s.dev.rd (Reg.CALL.PROMCNT.of n)) ((s.dev.undispatched n).filter (fun y => decide (aged y))).length) ∧
  (stLOADED ≤ s.dev.runState n → s.dev.ready n = [e] → aged e → 3 ≤ e.level →
    (∀ i < 8, ∀ p : CallEnt, pref s.dev i = some p → p.seq ≠ e.seq ∧ ¬aged p) →
    let u := { e with urgent := true }
    let cores := (List.range 8).filter (fun i => s.dev.eligible n i e.cls)
    let swaps := s.dev.serving n = true ∧ cores ≠ [] ∧ ∀ i ∈ cores, ∃ p : CallEnt, pref s.dev i = some p ∧ p.urgent = false
    ∃ t : Dev, Runs (.callAgeCheck n) s t ∧ t.rd (Reg.CALL.URGCNT.of n) = satAdd 32 (s.dev.rd (Reg.CALL.URGCNT.of n)) 1 ∧
      (¬swaps → t.ready n = [u] ∧ ∀ i < 8, pref t i = pref s.dev i) ∧
      (swaps → ∀ p : CallEnt, pref s.dev (cores.headD 0) = some p → t.ready n = [p] ∧ pref t (cores.headD 0) = some u ∧
        ∀ i < 8, i ≠ cores.headD 0 → pref t i = pref s.dev i)) ∧
  (s.dev.getSlot n x none (fun y => y.cur) = some e →
    let back := fun (st : Nat) (ws : List Nat) (d : Dev) =>
      if s.dev.fb (Reg.CALL.CLASS.of n [e.cls]) 30 && !(s.dev.getSec n false (fun y => y.run.restarting)) then
        d.calls n (fun c => { c with
          rets := c.rets ++ [⟨e.seq, (st * 256 + e.tag) :: (ws ++ List.replicate 16 0).take (s.dev.fd (Reg.CALL.CLASS.of n [e.cls]) 27 24)⟩] })
      else d
    Runs (.hvcdone n x) s (back (s.dev.getSlot n x 0 (fun y => y.stat)) (s.dev.getSlot n x [] (fun y => y.rets.map BitVec.toNat))
      (s.dev.slot n x (fun y => { y with cur := none }))) ∧
    (let lim := s.dev.getSlot n x 0 (fun y => y.limit)
     let late := lim ≠ 0 ∧ lim < s.dev.clk - s.dev.getSlot n x 0 (fun y => y.curT)
     (¬late → Runs (.watchdogExpiry n x) s s.dev) ∧
     (late →
      let d := back 2 [] ((s.dev.resetCallCore n x).slot n x (fun y => { CallSlot.empty with pref := y.pref }))
      Runs (.watchdogExpiry n x) s (((d.decision n 5 x e (d.clk - e.postT) 0).bump (Reg.CALL.ABORTCNT.of n)).notice n 0x0112 [e.cls, e.cluster]) ∧
      ((s.dev.resetCallCore n x).getCore n x).pc = (Core.start 0).pc ∧ ((s.dev.resetCallCore n x).getCore n x).mem = (s.dev.getCore n x).mem))) ∧
  (∀ r : CallRet, minBy (fun (r : CallRet) => r.seq) (s.dev.getSec n [] (fun y => y.calls.rets)) = some r →
    let waits := (∃ y ∈ s.dev.undispatched n, y.seq < r.seq ∧ s.dev.blocking n y.cls = true) ∨
      (∃ i < 8, ∃ y : CallEnt, s.dev.getSlot n i none (fun z => z.cur) = some y ∧ y.seq < r.seq ∧ s.dev.blocking n y.cls = true) ∨
      s.dev.getQ n 62 0 Queue.free < r.words.length ∨ (s.dev.pairedPrimary = true ∧ s.dev.mirrorRoom 2 < r.words.length + 3)
    (waits → Runs (.returnEnqueue n) s s.dev) ∧
    (¬waits →
      let d := if s.dev.pairedPrimary then s.dev.sendMir 2 ([n.val] ++ words12 2 (r.seq % 2 ^ 24) ++ r.words) else s.dev
      ∃ t : Dev, Runs (.returnEnqueue n) s t ∧
        t = (d.calls n (fun c => { c with rets := c.rets.filter (fun y => y.seq != r.seq) })).queueWrite n 62 (packetWords r.words true)
          ⟨some (crcEnd (r.words.foldl crcWord crcStart)), false, false⟩ ∧
        (s.dev.getQ n 62 1024 (fun y => y.openLen) + r.words.length < 1024 →
         (s.dev.getQ n 62 false Queue.toBanks = false ∨ s.dev.getQ n 62 [] (fun y => y.chain) = []) →
          t.getQ n 62 [] (fun y => y.words.map (fun w => (w.data.toNat, w.eop))) =
            s.dev.getQ n 62 [] (fun y => y.words.map (fun w => (w.data.toNat, w.eop))) ++
              r.words.zipIdx.map (fun p => (p.1 % 4096, decide (p.2 + 1 = r.words.length)))))) ∧
  (let off := fun (i : Nat) => s.dev.fb (Reg.CALL.CORECTL.of n) i = true ∧ v.toNat.testBit i = false
   ((∀ i < 8, off i → pref s.dev i = none) → Runs (.corectlWrite n v) s (s.dev.wr (Reg.CALL.CORECTL.of n) (v.toNat % 256))) ∧
   (off x → (∀ i < 8, i ≠ x.val → off i → pref s.dev i = none) → pref s.dev x = some e →
    ∃ t : Dev, Runs (.corectlWrite n v) s t ∧ t.rd (Reg.CALL.CORECTL.of n) = v.toNat % 256 ∧ pref t x = none ∧
      t.ready n = insertEnt e (s.dev.ready n) ∧ ∀ i < 8, i ≠ x.val → pref t i = pref s.dev i)) ∧
  (let pool := fun y => if y = cl.val then v.toNat % 256 else s.dev.fd (Reg.CALL.CRPOOL.of n [y]) 7 0
   let sum := ((List.range 16).map (fun y => max (pool y) (((s.dev.undispatched n).filter (fun e => e.cluster == y)).length))).sum
   ((s.dev.runState n = stRUNNING ∨ s.dev.runState n = stPAUSED ∨ 256 < sum) → Runs (.crpoolWrite n cl v) s (s.dev.wb (Reg.CALL.STAT.of n) 0 true)) ∧
   (s.dev.runState n ≠ stRUNNING → s.dev.runState n ≠ stPAUSED → sum ≤ 256 →
     Runs (.crpoolWrite n cl v) s (s.dev.wr (Reg.CALL.CRPOOL.of n [cl]) (v.toNat % 256))))

/-- R267 to R275, R462: what an instruction of a core that runs does, its trace disabled and its pc in the core's own memory, a controller in machine mode without a PMP entry. One
that retires leaves its result in its register, register 0 staying, the pc two or four bytes on or at its target, and INSTRET one higher; one that traps saves the pc, cause, value
and interrupt enable and goes to its handler. Computing and jumping; loads and stores of the core's own memory, and of section memory through a region of a call core; AMO, LR
and SC of a controller; misaligned accesses, addresses that lead nowhere and regions that refuse trap; CSRs: mscratch, the call's CSRs of a call core, and an unknown one, which
traps; MRET, traps and interrupts. R272, R273: a dirty line of the section controller's cache leaves it and is written to memory; where memory refuses it,
nothing is written and hvwberr records its address when it holds no error. Choices of the model in it: logs 19, 20, 21, 22, 85 and 86. -/
def Obligations.CoreRetiresAndWritesBack : Prop :=
  (∀ (s : State) (n x : Fin 9) (cyc : BitVec 16) (ph : Fin 4) (short : Bool) (ecc : Fin 3) (rd : Fin 32) (v a : BitVec 64) (sz : Fin 4) (sg : Bool) (p : Nat),
    let c := s.dev.getCore n x
    let rv64 := isRv64 n x
    let m := if rv64 then 2 ^ 64 else 2 ^ 32
    let pc' := c.pc + (if short then 2 else 4)
    let k := 2 ^ sz.val
    let held := s.dev.csrHeld n x
    s.dev.coreRuns n x = true → s.dev.fb (tctl n (traceIx n x)) 31 = false → (∃ y, s.dev.place n x c.pc = .ram y) →
    c.user = false → (rv64 = true → held 0x3A0 = 0 ∧ (held csrSTATUS).testBit 17 = false) →
    let ran := fun (op : CoreOp) (t : Dev) => Runs (.coreInstructionRetire n x cyc ph short op [] ecc) s t
    let went := fun (op : CoreOp) (target : Nat) (rd : Fin 32) (v : Nat) (more : Dev → Prop) => ∃ t : Dev, ran op t ∧
      (t.getCore n x).pc = target % m ∧
      (∀ r : Fin 32, vget (t.getCore n x).regs r 0 = if r = rd ∧ r ≠ 0 then BitVec.ofNat 64 (v % m) else vget c.regs r 0) ∧
      t.csrHeld n x csrINSTRET = (held csrINSTRET + 1) % 2 ^ 64 ∧ more t
    let trapped := fun (op : CoreOp) (cause tval : Nat) (int : Bool) => ∃ t : Dev, ran op t ∧
      (t.getCore n x).pc = held csrTVEC / 4 * 4 + (if int = true ∧ held csrTVEC % 2 = 1 then 4 * cause else 0) ∧
      t.csrHeld n x csrEPC = c.pc % 2 ^ 64 ∧ t.csrHeld n x csrCAUSE = (cause + b2n int * 2 ^ (if rv64 then 63 else 31)) % 2 ^ 64 ∧
      t.csrHeld n x csrTVAL = tval % 2 ^ 64 ∧ (t.csrHeld n x csrSTATUS).testBit 3 = false ∧
      (t.csrHeld n x csrSTATUS).testBit 7 = (held csrSTATUS).testBit 3 ∧ (t.getCore n x).user = false ∧ (t.getCore n x).regs = c.regs
    let own := ofBytes ((List.range k).map (fun i => (Sparse.get (fun _ => (0 : BitVec 8)) c.mem (p + i)).toNat))
    let stored := fun (v : BitVec 64) (t : Dev) => ∀ y : Nat, Sparse.get (fun _ => (0 : BitVec 8)) (t.getCore n x).mem y =
      if p ≤ y ∧ y < p + k then BitVec.ofNat 8 (v.toNat / 256 ^ (y - p)) else Sparse.get (fun _ => 0) c.mem y
    let kept := fun (t : Dev) => (t.getCore n x).mem = c.mem
    went (.compute rd v) pc' rd v.toNat kept ∧ went (.jump rd v a) a.toNat rd v.toNat kept ∧
    ((k = 8 → rv64 = true) → a.toNat % k ≠ 0 → trapped (.load rd a sz sg) mcLALIGN a.toNat false ∧ trapped (.store a sz v) mcSALIGN a.toNat false) ∧
    ((k = 8 → rv64 = true) → a.toNat % k = 0 →
      (s.dev.place n x a.toNat = .nowhere → trapped (.load rd a sz sg) mcLOAD a.toNat false ∧ trapped (.store a sz v) mcSTORE a.toNat false) ∧
      (s.dev.place n x a.toNat = .ram p → went (.load rd a sz sg) pc' rd (extend k own sg) kept ∧ went (.store a sz v) pc' 0 0 (stored v) ∧
        (rv64 = true → 4 ≤ k →
          went (.amo rd a sz v) pc' rd (extend k own true) (stored v) ∧
          went (.lr rd a sz) pc' rd (extend k own true) (fun t => kept t ∧ (t.getCore n x).resv = some a.toNat) ∧
          (c.resv = some a.toNat → went (.sc rd a sz v) pc' rd 0 (fun t => stored v t ∧ (t.getCore n x).resv = none)) ∧
          (c.resv ≠ some a.toNat → went (.sc rd a sz v) pc' rd 1 (fun t => kept t ∧ (t.getCore n x).resv = none)))) ∧
      (s.dev.place n x a.toNat = .mem p → n.val < 8 → x.val < 8 →
        (s.dev.allow n (23 + x) p k false = none → trapped (.load rd a sz sg) mcLOAD a.toNat false) ∧
        (s.dev.allow n (23 + x) p k true = none → trapped (.store a sz v) mcSTORE a.toNat false) ∧
        (s.dev.getSec n [(0, [])] (fun y => y.ctl.dirty) = [] → ecc.val = 0 → ∀ j : Nat,
          let tr := fun (i : Nat) => (s.dev.region n (23 + x) j (p + i)).getD (p + i)
          (∀ i < k, s.dev.reachable n (tr i) = true) → ((∀ i < k, inSpad (tr i) = true) ∨ (∀ i < k, inHbm (tr i) = true)) →
          (s.dev.allow n (23 + x) p k false = some j → s.dev.svcWaits n (23 + x) p k false = false →
            went (.load rd a sz sg) pc' rd (extend k (ofBytes ((List.range k).map (fun i => s.dev.memByte n (tr i)))) sg) kept) ∧
          (s.dev.allow n (23 + x) p k true = some j → s.dev.svcWaits n (23 + x) p k true = false →
            went (.store a sz v) pc' 0 0 (fun t => kept t ∧ ∀ i < k, t.memByte n (tr i) = v.toNat / 256 ^ i % 256))))) ∧
    (∀ set : Option (BitVec 64), went (.csr rd 0x340 set) pc' rd (held 0x340 % m) (fun t => t.csrHeld n x 0x340 =
      match set with | some y => y.toNat % m | none => held 0x340)) ∧
    trapped (.csr rd 0x123 none) mcILLEGAL 0 false ∧
    (n.val < 8 → x.val < 8 → ∀ e : CallEnt, s.dev.getSlot n x none (fun y => y.cur) = some e →
      went (.csr rd 0xFC0 none) pc' rd (2 ^ 31 + b2n e.urgent * 2 ^ 30 + e.cls % 64 * 2 ^ 24 + e.tag % 16 * 2 ^ 20 + e.level % 4 * 2 ^ 18 + e.course % 8192) kept ∧
      went (.csr rd 0xFC1 none) pc' rd (e.args.getD 1 0 % 4096 * 2 ^ 16 + e.args.getD 0 0 % 4096) kept ∧
      (∀ i : Fin 16, went (.csr rd (BitVec.ofNat 12 (0x7C0 + i.val)) (some v)) pc' rd (s.dev.getSlot n x 0 (fun y => (y.rets.getD i 0).toNat))
        (fun t => t.getSlot n x [] (fun y => y.rets) = (s.dev.getSlot n x [] (fun y => y.rets)).set i (BitVec.ofNat 12 v.toNat))) ∧
      went (.csr rd 0x7D1 (some v)) pc' rd 0 (fun t => t.getSlot n x (some e) (fun y => y.cur) = none)) ∧
    went .mret (held csrEPC) 0 0 (fun t => (t.csrHeld n x csrSTATUS).testBit 3 = (held csrSTATUS).testBit 7 ∧
      (t.csrHeld n x csrSTATUS).testBit 7 = true ∧ (rv64 = true → (t.getCore n x).user = (bits (held csrSTATUS) 12 11 == 0))) ∧
    (∀ cause : BitVec 12, trapped (.trap cause v) cause.toNat v.toNat false) ∧
    (s.dev.interrupts n x = true → trapped .interrupt 11 0 true) ∧
    (s.dev.interrupts n x = false → ran .interrupt s.dev)) ∧
  (∀ (s : State) (n : Fin 8) (line : BitVec 32) (bs : List Nat), s.upIn n → Sparse.find line.toNat (s.dev.getCore n 8).dirty = some bs →
    bs.length = 64 →
    let a := 64 * line.toNat
    let gone := fun (t : Dev) => Runs (.writebackError n line) s t ∧ Sparse.find line.toNat (t.getCore n 8).dirty = none
    (∀ j : Nat, s.dev.allow n 22 a 64 true = some j →
      let tr := fun (i : Nat) => (s.dev.region n 22 j (a + i)).getD (a + i)
      ((∀ i < 64, inSpad (tr i) = true) ∨ (∀ i < 64, inHbm (tr i) = true)) →
      ((∀ i < 64, s.dev.reachable n (tr i) = true) → ∃ t : Dev, gone t ∧ (∀ i < 64, t.memByte n (tr i) = bs.getD i 0 % 256) ∧
        t.csrHeld n 8 csrWBERR = s.dev.csrHeld n 8 csrWBERR) ∧
      (s.dev.reachable n (tr 0) = false → ∃ t : Dev, gone t ∧ (∀ y z : Nat, t.memByte y z = s.dev.memByte y z) ∧
        t.csrHeld n 8 csrWBERR = if (s.dev.csrHeld n 8 csrWBERR).testBit 63 then s.dev.csrHeld n 8 csrWBERR else 2 ^ 63 + a)) ∧
    (s.dev.allow n 22 a 64 true = none → ∃ t : Dev, gone t ∧ (∀ y z : Nat, t.memByte y z = s.dev.memByte y z) ∧
      t.csrHeld n 8 csrWBERR = if (s.dev.csrHeld n 8 csrWBERR).testBit 63 then s.dev.csrHeld n 8 csrWBERR else 2 ^ 63 + a))

/-- R283, R284, R295, R308: ARM shows the error of its first failed check and then changes nothing more. An accepted ARM clears RECNO and the counters, opens
pending slot 0 with ACTIVE set and waits in S0 to be armed. DISARM closes the open record, its header marked TRUNCATED with cause 1, and ends the acquisition;
without one it changes nothing. FORCE acts on an armed sequencer alone. R284 to R286, R289 to R293, R299: a row leaves the list of complete rows; with no
acquisition nothing else happens while activity is off. In the post phase it is stored at the next position after PRE, and the record that has its POST rows
closes; without room it is dropped and the record closes with cause 2. In the pending slot it is stored at its own position; the branch of an armed sequencer that
acts sets the next state and the counters, and a trigger or FORCE opens the post phase with it. The sequencer is armed again in S0, its counters cleared, when the
hold-off has ended, and not before. A header whose bank is free enters memory as it stands, and announces its record; a refused line ends the
acquisition with STOREERR, the header of the record then open alone left to write. R299, R302: ACTCTL takes a start or a stop, and REJ answers any other change.
Choices of the model in it: logs 36 and 88. -/
def Obligations.CaptureControl : Prop :=
  (∀ (s : State) (n : Fin 8) (ph : Fin 4), s.upIn n →
    let st := capStat n
    let rec_ := s.dev.rd (Reg.CAPT.RECNO.of n)
    let queue := s.dev.getCap n [] (fun c => c.queue)
    (let np := s.dev.nProbe n
     let ps := (List.range (min np 512)).map (fun i => s.dev.rd (Reg.CAPT.PROBE.of n [i]))
     let l := s.dev.capPre n + s.dev.capPost n
     let ns := s.dev.capNseg n
     let twice := ∃ i j : Nat, i < j ∧ j < ps.length ∧ bits (ps.getD i 0) 29 26 = bits (ps.getD j 0) 29 26 ∧
       bits (ps.getD i 0) 8 0 = bits (ps.getD j 0) 8 0
     let db := 64 * s.dev.rd (Reg.CAPT.DBASE.of n)
     let hb := 64 * s.dev.rd (Reg.CAPT.HBASE.of n)
     let dl := ns * l * s.dev.rowStride n
     let e1 := s.dev.capActive n = true
     let e2 := np = 0 ∨ 512 < np ∨ s.dev.period n = 0 ∨ ∃ v ∈ ps, s.dev.period n ≤ bits v 8 0 ∨ s.dev.used n (bits v 29 26) = false
     let e4 := s.dev.capPost n = 0 ∨ l < 16 ∨ 1048576 < l ∨ ns = 0 ∨ 65536 < ns ∨ (db < hb + 64 * ns ∧ hb < db + dl) ∨
       ∃ x < 4, 4 < bits (s.dev.rd (Reg.CAPT.DEC.CTL.of n [x])) 31 29 ∨ 4 < bits (s.dev.rd (Reg.CAPT.DEC.CTL.of n [x])) 28 26
     let e5 := s.dev.covered n 9 db (db + dl - 1) = false ∨ s.dev.covered n 9 hb (hb + 64 * ns - 1) = false
     let shows := fun (e : Nat) => Runs (.captArm n ph) s (s.dev.wf st 31 28 e)
     (e1 → shows 1) ∧ (¬e1 → e2 → shows 2) ∧ (¬e1 → ¬e2 → twice → shows 3) ∧ (¬e1 → ¬e2 → ¬twice → e4 → shows 4) ∧
     (¬e1 → ¬e2 → ¬twice → ¬e4 → e5 → shows 5) ∧
     (¬e1 → ¬e2 → ¬twice → ¬e4 → ¬e5 → ∃ d : Dev, Runs (.captArm n ph) s d ∧ d.capActive n = true ∧ d.capArmed n = false ∧ d.fd st 31 28 = 0 ∧
       d.fd st 9 8 = 0 ∧ d.rd (Reg.CAPT.RECNO.of n) = 0 ∧ d.rd (Reg.CAPT.CNT.of n [0]) = 0 ∧ d.rd (Reg.CAPT.CNT.of n [1]) = 0 ∧
       d.getCap n none (fun c => c.r0) = none ∧ d.getCap n none (fun c => c.trig) = none ∧
       d.getCap n 0 (fun c => c.closeT) = s.dev.clk + ph.val ∧ ∀ (m a : Nat), d.memByte m a = s.dev.memByte m a)) ∧
    (s.dev.capActive n = false → Runs (.captDisarm n ph) s s.dev) ∧
    (s.dev.capActive n = true → ∃ d : Dev, Runs (.captDisarm n ph) s d ∧ d.capActive n = false ∧ d.capArmed n = false ∧ d.fb st 7 = false ∧
      d.getCap n (s.dev.getCap n none (fun c => c.trig)) (fun c => c.trig) = none ∧
      (s.dev.getCap n none (fun c => c.trig) = none → d.rd (Reg.CAPT.RECNO.of n) = rec_ ∧ d.getCap n [] (fun c => c.queue) = queue) ∧
      ∀ t : CapTrig, s.dev.getCap n none (fun c => c.trig) = some t → d.rd (Reg.CAPT.RECNO.of n) = (rec_ + 1) % 2 ^ 32 ∧
        ∃ i : CapItem, d.getCap n [] (fun c => c.queue) = queue ++ [i] ∧ i.kind = .header ∧ i.num = rec_ ∧ i.flags % 2 = 1 ∧
          i.addr = 64 * s.dev.rd (Reg.CAPT.HBASE.of n) + 64 * (rec_ % max 1 (s.dev.capNseg n)) ∧ i.bytes.length = 64 ∧ i.bytes.getD 6 0 = 1) ∧
    (s.dev.capArmed n = true → Runs (.captForce n) s (s.dev.cap n (fun c => { c with force := true }))) ∧
    (s.dev.capArmed n = false → Runs (.captForce n) s s.dev)) ∧
  (∀ (s : State) (n : Fin 8) (ph : Fin 4) (w : BitVec 16), s.upIn n →
    let queue := s.dev.getCap n [] (fun c => c.queue)
    let rec_ := s.dev.rd (Reg.CAPT.RECNO.of n)
    (w.toNat = 0 ∨ queue = [] →
      (s.dev.getCap n [] (fun c => c.ready) = [] → Runs (.rowEvaluate n ph w) s s.dev) ∧
      (∀ (r : CapRow) (rest : List CapRow), s.dev.getCap n [] (fun c => c.ready) = r :: rest → s.dev.fb (Reg.CAPT.ACTCTL.of n) 31 = false →
        let d := s.dev.cap n (fun c => { c with ready := rest })
        let y := d.decAll n r.units
        let u := y.1.cap n (fun c => { c with
          prev := some r.units
          ext0 := y.1.extActive n 0
          ext1 := y.1.extActive n 1 })
        let room := (queue.foldl (fun a i => if i.kind = .header then a else a + i.bytes.length) 0) + s.dev.rowStride n ≤ 65536
        let pre := s.dev.capPre n
        let slot := rec_ % max 1 (s.dev.capNseg n)
        let item := fun (pos : Nat) => (⟨.row, 64 * s.dev.rd (Reg.CAPT.DBASE.of n) + slot * (pre + s.dev.capPost n) * s.dev.rowStride n +
          pos * s.dev.rowStride n, s.dev.rowBytes n r.units, rec_, slot, 0, false⟩ : CapItem)
        (s.dev.capActive n = false → Runs (.rowEvaluate n ph w) s d) ∧
        (s.dev.capActive n = true → ∀ t : CapTrig, s.dev.getCap n none (fun c => c.trig) = some t →
          (¬room → Runs (.rowEvaluate n ph w) s (((u.capDrop n).capClose n 2 true ph).capDone n)) ∧
          (room →
            let v := u.cap n (fun c => { c with
              queue := c.queue ++ [item (pre + t.postcnt)]
              trig := some { t with
                postcnt := t.postcnt + 1
                metas := t.metas ++ [metaOf r] } })
            (t.postcnt + 1 ≠ s.dev.capPost n → Runs (.rowEvaluate n ph w) s v) ∧
            (t.postcnt + 1 = s.dev.capPost n → Runs (.rowEvaluate n ph w) s ((v.capClose n 0 false ph).capDone n)))) ∧
        (s.dev.capActive n = true → s.dev.getCap n none (fun c => c.trig) = none → room →
          let r0 := s.dev.getCap n r.cycle (fun c => c.r0.getD r.cycle)
          let waits := ∃ t : Dev, Runs (.rowEvaluate n ph w) s t ∧ t.capArmed n = s.dev.capArmed n ∧ t.getCap n [] (fun c => c.ready) = rest ∧
            t.getCap n none (fun c => c.trig) = none ∧
            t.getCap n [] (fun c => c.queue) = (if pre = 0 then queue else queue ++ [item ((r.cycle - r0) % pre)])
          let fires := s.dev.capPost n ≠ 1 → ∃ t : Dev, Runs (.rowEvaluate n ph w) s t ∧ t.capArmed n = false ∧ t.fb (capStat n) 7 = true ∧
            t.getCap n [] (fun c => c.ready) = rest ∧ t.getCap n [] (fun c => c.queue) = queue ++ [item pre] ∧
            t.getCap n 0 (fun c => (c.trig.map (fun x => x.cycle)).getD 0) = r.cycle ∧
            t.getCap n 0 (fun c => (c.trig.map (fun x => x.precnt)).getD 0) = min (r.cycle - r0) pre
          let b := y.1.capBranch n (y.1.capSources n r y.2)
          let act := s.dev.rd (Reg.CAPT.SEQ.ACT.of n [s.dev.fd (capStat n) 9 8, b.getD 0])
          (s.dev.capArmed n = false → waits) ∧
          (s.dev.capArmed n = true → s.dev.getCap n false (fun c => c.force) = true → fires) ∧
          (s.dev.capArmed n = true → s.dev.getCap n false (fun c => c.force) = false → b = none ∨ act.testBit 5 = false → waits) ∧
          (s.dev.capArmed n = true → b.isSome = true → act.testBit 5 = true → fires) ∧
          (s.dev.capArmed n = true → b.isSome = true → s.dev.capPost n ≠ 1 → ∃ t : Dev, Runs (.rowEvaluate n ph w) s t ∧
            t.fd (capStat n) 9 8 = bits act 7 6 ∧ ∀ i < 2, t.rd (Reg.CAPT.CNT.of n [i]) = if act.testBit (2 + i) then 0 else
              if act.testBit i then satAdd 32 (s.dev.rd (Reg.CAPT.CNT.of n [i])) 1 else s.dev.rd (Reg.CAPT.CNT.of n [i]))))) ∧
    (let h := s.dev.rd (Reg.CAPT.HOLDOFF.of n)
     let due := s.dev.capActive n = true ∧ s.dev.capArmed n = false ∧ s.dev.fb (capStat n) 7 = false ∧
       ((h.testBit 31 = true ∧ bits h 25 0 ≤ s.dev.getCap n 0 (fun c => c.holdRows)) ∨
        (h.testBit 31 = false ∧ s.dev.getCap n 0 (fun c => c.closeT) + bits h 25 0 ≤ s.dev.clk + ph.val))
     (¬due → Runs (.sequencerRearm n ph) s s.dev) ∧
     (due → ∃ d : Dev, Runs (.sequencerRearm n ph) s d ∧ d.capArmed n = true ∧ d.capActive n = true ∧ d.fd (capStat n) 9 8 = 0 ∧
       d.rd (Reg.CAPT.CNT.of n [0]) = 0 ∧ d.rd (Reg.CAPT.CNT.of n [1]) = 0 ∧
       d.getCap n 0 (fun c => c.deadNs) = s.dev.clk + ph.val - s.dev.getCap n 0 (fun c => c.closeT))) ∧
    (queue = [] → Runs (.headerWriteDone n) s s.dev ∧ Runs (.captStoreError n ph) s s.dev) ∧
    (∀ (i : CapItem) (rest : List CapItem), queue = i :: rest → s.dev.itemWaits n i = false →
      let x := s.dev.capLines n (chunks 64 (i.bytes.length / 64 + 1) i.bytes).zipIdx i.addr
      (i.kind = .header → x.2 = none → Runs (.headerWriteDone n) s
        ((x.1.cap n (fun c => { c with queue := c.queue.drop 1 })).notice n 0x0401 [i.num, i.slot, i.flags])) ∧
      (i.kind = .header → i.bytes.length = 64 → (∀ b ∈ i.bytes, b < 256) → ∀ j : Nat, s.dev.allow n 16 i.addr 64 true = some j →
        let tr := fun (k : Nat) => (s.dev.region n 16 j (i.addr + k)).getD (i.addr + k)
        ((∀ k < 64, inSpad (tr k) = true) ∨ (∀ k < 64, inHbm (tr k) = true)) → (∀ k < 64, s.dev.reachable n (tr k) = true) →
        s.dev.getSec n [(0, [])] (fun x => x.ctl.dirty) = [] →
        x.2 = none ∧ ∃ t : Dev, Runs (.headerWriteDone n) s t ∧ t.getCap n [] (fun c => c.queue) = rest ∧
          (∀ k < 64, t.memByte n (tr k) = i.bytes.getD k 0) ∧
          ∀ y z : Nat, (inSpad z = true ∨ hbmBase ≤ z) → (y = n.val → ∀ k < 64, z ≠ tr k) → t.memByte y z = s.dev.memByte y z) ∧
      (∀ line : Nat, x.2 = some line →
        Runs (.headerWriteDone n) s s.dev ∧
        (i.kind ≠ .row ∨ s.dev.fb (capStat n) 7 = false → ∃ t : Dev, Runs (.captStoreError n ph) s t ∧ t.capActive n = false ∧
          t.fb (capStat n) 3 = true ∧ t.getCap n [i] (fun c => c.queue) = [] ∧ t.rd (Reg.CAPT.RECNO.of n) = rec_) ∧
        (i.kind = .row → s.dev.fb (capStat n) 7 = true → (s.dev.getCap n none (fun c => c.trig)).isSome = true →
          ∃ (t : Dev) (h : CapItem), Runs (.captStoreError n ph) s t ∧ t.capActive n = false ∧ t.fb (capStat n) 3 = true ∧
            t.getCap n [] (fun c => c.queue) = [h] ∧ h.kind = .header ∧ h.num = rec_ ∧ h.flags % 2 = 1 ∧ h.bytes.getD 6 0 = 4 ∧
            t.rd (Reg.CAPT.RECNO.of n) = (rec_ + 1) % 2 ^ 32))) ∧
    (∀ v : BitVec 32, let l := Reg.CAPT.ACTCTL.of n
      let w := v.toNat &&& 0x9FFFFDFF
      let rej := fun (d : Dev) => d.wb (capStat n) 1 true
      let cnt := bits w 19 10
      let ab := 64 * s.dev.rd (Reg.CAPT.ABASE.of n)
      let bad := bits w 28 24 < 4 ∨ 16 < bits w 28 24 ∨ cnt = 0 ∨ s.dev.nProbe n < bits w 8 0 + cnt ∨
        s.dev.covered n 9 ab (ab + max 1 (s.dev.rd (Reg.CAPT.ANB.of n)) * (64 + 64 * ((48 * cnt + 63) / 64)) - 1) = false
      let stopped := (s.dev.wb l 31 false).cap n (fun c => { c with
        act := none
        actPrev := none })
      (s.dev.fb l 31 = false → w.testBit 31 = false → Runs (.actctlWrite n v) s (s.dev.wr l w)) ∧
      (s.dev.fb l 31 = false → w.testBit 31 = true → bad → Runs (.actctlWrite n v) s (rej s.dev)) ∧
      (s.dev.fb l 31 = false → w.testBit 31 = true → ¬bad → Runs (.actctlWrite n v) s ((s.dev.wr l w).cap n (fun c => { c with
        actSkip := c.ready.length
        act := none
        actPrev := none }))) ∧
      (s.dev.fb l 31 = true → w.testBit 31 = true → Runs (.actctlWrite n v) s (if w = s.dev.rd l then s.dev else rej s.dev)) ∧
      (s.dev.fb l 31 = true → w.testBit 31 = false → Runs (.actctlWrite n v) s (if w = s.dev.rd l % 2 ^ 31 then stopped else rej stopped))))

/-- R140, R292, R304, R305: an edge at a TRG ball that the device does not drive shows in its level, sets the EXT latch of every section whose EXTSEL
selects it with that direction, and is seen by a start that waits for it. At a ball that the device drives, or with the level it has already, only the ball's own
level is kept. R303, R305: when the pulses on bus line x − 16 end, no section drives that line any more, and every other line as before; until then they stay. -/
def Obligations.TriggerEdgeReaches : Prop := ∀ (s : State) (x : Fin 24) (up : Bool), s.up →
  (x.val < 16 → s.dev.trgDriven x = false → s.dev.trgIn x ≠ up →
    ∃ d : Dev, Runs (.trgEdge x up) s d ∧ d.trgIn x = up ∧ d.regs = s.dev.regs ∧ ∀ n < 8,
      (s.dev.fd (Reg.CAPT.EXTSEL.of n) 4 0 = x → s.dev.fb (Reg.CAPT.EXTSEL.of n) 7 ≠ up → d.getCap n false (fun c => c.ext0) = true) ∧
      (s.dev.fd (Reg.CAPT.EXTSEL.of n) 20 16 = x → s.dev.fb (Reg.CAPT.EXTSEL.of n) 23 ≠ up → d.getCap n false (fun c => c.ext1) = true) ∧
      (s.dev.fd (Reg.SCTL.STRIG.of n) 4 0 = x → s.dev.fb (Reg.SCTL.STRIG.of n) 8 ≠ up →
        s.dev.getSec n none (fun y => y.run.armed) = some .onTrigger → d.getSec n false (fun y => y.run.trigSeen) = true) ∧
      d.getSec n [] (fun y => y.mem.acc) = s.dev.getSec n [] (fun y => y.mem.acc)) ∧
  (x.val < 16 → s.dev.trgDriven x = true ∨ s.dev.trgIn x = up →
    Runs (.trgEdge x up) s (s.dev.pin (fun p => { p with trg := Sparse.set (fun _ => false) p.trg x up }))) ∧
  (16 ≤ x.val → up = true → Runs (.trgEdge x up) s s.dev) ∧
  (16 ≤ x.val → up = false → ∃ d : Dev, Runs (.trgEdge x up) s d ∧ d.regs = s.dev.regs ∧ d.pins.trg = s.dev.pins.trg ∧ d.pins.gens = s.dev.pins.gens ∧
    ∀ i < 64, d.pins.xpulse.testBit i = (s.dev.pins.xpulse.testBit i && decide (i % 8 ≠ x.val - 16)))

/-- R312, R314 to R317, R336: a tick. A switch that is due takes effect with it. TIME gains INC, or under the servo NOMINC and DELTA of the domain that TIME
follows and as much of its OFS as SLEWLIM leaves; a LOAD that is due sets TIME to SET in place of that, an ADD adds SET to the value that the tick would give, and
a step of a measurement adds its amount. The OFS of each domain moves by the difference of its own increment and TIME's, and that of the domain TIME does not
follow by the step. The clock of the model moves on by one tick, a switch, LOAD, ADD or step is over, and once the system is ready no memory, word or queue changes.
Choices of the model in it: logs 39 and 89. -/
def Obligations.TickMovesTime : Prop := ∀ s : State, s.up →
  let sel := if s.dev.tim.switchDue then s.dev.fd Reg.TIME.CTL.hubAt 4 4 else s.dev.tim.sel
  let servo := if s.dev.tim.switchDue then s.dev.fb Reg.TIME.CTL.hubAt 0 else s.dev.tim.servo
  let lim : Int := s.dev.rd Reg.TIME.SLEWLIM.hubAt
  let nom : Int := s.dev.rd64 Reg.TIME.NOMINC 8 []
  let delta := fun (i : Nat) => sext 32 (s.dev.rd (domLoc Reg.TIME.D.DELTA i))
  let inc := if servo then toBits 40 (nom + delta sel + max (-lim - delta sel) (min (lim - delta sel) (s.dev.getDom sel).ofs))
    else s.dev.rd64 Reg.TIME.INC 8 []
  let set := s.dev.rd Reg.TIME.SETF.hubAt + s.dev.rd Reg.TIME.SETL.hubAt * 2 ^ 32 + s.dev.rd Reg.TIME.SETH.hubAt * 2 ^ 64
  let ofs := fun (i : Nat) => wrap80 ((s.dev.getDom i).ofs + (toBits 40 (nom + delta i) : Int) - inc)
  (7 ≤ s.dev.stage → s.dev.role = 0 → Runs .timeTick s s.dev.tick) ∧
  ∃ t : Dev, Runs .timeTick s t ∧ t.clk = s.dev.clk + 4 ∧ t.tim.setDue = none ∧ t.tim.stepDue = none ∧ t.tim.switchDue = false ∧
    t.tim.sel = sel ∧ t.tim.servo = servo ∧ t.rd64 Reg.TIME.CURINC 8 [] = inc % 2 ^ 64 ∧
    t.time = (match s.dev.tim.setDue, s.dev.tim.stepDue with
      | some false, _ => TimeVal.ofNum set
      | some true, _ => TimeVal.ofNum ((s.dev.time.num + inc + set) % 2 ^ 96)
      | none, some p => TimeVal.ofNum (toBits 96 ((s.dev.time.num + inc : Nat) + p.2))
      | none, none => TimeVal.ofNum (s.dev.time.num + inc)) ∧
    (∀ i < 2, (t.getDom i).ofs = match s.dev.tim.setDue, s.dev.tim.stepDue with
      | none, some p => if i = 1 - p.1 then wrap80 (ofs i - p.2) else ofs i
      | _, _ => ofs i) ∧
    (7 ≤ s.dev.stage → t.secs.toList.map (fun x => (x.fab, x.mem, x.queues)) = s.dev.secs.toList.map (fun x => (x.fab, x.mem, x.queues)))

/-- R313 to R317, R319, R321, R323: commands of the time engine outside SAFE. LOAD and ADD are due at the next tick; NOWF answers FRAC and
latches NS and WRAP. The high half of D.OFFSET does nothing where the domain's source is OXL, and else submits a measurement at MNS: one that is too old only
counts in DISC; any other shows the difference to OFS in LASTE and ends HOLDOVER, and one above STEPTH unlocks the domain and steps TIME, or OFS where TIME does
not follow it; below, INTEG and DELTA take their parts of it within SLEWLIM and the lock follows LOCKN measurements on one side of LOCKTH. A write of
TIME.CTL that moves DOMSEL or sets MODE asks for a switch, and MODE 0 ends the servo; ALCTL with ARM arms its alarm at TGT, and without it
disarms it; an alarm that a tick found reached fires once, is disarmed and sends ALARM. R318: at the end of the holdover time a domain is in HOLDOVER
and unlocked, and with AUTOSW and the other domain locked TIME follows that one from the next tick; before that nothing happens.
Choices of the model in it: logs 39 and 89. -/
def Obligations.TimeEngineCommands : Prop :=
  (∀ (s : State) (i : Fin 2) (hi v : BitVec 32) (a : Fin 4), s.hubUp →
    Runs .timeLoad s (s.dev.timg (fun t => { t with setDue := some false })) ∧
    Runs .timeAdd s (s.dev.timg (fun t => { t with setDue := some true })) ∧
    Runs .nowfRead s { (s.dev.wr Reg.TIME.NOWL.hubAt s.dev.time.ns).wr Reg.TIME.NOWH.hubAt (s.dev.time.wrap * 2 ^ 16 + s.dev.time.ns / 2 ^ 32) with
      rdata := (toBytes 4 s.dev.time.frac).map (BitVec.ofNat 8)
      rstat := 0 } ∧
    (s.dev.fd (domLoc Reg.TIME.D.CFG i) 31 30 = 1 → Runs (.offsetSubmit i hi) s s.dev) ∧
    (s.dev.fd (domLoc Reg.TIME.D.CFG i) 31 30 ≠ 1 →
      let off := Reg.TIME.D.OFFSET.of 8 [i]
      let cfg := domLoc Reg.TIME.D.CFG i
      let st := domLoc Reg.TIME.D.STAT i
      let cnt := domLoc Reg.TIME.D.CNT i
      let lo := (Sparse.get (fun _ => BitVec.ofNat 32 (s.dev.rd off)) s.dev.staging off.key).toNat
      let tm := s.dev.rd64 Reg.TIME.D.MNS 8 [i] % 2 ^ 48
      let now := s.dev.getDom i
      let old := s.dev.nsDiff tm < -1048576
      let e := wrap80 (sext 64 (hi.toNat * 2 ^ 32 + lo) * 65536 - s.dev.ofsAt i tm)
      let far := s.dev.rd (domLoc Reg.TIME.D.STEPTH i) ≠ 0 ∧ s.dev.rd (domLoc Reg.TIME.D.STEPTH i) * 2 ^ 32 < e.natAbs
      let lim : Int := s.dev.rd Reg.TIME.SLEWLIM.hubAt
      let within := fun (x : Int) => max (-lim) (min lim x)
      let integ := within (sext 32 (s.dev.rd (domLoc Reg.TIME.D.INTEG i)) + e / 2 ^ s.dev.fd cfg 23 18)
      let near := e.natAbs ≤ s.dev.fd (domLoc Reg.TIME.D.LOCK i) 15 0 * 2 ^ 29
      let n := max 1 (s.dev.fd cfg 5 2)
      (0 < s.dev.nsDiff tm → s.dev.ofsAt i tm = now.ofs) ∧
      ∃ t : Dev, Runs (.offsetSubmit i hi) s t ∧ t.rd64 Reg.TIME.D.OFFSET 8 [i] = hi.toNat * 2 ^ 32 + lo ∧
        (old → t.fd cnt 15 0 = min 65535 (s.dev.fd cnt 15 0 + 1) ∧ t.rd st = s.dev.rd st ∧ t.getDom i = now) ∧
        (¬old → t.rd64 Reg.TIME.D.LASTE 8 [i] = bits (toBits 80 e) 79 16 ∧ t.fb st 30 = false ∧ (t.getDom i).lastT = s.dev.clk) ∧
        (¬old → far → t.fb st 31 = false ∧ (t.getDom i).good = 0 ∧ (t.getDom i).bad = 0 ∧
          (s.dev.tim.servo = true → s.dev.tim.sel = i → t.tim.stepDue = some (i.val, e + (match s.dev.tim.stepDue with | some p => p.2 | none => 0))) ∧
          (s.dev.tim.servo = false ∨ s.dev.tim.sel ≠ i → (t.getDom i).ofs = wrap80 (now.ofs + e))) ∧
        (¬old → ¬far → t.rd (domLoc Reg.TIME.D.INTEG i) = toBits 32 integ ∧
          t.rd (domLoc Reg.TIME.D.DELTA i) = toBits 32 (within (integ + e / 2 ^ s.dev.fd cfg 29 24)) ∧
          (near → (t.getDom i).good = now.good + 1 ∧ (t.getDom i).bad = 0 ∧
            t.fb st 31 = (s.dev.fb st 31 || decide (n ≤ now.good + 1))) ∧
          (¬near → (t.getDom i).good = 0 ∧ (t.getDom i).bad = now.bad + 1 ∧
            t.fb st 31 = (s.dev.fb st 31 && decide (now.bad + 1 < n))))) ∧
    (let l := Reg.TIME.CTL.hubAt
     Runs (.domselWrite v) s ((s.dev.wr l (v.toNat &&& 0x111)).timg (fun t => { t with
       switchDue := t.switchDue || ((s.dev.fb l 4 != v.toNat.testBit 4) || (!s.dev.fb l 0 && v.toNat.testBit 0))
       servo := t.servo && v.toNat.testBit 0 }))) ∧
    (let l := Reg.TIME.ALCTL.hubAt [a]
     let t := s.dev.rd64 Reg.TIME.TGT 8 [a] % 2 ^ 48
     (∃ d : Dev, Runs (.alarmArm a v) s d ∧ d.fb l 0 = v.toNat.testBit 0 ∧ d.fb l 1 = (s.dev.fb l 1 && !v.toNat.testBit 1) ∧
       d.fb l 2 = (s.dev.fb l 2 && !v.toNat.testBit 2) ∧
       Sparse.find a.val d.tim.alarms = (if v.toNat.testBit 0 then some ⟨t, decide (s.dev.nsDiff t ≤ 0), false⟩ else none) ∧
       ∀ b : Nat, b ≠ a → Sparse.find b d.tim.alarms = Sparse.find b s.dev.tim.alarms) ∧
     (∀ x : AlarmSt, Sparse.find a.val s.dev.tim.alarms = some x → x.hit = true →
       let d := { ((s.dev.wb l 0 false).wb l 1 true).when x.past (fun d => d.wb l 2 true) with ctl := { s.dev.ctl with event := true } }
       Runs (.compareFire a) s ((d.timg (fun y => { y with alarms := Sparse.drop a y.alarms })).hubNotice 0x0506 [a, b2n x.past])) ∧
     (∀ x ∈ Sparse.find a.val s.dev.tim.alarms, x.hit = false → Runs (.compareFire a) s s.dev) ∧
     (Sparse.find a.val s.dev.tim.alarms = none → Runs (.compareFire a) s s.dev))) ∧
  (∀ (s : State) (i : Fin 2), s.up →
    let t := s.dev.fd (domLoc Reg.TIME.D.LOCK i) 31 16
    let st := domLoc Reg.TIME.D.STAT i
    let due := t ≠ 0 ∧ (s.dev.getDom i).lastT + 1000 * t ≤ s.dev.clk ∧ s.dev.fb st 30 = false
    let away := s.dev.fb Reg.TIME.CTL.hubAt 8 = true ∧ s.dev.tim.sel = i ∧ s.dev.fb (domLoc Reg.TIME.D.STAT (1 - i.val)) 31 = true
    (¬due → Runs (.holdoverTimeout i) s s.dev) ∧
    (due → ∃ d : Dev, Runs (.holdoverTimeout i) s d ∧ d.fb st 30 = true ∧ d.fb st 31 = false ∧ (d.getDom i).good = 0 ∧ (d.getDom i).bad = 0 ∧
      d.time = s.dev.time ∧
      (away → d.fd Reg.TIME.CTL.hubAt 4 4 = 1 - i.val ∧ d.tim.switchDue = true) ∧
      (¬away → d.rd Reg.TIME.CTL.hubAt = s.dev.rd Reg.TIME.CTL.hubAt ∧ d.tim.switchDue = s.dev.tim.switchDue)))

/-- R331 to R335: EN arms an idle generator whose WIDTH and PERIOD are allowed, and is refused with REJ otherwise; a write with EN to an enabled one leaves it
going. A rising edge that is due raises the output, counts, plans the falling edge WIDTH later and the next rising edge unless it was the last, and feeds the pace
inputs that the generator serves; the falling edge lowers it, and DONE follows the last of COUNT pulses. With no edge due nothing happens.
Choices of the model in it: log 39. -/
def Obligations.PulseGenerators : Prop := ∀ (s : State) (g : Fin 8) (v : BitVec 31) (ph : Fin 4),
  let l := Reg.PG.CTL.hubAt [g]
  let st := Reg.PG.STAT.hubAt [g]
  let width := s.dev.rd (Reg.PG.WIDTH.hubAt [g]) * 2 ^ 32
  let period := s.dev.rd (Reg.PG.PERF.hubAt [g]) + s.dev.rd (Reg.PG.PERNS.hubAt [g]) * 2 ^ 32
  let ok := 2 ^ 34 ≤ width ∧ (v.toNat.testBit 30 = true → 2 ^ 35 ≤ period ∧ width < period)
  (s.hubUp →
    (s.dev.fb l 31 = false → ok → Runs (.pulseGenEnable g v) s (((s.dev.lineChange (fun d => d.wr l ((v.toNat + 2 ^ 31) &&& 0xF0FFFF00))).pg g
      (fun _ => { PgSt.start with arming := true })).showPg g)) ∧
    (s.dev.fb l 31 = false → ¬ok → Runs (.pulseGenEnable g v) s ((s.dev.lineChange (fun d => d.wr l (v.toNat &&& 0xF0FFFF00))).wb st 2 true)) ∧
    (s.dev.fb l 31 = true → Runs (.pulseGenEnable g v) s (s.dev.lineChange (fun d => d.wr l ((v.toNat + 2 ^ 31) &&& 0xF0FFFF00))))) ∧
  (s.up →
    let p := s.dev.getPg g
    let now := (s.dev.stampAt ph).num % 2 ^ 80
    let reached := fun (t : Nat) => 0 ≤ sext 80 ((now + 2 ^ 80 - t) % 2 ^ 80)
    let edge := fun (k : Nat) => (s.dev.rd (Reg.PG.STARTF.hubAt [g]) + s.dev.rd (Reg.PG.STARTL.hubAt [g]) * 2 ^ 32 +
      s.dev.fd (Reg.PG.STARTH.hubAt [g]) 15 0 * 2 ^ 64 + k * period) % 2 ^ 80
    let n := s.dev.rd (Reg.PG.COUNT.hubAt [g])
    let next := fun (d : Dev) (k : Option Nat) => d.rd (Reg.PG.NEXT.hubAt [g]) = match k with | some k => edge k / 2 ^ 32 % 2 ^ 32 | none => 0
    let due := ∃ k, p.k = some k ∧ (p.jumped = true ∨ reached (edge k))
    (∀ t, p.fall = some t → reached t → ∃ d : Dev, Runs (.pulseEdge g ph) s d ∧ d.genLevel g = false ∧ (d.getPg g).fall = none ∧ (d.getPg g).k = p.k ∧
      next d p.k ∧ d.fb st 31 = (p.arming || p.k.isSome) ∧
      d.fb st 0 = (s.dev.fb st 0 || (p.k.isNone && s.dev.fb l 30 && decide (n ≠ 0))) ∧ ∀ h < 8, h ≠ g.val → d.genLevel h = s.dev.genLevel h) ∧
    ((∀ t, p.fall = some t → ¬reached t) → ¬due → Runs (.pulseEdge g ph) s s.dev) ∧
    (∀ k, (∀ t, p.fall = some t → ¬reached t) → p.k = some k → p.jumped = true ∨ reached (edge k) →
      let last := s.dev.fb l 30 = false ∨ (n ≠ 0 ∧ n ≤ p.count + 1)
      ∃ d : Dev, Runs (.pulseEdge g ph) s d ∧ d.genLevel g = true ∧ (d.getPg g).k = (if last then none else some (k + 1)) ∧
        (d.getPg g).count = p.count + 1 ∧ (d.getPg g).fall = some (((if p.jumped then now else edge k) + width) % 2 ^ 80) ∧
        next d (d.getPg g).k ∧ d.fb st 31 = true ∧ (∀ h < 8, h ≠ g.val → d.genLevel h = s.dev.genLevel h) ∧
        ∀ m < 8, d.getSec m [] (fun y => y.run.paceDue) = s.dev.getSec m [] (fun y => y.run.paceDue) ++
          (if (s.dev.fb l 31 = true ∧ s.dev.fb l (8 + m) = true ∧
            ∀ h < g.val, ¬(s.dev.fb (Reg.PG.CTL.hubAt [h]) 31 = true ∧ s.dev.fb (Reg.PG.CTL.hubAt [h]) (8 + m) = true)) then [edge k] else [])))

/-- R324 to R330: time stamps and exchanges. The link of a port shows in STAT. On a port that carries frames an event message received is stamped, up to 64 records,
and counted in TSDROP beyond; where firmware runs PTP, one of the port's domain is stamped as it leaves, a Sync of a master-capable port or a Delay_Req alone. The θ of
a slave's completed exchange is submitted to the port's time domain with the stamp of its Sync. A read of TSINFO takes the oldest record. A DREQ
leaves at an interval boundary for a domain whose source is OXL, with none outstanding on its lane; a server answers one with its stamp; the response of the
exchange gives PATH and the measurement, and any other is discarded; after 100 µs without one the miss is counted.
Choices of the model in it: logs 39 and 89. -/
def Obligations.TimeStampsAndExchanges : Prop := ∀ (s : State) (p i : Fin 2) (m : Fin 4) (dn back : BitVec 8) (seq : BitVec 16) (sub : Fin 32)
    (l : Fin 256) (up : Bool), s.up →
  let recs := vget s.dev.tim.stamps p []
  let w := s.dev.ptpWord p
  let sent := (s.dev.getDom i).outst
  let role := fun (d : Dev) (k r : Nat) => d.laneState k = lnACTIVE ∧ d.fd (laneLoc Reg.LANE.CTL k) 26 25 = r ∧
    (d.getBundle (d.bundleKey k)).classes.testBit (4 - r) = true
  let past := fun (d : Dev) => let t := d.reqBoundary i; d.dom i (fun x => { x with reqT := some t })
  Runs (.ethPcsLinkChange p up) s (s.dev.wb (Reg.ETH.STAT.hubAt [p]) 0 up) ∧
  (let push := fun (d : Dev) (dir : Nat) (t : TimeVal) =>
     if 64 ≤ recs.length then d.bump (Reg.ETH.TSDROP.hubAt [p]) else d.timg (fun x => { x with
       stamps := vmod x.stamps p (fun y => y ++ [⟨dir * 2 ^ 30 + m * 2 ^ 24 + dn.toNat * 2 ^ 16 + seq.toNat, t⟩]) })
   let rx := stampOf (s.dev.subTime sub.val) (-(s.dev.rd (Reg.ETH.ILAT.hubAt [p]) : Int))
   let tx := stampOf (s.dev.subTime sub.val) (s.dev.rd (Reg.ETH.ELAT.hubAt [p]) : Int)
   (s.dev.ethUp p = false → Runs (.ptpFrameReceive p (some (m, dn, seq)) sub none) s s.dev) ∧
   Runs (.ptpFrameReceive p none sub none) s s.dev ∧
   (s.dev.ethUp p = true → Runs (.ptpFrameReceive p (some (m, dn, seq)) sub none) s
     ((push s.dev 0 rx).when (bits w 1 0 != 0 && m.val == 0 && dn.toNat == bits w 8 2) (fun d => d.ptp p (fun x => { x with sync := some rx.ns })))) ∧
   (let sends := s.dev.ethUp p = true ∧ bits w 1 0 ≠ 0 ∧ dn.toNat = bits w 8 2 ∧ m.val ≤ 1 ∧ (m.val = 0 → w.testBit 9 = true)
    (sends → Runs (.ptpMessageTransmit p (some (m, dn, seq)) sub) s (push (s.dev.ptp p (fun x => { x with master := m.val == 0 })) 1 tx)) ∧
    (¬sends → Runs (.ptpMessageTransmit p (some (m, dn, seq)) sub) s s.dev))) ∧
  (∀ (theta : BitVec 64) (ns : Nat), let k := bits w 10 10
    s.dev.ethUp p = true → bits w 1 0 ≠ 0 → (s.dev.getPtp p).master = false → (s.dev.getPtp p).sync = some ns → ns < 2 ^ 48 →
    s.dev.fd (domLoc Reg.TIME.D.CFG k) 31 30 ≠ 1 → -1048576 ≤ s.dev.nsDiff ns →
    ∃ t : Dev, Runs (.ptpFrameReceive p none sub (some theta)) s t ∧ t.rd64 Reg.TIME.D.MNS 8 [k] = ns ∧ t.rd64 Reg.TIME.D.OFFSET 8 [k] = theta.toNat ∧
      t.rd64 Reg.TIME.D.LASTE 8 [k] = bits (toBits 80 (wrap80 (sext 64 theta.toNat * 65536 - s.dev.ofsAt k ns))) 79 16 ∧
      t.tim.stamps = s.dev.tim.stamps) ∧
  (s.dev.inSafe = false →
    (recs = [] → Runs (.tsinfoRead p) s { s.dev with
      rdata := (toBytes 4 (s.dev.rd (Reg.ETH.TSINFO.hubAt [p]))).map (BitVec.ofNat 8)
      rstat := 0 }) ∧
    (∀ r rest, recs = r :: rest →
      let d := s.dev.timg (fun x => { x with stamps := vmod x.stamps p (fun y => y.drop 1) })
      Runs (.tsinfoRead p) s { ((((d.wr (Reg.ETH.TSINFO.hubAt [p]) r.info).wr (Reg.ETH.TSF.hubAt [p]) r.time.frac).wr (Reg.ETH.TSL.hubAt [p]) r.time.ns).wr
          (Reg.ETH.TSH.hubAt [p]) (r.time.wrap * 2 ^ 16 + r.time.ns / 2 ^ 32)) with
        rdata := (toBytes 4 (2 ^ 31 + r.info)).map (BitVec.ofNat 8)
        rstat := 0 })) ∧
  (let q := ((s.dev.getDom i).seq + 1) % 2 ^ 16
   let k := 4 * s.dev.fd (domLoc Reg.TIME.D.CFG i) 17 12 + s.dev.fd (domLoc Reg.TIME.D.CFG i) 11 10
   let sends := s.dev.fd (domLoc Reg.TIME.D.CFG i) 31 30 = 1 ∧ role s.dev k 1 ∧ sent = none ∧
     ¬((s.dev.getDom (1 - i.val)).outst ≠ none ∧ s.dev.domLane (1 - i.val) = k) ∧ (s.dev.getDom i).reqT ≠ some (s.dev.reqBoundary i)
   (sends → Runs (.dreqSend i) s (((past s.dev).dom i (fun x => { x with
      seq := q
      outst := some (q, s.dev.time, s.dev.clk) })).lane k (fun x => { x with timOut := x.timOut ++ [2 ^ 236 + q * 2 ^ 220] }))) ∧
   (¬sends → Runs (.dreqSend i) s s.dev)) ∧
  (∀ f rest, (s.dev.getLane l).ctl = f :: rest →
    let d := s.dev.popCtl l
    (bits f.toNat 255 250 ≠ 25 → Runs (.dreqReceive l back) s s.dev ∧ Runs (.drespReceive l back) s s.dev) ∧
    (bits f.toNat 255 250 = 25 → bits f.toNat 239 236 = 1 →
      (¬role d l 2 → Runs (.dreqReceive l back) s d) ∧
      (role d l 2 → Runs (.dreqReceive l back) s (d.lane l (fun x => { x with
        timOut := x.timOut ++ [2 * 2 ^ 236 + bits f.toNat 235 220 * 2 ^ 220 + (d.rxStamp l back.toNat).num * 2 ^ 96] })))) ∧
    (bits f.toNat 255 250 = 25 → bits f.toNat 239 236 = 2 →
      (d.laneDom l = none → Runs (.drespReceive l back) s d) ∧
      (d.laneDom l = some i.val → ∀ q t1 c, (d.getDom i).outst = some (q, t1, c) →
        let mine := q = bits f.toNat 235 220 ∧ s.dev.clk < c + 100000 ∧ role d l 1
        let t4 := d.rxStamp l back.toNat
        let gap := fun (a b : Nat) => sext 96 ((a + 2 ^ 96 - b % 2 ^ 96) % 2 ^ 96)
        let t2 := bits f.toNat 191 96
        let t3 := bits f.toNat 95 0
        let theta := (gap t2 t1.num + gap t3 t4.num) / 2 - sext 32 (s.dev.rd (domLoc Reg.TIME.D.ASYM i)) * 2 ^ 28
        let path := (gap t4.num t1.num - gap t3 t2) / 2 / 2 ^ 29
        (¬mine → Runs (.drespReceive l back) s d) ∧
        (mine → Runs (.drespReceive l back) s ((((past d).dom i (fun x => { x with outst := none })).wr (domLoc Reg.TIME.D.PATH i)
          (toBits 32 path)).measure i (wrap80 theta) t4.ns) ∧
          (-1048576 ≤ s.dev.nsDiff t4.ns → ∃ t : Dev, Runs (.drespReceive l back) s t ∧ t.rd (domLoc Reg.TIME.D.PATH i) = toBits 32 path ∧
            (t.getDom i).outst = none ∧
            t.rd64 Reg.TIME.D.LASTE 8 [i] = bits (toBits 80 (wrap80 (wrap80 theta - s.dev.ofsAt i t4.ns))) 79 16))))) ∧
  (let cn := domLoc Reg.TIME.D.CNT i
   ((∀ q t1 c, sent = some (q, t1, c) → s.dev.clk < c + 100000) → Runs (.dreqTimeout i) s s.dev) ∧
   (∀ q t1 c, sent = some (q, t1, c) → c + 100000 ≤ s.dev.clk →
    let d := ((past s.dev).dom i (fun x => { x with outst := none })).wf cn 31 16 (satAdd 16 (s.dev.fd cn 31 16) 1)
    let noticed := (s.dev.getDom i).missT
    ((∀ t, noticed = some t → t + 1000000 ≤ s.dev.clk) → Runs (.dreqTimeout i) s ((d.hubNotice 0x0508 [i, (s.dev.getDom i).missNew + 1]).dom i
      (fun x => { x with
        missNew := 0
        missT := some s.dev.clk }))) ∧
    (∀ t, noticed = some t → s.dev.clk < t + 1000000 → Runs (.dreqTimeout i) s (d.dom i (fun x => { x with missNew := x.missNew + 1 })))))

/-- R343, R346, R361, R364: training, of a lane that is powered and not in TEST. TRAIN with LORD values that are no permutation sets CFGERR in each lane of the quad,
with illegal taps in this lane, and changes no state; else a lane whose bundle is not up starts in CDR with a fresh link state and CFGERR clear, and every lane of
a bundle that is up goes down and starts so. DISABLE leaves every lane of the bundle DISABLED but one in TEST. A lane moves from CDR to COMMA when its CDR
locks, to FEC at the third comma match in a row, and to CAPS after eight correctable codewords in a row. Each comma missed under lock counts, and the fourth in a row, as 32
uncorrectable codewords do, takes the bundle down. A lane that is not ACTIVE 100 ms after TRAIN fails and under AUTO tries again 10 ms later, where LORD and taps are
legal. Out of these states and before these times nothing happens. Choices of the model in it: logs 27, 62 and 91. -/
def Obligations.LaneTraining : Prop := ∀ (s : State) (l : Fin 256) (w : BitVec 40), s.up →
  let st := laneLoc Reg.LANE.STAT l
  let eq := laneLoc Reg.LANE.EQTX l
  let was := s.dev.laneState l
  let x := s.dev.getLane l
  let lord := ∀ v < 4, ∃ i < 4, s.dev.fd (laneLoc Reg.LANE.EQTX (l.val / 4 * 4 + i)) 29 28 = v
  let taps := s.dev.fd eq 20 16 + s.dev.fd eq 13 8 + s.dev.fd eq 4 0 ≤ 63
  let starts := fun (t : Dev) (m : Nat) => t.laneState m = lnCDR ∧ t.fb (qctl m) 1 = true ∧ t.fb (laneLoc Reg.LANE.STAT m) 2 = false ∧
    (t.getLane m).trainT = some s.dev.clk ∧ (t.getLane m).failT = none ∧ (t.getLane m).replay = [] ∧ (t.getLane m).txSeq = 0 ∧ (t.getLane m).rxSeq = 0
  let others := fun (t : Dev) (ms : List Nat) => ∀ m < 256, m ∉ ms → t.laneState m = s.dev.laneState m
  (s.dev.inSafe = false →
    (s.dev.laneLive l = false ∨ was = lnTEST → Runs (.laneTrain l) s s.dev) ∧
    (s.dev.laneLive l = true → was ≠ lnTEST →
      (¬lord → ∃ t : Dev, Runs (.laneTrain l) s t ∧ others t [] ∧ ∀ i < 4, t.fb (laneLoc Reg.LANE.STAT (l.val / 4 * 4 + i)) 2 = true) ∧
      (lord → ¬taps → Runs (.laneTrain l) s (s.dev.wb st 2 true)) ∧
      (lord → taps → s.dev.bundleActive (s.dev.bundleKey l) = false → ∃ t : Dev, Runs (.laneTrain l) s t ∧ starts t l ∧ others t [l.val]) ∧
      (lord → taps → s.dev.bundleActive (s.dev.bundleKey l) = true → ∃ t : Dev, Runs (.laneTrain l) s t ∧
        (∀ m ∈ s.dev.bundleLanes l, starts t m) ∧ others t (s.dev.bundleLanes l))) ∧
    (∃ t : Dev, Runs (.laneDisable l) s t ∧ t = s.dev.bundleDown l 5 ∧ others t (s.dev.bundleLanes l) ∧
      ∀ m ∈ s.dev.bundleLanes l, t.laneState m = if s.dev.laneState m = lnTEST then lnTEST else lnDISABLED)) ∧
  (was = lnCDR → Runs (.cdrLock l) s (((s.dev.setLaneState l lnCOMMA).wb (qctl l) 1 true).lane l (fun x => { x with commaRun := 0 }))) ∧
  (was ≠ lnCDR → Runs (.cdrLock l) s s.dev) ∧
  (let hit := popCount 40 (w.toNat ^^^ 0xFC0FC0F03F) ≤ 4
   (was ≠ lnCOMMA → Runs (.commaLock l w) s s.dev) ∧
   (was = lnCOMMA → ¬hit → Runs (.commaLock l w) s (s.dev.lane l (fun x => { x with commaRun := 0 }))) ∧
   (was = lnCOMMA → hit → x.commaRun < 2 → Runs (.commaLock l w) s (s.dev.lane l (fun y => { y with commaRun := x.commaRun + 1 }))) ∧
   (was = lnCOMMA → hit → 2 ≤ x.commaRun → Runs (.commaLock l w) s ((s.dev.setLaneState l lnFEC).lane l (fun x => { x with
     commaRun := 0
     goodRun := 0
     badRun := 0
     tail := 0
     prevGood := false }))) ∧
   (was < lnFEC ∨ lnACTIVE < was → Runs (.commaLoss l w) s s.dev) ∧
   (lnFEC ≤ was → was ≤ lnACTIVE →
     let missed := (s.dev.bump (laneLoc Reg.LANE.COMMAMISS l)).lane l (fun x => { x with commaRun := x.commaRun + 1 })
     (hit → Runs (.commaLoss l w) s (s.dev.lane l (fun x => { x with commaRun := 0 }))) ∧
     (¬hit → x.commaRun < 3 → Runs (.commaLoss l w) s missed) ∧
     (¬hit → 3 ≤ x.commaRun → Runs (.commaLoss l w) s (missed.bundleDown l 1)))) ∧
  (was = lnFEC → 8 ≤ x.goodRun → Runs (.fecLock l) s ((s.dev.setLaneState l lnCAPS).lane l (fun x => { x with
    tlv := []
    tlvSent := 0 }))) ∧
  (was ≠ lnFEC ∨ x.goodRun < 8 → Runs (.fecLock l) s s.dev) ∧
  (lnCAPS ≤ was → was ≤ lnACTIVE → 32 ≤ x.badRun → Runs (.fecLoss l) s (s.dev.bundleDown l 2)) ∧
  (was < lnCAPS ∨ lnACTIVE < was ∨ x.badRun < 32 → Runs (.fecLoss l) s s.dev) ∧
  ((∀ t, x.trainT = some t → s.dev.clk < t + 100000000) ∨ was = lnACTIVE → Runs (.trainTimeout l) s s.dev) ∧
  (∀ t, x.trainT = some t → t + 100000000 ≤ s.dev.clk → was ≠ lnACTIVE →
    let d := (s.dev.laneNotice l 0x0603 [was]).lane l (fun x => { x with
      trainT := none
      failT := some s.dev.clk })
    (s.dev.laneAuto l = true → Runs (.trainTimeout l) s d) ∧
    (s.dev.laneAuto l = false → Runs (.trainTimeout l) s ((d.setLaneState l lnDISABLED).lane l (fun x => { x with failT := none })))) ∧
  ((∀ t, x.failT = some t → s.dev.clk < t + 10000000) ∨ s.dev.laneAuto l = false → Runs (.trainRetry l) s s.dev) ∧
  (∀ t, x.failT = some t → t + 10000000 ≤ s.dev.clk → s.dev.laneAuto l = true →
    (lord → taps → ∃ t : Dev, Runs (.trainRetry l) s t ∧ starts t l ∧ others t [l.val]) ∧
    (¬lord ∨ ¬taps → ∃ t : Dev, Runs (.trainRetry l) s t ∧ t.laneState l = lnDISABLED ∧ t.fb st 2 = true ∧ (t.getLane l).trainT = none ∧
      (t.getLane l).failT = none ∧ others t [l.val]))

/-- R340, R361, R364: a bundle goes down. Of its lanes one that is DISABLED or in TEST stays as it is, and one in NEGFAIL but for DISABLE; any other is in CDR
under AUTO, unless DISABLE took it down, and in DISABLED otherwise, its STAT showing the cause in the lane that saw it and 4 in the others. Its down counter counts
unless negotiation had failed, and its sequence numbers, its replay buffer and the bundle's credits and open packets start anew. No lane of another bundle changes its
state. Choices of the model in it: logs 62 and 91. -/
def Obligations.BundleGoesDown : Prop := ∀ (d : Dev) (l cause : Nat), l < 256 → cause < 16 →
  let t := d.bundleDown l cause
  let k := d.bundleKey l
  (∀ m ∈ d.bundleLanes l,
    let was := d.laneState m
    let stays := was = lnDISABLED ∨ was = lnTEST ∨ (was = lnNEGFAIL ∧ cause ≠ 5)
    let on := d.laneAuto m = true ∧ cause ≠ 5
    (stays → t.laneState m = was ∧ t.rd (laneLoc Reg.LANE.DOWN m) = d.rd (laneLoc Reg.LANE.DOWN m)) ∧
    (¬stays → t.laneState m = (if on then lnCDR else lnDISABLED) ∧
      t.fd (laneLoc Reg.LANE.STAT m) 27 24 = (if m = l then cause else 4) ∧
      t.rd (laneLoc Reg.LANE.DOWN m) = (if was = lnNEGFAIL then d.rd (laneLoc Reg.LANE.DOWN m) else satAdd 32 (d.rd (laneLoc Reg.LANE.DOWN m)) 1) ∧
      (t.getLane m).replay = [] ∧ (t.getLane m).txSeq = 0 ∧ (t.getLane m).rxSeq = 0 ∧ (t.getLane m).ctl = [] ∧ (t.getLane m).seqd = [] ∧
      (t.getLane m).trainT = if on then some d.clk else none)) ∧
  (∀ m < 256, m ∉ d.bundleLanes l → t.laneState m = d.laneState m) ∧
  (t.getBundle k).credit = [] ∧ (t.getBundle k).granted = [] ∧ (t.getBundle k).inOpen = [] ∧ (t.getBundle k).inBusy = []

/-- R349, R350, R356, R360 to R363: CTL flits, each taken from the front of the lane's own. IDLE, NAK and LINK flits carry an ACK, which releases the replay buffer up
to the flit it names. A TLV flit's bytes join those of the peer in CAPS; a NAK starts the replay from EXPSEQ where that flit is held; the grants of a LINK flit add to the
credits, and it brings a bundle in CREDIT up when every bound channel of a class in use has its initial grant or the grant is empty. A flit of another type stays. Once
the TLVs of every lane of a bundle in CAPS are read and told, a lane whose peer has another major version, width or lane number fails negotiation with cause 7; where none
does, every lane enters CREDIT with the version agreed, and the classes that both ends list are in use. Choices of the model in it: logs 62 and 91. -/
def Obligations.ControlFlits : Prop :=
  (∀ (s : State) (l : Fin 256) (f : BitVec 256) (rest : List (BitVec 256)), s.up → (s.dev.getLane l).ctl = f :: rest →
    let v := f.toNat
    let x := s.dev.getLane l
    let k := s.dev.bundleKey l
    let is := fun (c : Nat) => bits v 255 250 = 0 ∧ bits v 239 236 = c
    let acked := if v.testBit 235 then match x.replay.findIdx? (fun e => e.1 == bits v 234 225) with
      | some i => x.replay.drop (i + 1)
      | none => x.replay
      else x.replay
    let took := fun (t : Dev) => (t.getLane l).ctl = rest ∧ (t.getLane l).replay = acked
    (¬is 0 → Runs (.idleFlitReceive l) s s.dev) ∧ (¬is 1 → Runs (.linkFlitReceive l) s s.dev) ∧
    (¬is 2 → Runs (.nakReceive l) s s.dev) ∧ (¬is 3 → Runs (.tlvFlitReceive l) s s.dev) ∧
    (is 0 → ∃ t : Dev, Runs (.idleFlitReceive l) s t ∧ took t ∧ t.regs = s.dev.regs) ∧
    (is 3 → ∃ t : Dev, Runs (.tlvFlitReceive l) s t ∧ (t.getLane l).ctl = rest ∧ (t.getLane l).replay = x.replay ∧ t.regs = s.dev.regs ∧
      (t.getLane l).tlv = if s.dev.laneState l = lnCAPS then
        x.tlv ++ (List.range (min 28 (bits v 231 224))).map (fun i => bits v (223 - 8 * i) (216 - 8 * i)) else x.tlv) ∧
    (is 2 → ∃ t : Dev, Runs (.nakReceive l) s t ∧ took t ∧ t.regs = s.dev.regs ∧
      (t.getLane l).again = if (∃ r ∈ acked, r.1 = bits v 9 0) then some (bits v 9 0) else none) ∧
    (is 1 →
      let es := ((List.range 9).map (fun i => bits v (24 * i + 23) (24 * i))).filter (fun e => e.testBit 23)
      let sum := fun (c : Nat) => (es.filter (fun e => bits e 22 17 == c)).foldl (fun a e => a + bits e 11 0) 0
      let had := fun (c : Nat) => (Sparse.find c (s.dev.getBundle k).credit).isSome = true ∨ ∃ e ∈ es, bits e 22 17 = c
      let up := (∀ m ∈ s.dev.bundleLanes l, s.dev.laneState m = lnCREDIT) ∧
        (es = [] ∨ ∀ c ∈ s.dev.boundChans outQueues k, chanUsed (s.dev.getBundle k).classes c = true → had c)
      ∃ t : Dev, Runs (.linkFlitReceive l) s t ∧ took t ∧
        (∀ c : Nat, Sparse.get (fun _ => 0) (t.getBundle k).credit c = Sparse.get (fun _ => 0) (s.dev.getBundle k).credit c + sum c) ∧
        (up → ∀ m ∈ s.dev.bundleLanes l, t.laneState m = lnACTIVE ∧ (t.getLane m).trainT = none) ∧
        (¬up → ∀ m < 256, t.laneState m = s.dev.laneState m))) ∧
  (∀ (s : State) (l : Fin 256) (rtt : BitVec 32), s.up →
    let ls := s.dev.bundleLanes l
    let ctl := fun (m : Nat) => laneLoc Reg.LANE.CTL m
    let st := fun (m : Nat) => laneLoc Reg.LANE.STAT m
    let ready := ∀ m ∈ ls, s.dev.laneState m = lnCAPS ∧ (readTlvs 512 (s.dev.getLane m).tlv).isSome = true ∧
      (s.dev.ownTlvs m).length ≤ (s.dev.getLane m).tlvSent
    let tlv := fun (m t : Nat) => tlvOf ((readTlvs 512 (s.dev.getLane m).tlv).getD []) t
    let val := fun (t i : Nat) => ((tlv l t).getD []).getD i 0
    let agrees := fun (m : Nat) => (∃ r, tlv m 1 = some (1 :: r)) ∧ (∃ c r, tlv m 2 = some (c :: r)) ∧
      ∃ r, tlv m 3 = some (s.dev.fd (ctl m) 24 23 :: s.dev.bundleLane m :: r)
    let own := s.dev.ownClasses l
    let peer := val 2 0
    let minor := min 2 (val 1 1)
    let server := fun (role : Nat) => 2 ≤ minor ∨ role ≠ 3
    (¬ready → Runs (.tlvExchangeDone l rtt) s s.dev) ∧
    (ready → (∃ m ∈ ls, ¬agrees m) → ∃ t : Dev, Runs (.tlvExchangeDone l rtt) s t ∧ t.rd (laneLoc Reg.LANE.RTT l) = rtt.toNat ∧
      (∀ m ∈ ls, ¬agrees m → t.laneState m = lnNEGFAIL ∧ t.fd (st m) 27 24 = 7 ∧ (t.getLane m).trainT = none) ∧
      ∀ m < 256, m ∉ ls ∨ agrees m → t.laneState m = s.dev.laneState m) ∧
    (ready → (∀ m ∈ ls, agrees m) → ∃ t : Dev, Runs (.tlvExchangeDone l rtt) s t ∧ t.rd (laneLoc Reg.LANE.RTT l) = rtt.toNat ∧
      (∀ m ∈ ls, t.laneState m = lnCREDIT ∧ t.fd (st m) 23 16 = 1 ∧ t.fd (st m) 15 8 = minor ∧ (t.getLane m).replay = [] ∧
        (t.getLane m).txSeq = 0 ∧ (t.getLane m).rxSeq = 0) ∧
      (∀ m < 256, m ∉ ls → t.laneState m = s.dev.laneState m) ∧
      (let b := t.getBundle (s.dev.bundleKey l)
       b.credit = [] ∧ b.granted = [] ∧ b.gotLink = false ∧
       (∀ i : Nat, i = 0 ∨ i = 1 ∨ i = 4 → b.classes.testBit i = (own.testBit i && peer.testBit i)) ∧
       b.classes.testBit 5 = (own.testBit 5 && peer.testBit 5 && decide (minor ≠ 0)) ∧
       (b.classes.testBit 2 = true ↔ own.testBit 2 = true ∧ server (s.dev.fd Reg.SYS.CFG.hubAt 31 30) ∧ peer.testBit 3 = true) ∧
       (b.classes.testBit 3 = true ↔ own.testBit 3 = true ∧ peer.testBit 2 = true ∧ server (val 4 0)))))

/-- R344, R346, R347, R359, R360, R368: the end of a frame, of a lane that is in service or looped back in TEST. Its corrected symbols, lost codewords and failed
HOPCRC are counted. From CAPS on the flits of a good frame are accepted, the straddling one only after a good frame: CTL and TIM flits join the lane's own, sequenced ones in
CREDIT and ACTIVE those that come in sequence; a frame that fails its checks, and one whose sequenced flits are all out of sequence, make a NAK due and the lane drop flits
until the expected one comes. 4 µs after a NAK the next one is due, and after sixteen the bundle goes down. R351 to R353, R355, R356: the next sequenced flit of a bundle
is taken from the lane whose turn it is. One of a class not in use, or of a channel with no queue that takes it, is counted in UNMAP; the words of any other join the end of
its channel's queue, and a complete packet of a hub channel that buffer. R353, R361, R367: what a flit slot carries, when no error is injected: nothing in a lane that is off,
IDLE while it trains, then its TLVs; in CREDIT and ACTIVE a due NAK, then TIM, then what is to be replayed, then a LINK flit that is due, then a new flit of the first
channel that may send, kept for replay, then IDLE. Choices of the model in it: logs 62 and 91. -/
def Obligations.FlitsAndFrames : Prop :=
  (∀ (s : State) (l : Fin 256) (f : Fin 64) (area : BitVec 20544) (hop fixed : BitVec 16) (bad : BitVec 4), s.up →
    let x := s.dev.getLane l
    let was := s.dev.laneState l
    let mode := s.dev.fd (laneLoc Reg.LANE.CTL l) 29 28
    let loop := if was = lnTEST ∧ mode ≠ 3 then mode else 0
    let a := if loop = 1 then x.txFrame.getD 0 else area.toNat
    let crcOk := loop = 1 ∨ hopCrc a = hop.toNat
    let lost := popCount 4 bad.toNat
    let good := lost = 0 ∧ crcOk
    let serves := (lnFEC ≤ was ∧ was ≤ lnACTIVE) ∨ loop = 2 ∨ (loop = 1 ∧ x.txFrame.isSome = true)
    let all := frameFlits f x.tail a
    let flits := if f.val % 4 ≠ 0 ∧ x.prevGood = false then all.drop 1 else all
    let link := was = lnCREDIT ∨ was = lnACTIVE
    let listed := flits.filter (fun g => flitChan g == 25 || (flitChan g == 0 && decide (flitCtype g ≤ 3)))
    let seqs := flits.filter (fun g => decide (1 ≤ flitChan g ∧ flitChan g ≤ 37 ∧ flitChan g ≠ 25))
    let run := seqs.foldl (fun (r : List (BitVec 256) × Nat) g => if flitSeq g = r.2 then (r.1 ++ [g], (r.2 + 1) % 1024) else r) ([], x.rxSeq)
    (¬serves → Runs (.frameEndCheck l f area hop fixed bad) s s.dev) ∧
    (serves → ∃ t : Dev, Runs (.frameEndCheck l f area hop fixed bad) s t ∧
      let y := t.getLane l
      t.rd (laneLoc Reg.LANE.FECCE l) = satAdd 32 (s.dev.rd (laneLoc Reg.LANE.FECCE l)) fixed.toNat ∧
      t.rd (laneLoc Reg.LANE.FECUE l) = satAdd 32 (s.dev.rd (laneLoc Reg.LANE.FECUE l)) lost ∧
      t.rd (laneLoc Reg.LANE.CRCERR l) = (if crcOk then s.dev.rd (laneLoc Reg.LANE.CRCERR l) else satAdd 32 (s.dev.rd (laneLoc Reg.LANE.CRCERR l)) 1) ∧
      y.prevGood = decide good ∧ y.tail = frameTail f x.tail a ∧
      (bad = 0 → y.goodRun = x.goodRun + 4 ∧ y.badRun = 0) ∧ (bad = 15 → y.badRun = x.badRun + 4 ∧ y.goodRun = 0) ∧
      (loop = 2 → y.sent = all.getLast?) ∧
      (¬good ∨ was < lnCAPS ∨ lnACTIVE < was → y.ctl = x.ctl ∧ y.seqd = x.seqd ∧ y.rxSeq = x.rxSeq) ∧
      (¬good → link → y.dropping = true ∧ (x.dropping = false → y.nakDue = true)) ∧
      (good → lnCAPS ≤ was → was ≤ lnACTIVE → y.ctl = x.ctl ++ listed) ∧
      (good → link → y.seqd = x.seqd ++ run.1 ∧ y.rxSeq = run.2 ∧
        (run.1 = seqs → seqs ≠ [] → y.dropping = false ∧ y.nakDue = false ∧ y.naks = 0) ∧
        (run.1 = [] → seqs ≠ [] → y.dropping = true ∧ (x.dropping = false → y.nakDue = true)))) ∧
    (let waits := x.dropping = true ∧ x.nakDue = false ∧ x.naks ≠ 0 ∧ x.nakT + 4000 ≤ s.dev.clk
     (¬waits → Runs (.nakResendTimeout l) s s.dev) ∧
     (waits → x.naks < 16 → Runs (.nakResendTimeout l) s (s.dev.lane l (fun x => { x with nakDue := true }))) ∧
     (waits → 16 ≤ x.naks → Runs (.nakResendTimeout l) s (s.dev.bundleDown l 3)))) ∧
  (∀ (s : State) (l : Fin 256), s.up →
    let k := s.dev.bundleKey l
    let n := k / 32
    let b := s.dev.getBundle k
    let x := s.dev.getLane l
    let turn := b.rxTurn % s.dev.width l = s.dev.bundleLane l
    (¬turn ∨ x.seqd = [] → Runs (.packetFlitReceive l) s s.dev) ∧
    (∀ f rest, turn → x.seqd = f :: rest →
      let c := flitChan f
      let v := f.toNat
      let port := isFab c || isStr c
      let queue := s.dev.boundQueue inQueues k c
      let closed := chanUsed b.classes c = false ∨ (port = true ∧ (queue = none ∨ s.dev.runState n = stOFF ∨ s.dev.secondary = true))
      let nw := bits v 237 233
      let eop := v.testBit 239
      let ws := (List.range nw).map (fun i => bits v (12 * i + 11) (12 * i))
      let formed := 1 ≤ nw ∧ nw ≤ (if eop then 16 else 19) ∧ bits v 232 228 = 0 ∧ (eop = false → v.testBit 238 = false) ∧ (eop = true → bits v 195 192 = 0)
      ∃ t : Dev, Runs (.packetFlitReceive l) s t ∧ (t.getLane l).seqd = rest ∧ (t.getLane l).deliv = x.deliv + 1 ∧
        (t.getBundle k).rxTurn = b.rxTurn + 1 ∧
        Sparse.get (fun _ => 0) (t.getBundle k).granted c = Sparse.get (fun _ => 0) b.granted c - nw ∧
        (closed → t.rd (laneLoc Reg.LANE.UNMAP l) = satAdd 32 (s.dev.rd (laneLoc Reg.LANE.UNMAP l)) 1 ∧ t.secs = s.dev.secs) ∧
        (∀ q, ¬closed → port = true → queue = some q → formed →
          let y := s.dev.getQ n q Queue.start id
          ws.length ≤ y.free → y.openLen + ws.length < 1024 → (y.toBanks = false ∨ y.chain = []) →
          t.getQ n q [] (fun y => y.words.map (fun w => (w.data.toNat, w.eop))) = y.words.map (fun w => (w.data.toNat, w.eop)) ++
            ws.zipIdx.map (fun p => (p.1, eop && p.2 + 1 == ws.length))) ∧
        (¬closed → port = false → eop = true → formed → v.testBit 238 = false → b.inBad.contains c = false →
          let all := Sparse.get (fun _ => []) b.inOpen c ++ ws
          bits v 227 196 = crcEnd (all.foldl crcWord crcStart) →
          (t.getBundle k).inPkts = b.inPkts ++ [⟨c, all, bits v 227 196, false, none⟩] ∧
          Sparse.find c (t.getBundle k).inOpen = none))) ∧
  (∀ (s : State) (l : Fin 256) (sub : Fin 32), s.up →
    let k := s.dev.bundleKey l
    let x := s.dev.getLane l
    let st := s.dev.laneState l
    let d := s.dev.cutMore k
    let b := d.getBundle k
    let ack := d.ackBits x
    let link := st = lnCREDIT ∨ st = lnACTIVE
    let idle := mkFlit 0 0 ack
    let sends := fun (f : BitVec 256) (t : Dev) => Runs (.flitTransmit l sub) s t ∧ (t.getLane l).sent = some f
    let gs := d.grants k
    let late := (st = lnCREDIT ∧ b.initGrant = false) ∨ (∃ t, x.waitT = some t ∧ t + 200 ≤ d.clk) ∨ 32 ≤ x.unacked
    let again := x.again.bind (fun e => x.replay.findIdx? (fun r => r.1 == e))
    let size := fun (c : Nat) (w : Option Nat × List Nat × Bool × Bool) => flitSize w.2.1.length (Sparse.get (fun _ => 0) b.credit c) w.2.2.1
    let pick := (d.chanOrder k).find? (fun c => d.mayTransmit c && chanUsed b.classes c && (match d.outWords k c with
      | some w => size c w != 0
      | none => false))
    (st = lnDISABLED ∨ st = lnNEGFAIL → Runs (.flitTransmit l sub) s d) ∧
    ((s.dev.getBundle k).cutting = [] → d = s.dev) ∧
    (x.inject = 0 → s.dev.fd (laneLoc Reg.LANE.INJ l) 31 30 ≠ 3 →
      (lnCDR ≤ st → st < lnCAPS → ∃ t : Dev, sends (mkFlit 0 0 0) t) ∧
      (st = lnCAPS →
        let part := ((s.dev.ownTlvs l).drop x.tlvSent).take 28
        (part = [] → ∃ t : Dev, sends (mkFlit 0 0 0) t) ∧
        (part ≠ [] → ∃ (f : BitVec 256) (t : Dev), sends f t ∧ (t.getLane l).tlvSent = x.tlvSent + part.length ∧ flitChan f = 0 ∧ flitCtype f = 3 ∧
          bits f.toNat 231 224 = part.length ∧ ((∀ v ∈ part, v < 256) → ∀ i < part.length, bits f.toNat (223 - 8 * i) (216 - 8 * i) = part.getD i 0))) ∧
      (link → x.nakDue = true → ∃ t : Dev, sends (mkFlit 0 0 (2 * 2 ^ 236 + ack + x.rxSeq)) t ∧ (t.getLane l).nakDue = false ∧
        (t.getLane l).naks = x.naks + 1 ∧ (t.getLane l).nakT = d.clk ∧ t.rd (laneLoc Reg.LANE.RETRY l) = satAdd 32 (s.dev.rd (laneLoc Reg.LANE.RETRY l)) 1) ∧
      (link → x.nakDue = false → ∀ p r, x.timOut = p :: r →
        ∃ t : Dev, sends (mkFlit 25 0 (if bits p 239 236 = 2 then setBits p 95 0 (d.txStamp l sub.val).num else p)) t ∧ (t.getLane l).timOut = r) ∧
      (link → x.nakDue = false → x.timOut = [] →
        (∀ i, again = some i →
          let f := ((x.replay.map (fun r => r.2))[i]?).getD idle
          (d.mayTransmit (flitChan f) = true → ∃ t : Dev, sends f t ∧ (t.getLane l).again = (x.replay.map (fun r => r.1))[i + 1]? ∧
            (t.getLane l).replay = x.replay) ∧
          (d.mayTransmit (flitChan f) = false → ∃ t : Dev, sends idle t ∧ (t.getLane l).again = x.again)) ∧
        (again = none → late → ∃ t : Dev, sends (mkFlit 0 0 (2 ^ 236 + ack +
            gs.zipIdx.foldl (fun a p => a + (2 ^ 23 + p.1.1 * 2 ^ 17 + p.1.2) * 2 ^ (24 * p.2)) 0)) t ∧ (t.getLane l).unacked = 0 ∧
          (t.getLane l).waitT = none ∧ (t.getBundle k).initGrant = true ∧
          ∀ c : Nat, Sparse.get (fun _ => 0) (t.getBundle k).granted c =
            Sparse.get (fun _ => 0) b.granted c + (gs.filter (fun g => g.1 == c)).foldl (fun a g => a + g.2) 0) ∧
        (again = none → ¬late →
          let may := st = lnACTIVE ∧ b.txTurn % d.width l = d.bundleLane l ∧ x.replay.length < 512
          (¬may ∨ pick = none → ∃ t : Dev, sends idle t ∧ (t.getLane l).replay = x.replay) ∧
          (∀ c w, may → pick = some c → d.outWords k c = some w → isFab c = true ∨ isStr c = true → x.txSeq < 1024 →
            let nw := size c w
            ∃ (f : BitVec 256) (t : Dev), sends f t ∧ flitChan f = c ∧ flitSeq f = x.txSeq ∧ bits f.toNat 237 233 = nw ∧
              f.toNat.testBit 239 = (w.2.2.1 && nw == w.2.1.length) ∧ (∀ i < nw, bits f.toNat (12 * i + 11) (12 * i) = w.2.1.getD i 0 % 4096) ∧
              (t.getLane l).replay = x.replay ++ [(x.txSeq, f)] ∧ (t.getLane l).txSeq = (x.txSeq + 1) % 1024 ∧
              (t.getBundle k).txTurn = b.txTurn + 1 ∧
              Sparse.get (fun _ => 0) (t.getBundle k).credit c = Sparse.get (fun _ => 0) b.credit c - nw)))))

/-- R342, R364, R366 to R369, R393, R509: equaliser and test registers. EQTX, EQRX and QCTL are taken while the quad is DISABLED and refused with REJ otherwise, but
KEEP is always taken. TEST or LOOP takes a lane to TEST, its bundle down first; with neither left it goes to DISABLED, or under AUTO back to CDR where LORD and taps
are legal. In TEST a slot carries the next 256 bits of the PRBS where TEST and GEN are set, IDLE in near-end loopback, and with neither nothing of the lane's own. GO
has one bit or a burst inverted in modes 1 and 2: the first of the bits sent next. An eye scan runs from COMMA on and shows its count when it is done. A lost PLL shows in QCTL
and takes down the lanes in service. The checker is seeded by its first bits and then counts bits, and those that differ from the PRBS, as errors; 64 in a row without one lock it,
and before that an error seeds it anew. Choices of the model in it: log 90. -/
def Obligations.LaneTests : Prop := ∀ (s : State) (l : Fin 256) (q : Fin 64) (v : BitVec 32) (count : BitVec 64), s.up →
  let st := laneLoc Reg.LANE.STAT l
  let es := laneLoc Reg.LANE.ESCTL l
  let inj := laneLoc Reg.LANE.INJ l
  let ctl := laneLoc Reg.LANE.CTL l
  let prbs := laneLoc Reg.LANE.PRBSCTL l
  let eq := laneLoc Reg.LANE.EQTX l
  let was := s.dev.laneState l
  let x := s.dev.getLane l
  let lord := ∀ v < 4, ∃ i < 4, s.dev.fd (laneLoc Reg.LANE.EQTX (l.val / 4 * 4 + i)) 29 28 = v
  let legal := lord ∧ s.dev.fd eq 20 16 + s.dev.fd eq 13 8 + s.dev.fd eq 4 0 ≤ 63
  let others := fun (t : Dev) => ∀ m < 256, m ∉ s.dev.bundleLanes l → m ≠ l.val → t.laneState m = s.dev.laneState m
  (s.dev.inSafe = false →
    (s.dev.quadOff l = true → Runs (.laneEqWrite l 0 v) s (s.dev.wr eq (v.toNat &&& 0xB01F3F1F)) ∧
      Runs (.laneEqWrite l 1 v) s (s.dev.wr (laneLoc Reg.LANE.EQRX l) (v.toNat &&& 0x8FFFFFC0)) ∧
      Runs (.laneEqWrite l 2 v) s ((s.dev.wb (qctl l) 31 (v.toNat.testBit 31)).wb (qctl l) 0 (v.toNat.testBit 0))) ∧
    (s.dev.quadOff l = false →
      (∀ w : Fin 3, w.val ≠ 2 → Runs (.laneEqWrite l w v) s (s.dev.wb st 1 true)) ∧
      ∃ t : Dev, Runs (.laneEqWrite l 2 v) s t ∧ t.fb (qctl l) 31 = v.toNat.testBit 31 ∧ t.fb (qctl l) 0 = s.dev.fb (qctl l) 0 ∧
        t.fb st 1 = (s.dev.fb st 1 || s.dev.fb (qctl l) 0 != v.toNat.testBit 0)) ∧
    (∀ c : Instr, c = .laneTest l true ∨ c = .laneLoop l 1 ∨ c = .laneLoop l 2 → ∃ t : Dev, Runs c s t ∧ t.laneState l = lnTEST ∧ others t ∧
      (c = .laneTest l true → t.fb ctl 27 = true ∧ t.fd ctl 29 28 = s.dev.fd ctl 29 28) ∧
      (∀ m : Fin 4, c = .laneLoop l m → t.fd ctl 29 28 = m ∧ t.fb ctl 27 = s.dev.fb ctl 27) ∧
      (was = lnTEST → t.getLane l = x) ∧
      (was ≠ lnTEST → (t.getLane l).prbsGen = 0 ∧ (t.getLane l).prbsSeen = 0 ∧ (t.getLane l).txFrame = none ∧ (t.getLane l).trainT = none)) ∧
    (∀ c : Instr, c = .laneTest l false ∨ c = .laneLoop l 0 ∨ c = .laneLoop l 3 →
      let left := was = lnTEST ∧ (c = .laneTest l false → s.dev.fd ctl 29 28 = 0 ∨ s.dev.fd ctl 29 28 = 3) ∧ (c ≠ .laneTest l false → s.dev.fb ctl 27 = false)
      ∃ t : Dev, Runs c s t ∧ (c = .laneTest l false → t.fb ctl 27 = false) ∧ (∀ m : Fin 4, c = .laneLoop l m → t.fd ctl 29 28 = m) ∧
        (∀ m < 256, m ≠ l.val → t.laneState m = s.dev.laneState m) ∧
        t.laneState l = (if left then if s.dev.laneAuto l = true ∧ legal then lnCDR else lnDISABLED else was) ∧
        (left → t.fb st 0 = false)) ∧
    (s.dev.fd inj 31 30 = 1 → Runs (.injectGo l) s (s.dev.lane l (fun x => { x with inject := 1 }))) ∧
    (s.dev.fd inj 31 30 = 2 → Runs (.injectGo l) s (s.dev.lane l (fun x => { x with inject := max 1 (s.dev.fd inj 15 8) }))) ∧
    (s.dev.fd inj 31 30 = 0 ∨ s.dev.fd inj 31 30 = 3 → Runs (.injectGo l) s s.dev) ∧
    (s.dev.fb es 30 = false → lnCOMMA ≤ was → Runs (.eyeScanStart l) s (s.dev.wb es 30 true)) ∧
    (s.dev.fb es 30 = true ∨ was < lnCOMMA → Runs (.eyeScanStart l) s s.dev)) ∧
  (s.dev.fb es 30 = true → Runs (.eyeScanDone l count) s (((s.dev.wb es 30 false).wb es 29 true).wr64 Reg.LANE.ESERR 8 [l.val / 4, l.val % 4] count.toNat)) ∧
  (s.dev.fb es 30 = false → Runs (.eyeScanDone l count) s s.dev) ∧
  (let off := fun (m : Nat) => s.dev.laneState m = lnDISABLED ∨ s.dev.laneState m = lnTEST
   ∃ t : Dev, Runs (.lanePllUnlock q) s t ∧ t.fb (Reg.LANE.QCTL.hubAt [q]) 1 = false ∧
     (∀ i < 4, off (4 * q.val + i) → t.laneState (4 * q.val + i) = s.dev.laneState (4 * q.val + i)) ∧
     (∀ i < 4, ¬off (4 * q.val + i) → s.dev.laneState (4 * q.val + i) ≠ lnNEGFAIL → 4 * q.val + i ∈ s.dev.bundleLanes (4 * q.val + i) →
       t.laneState (4 * q.val + i) = if s.dev.laneAuto (4 * q.val + i) then lnCDR else lnDISABLED) ∧
     ((∀ i < 4, off (4 * q.val + i)) → t = (s.dev.wb (Reg.LANE.QCTL.hubAt [q]) 1 false).selfDetected 0x21)) ∧
  (∀ sub : Fin 32, was = lnTEST → s.dev.fd inj 31 30 ≠ 3 → (s.dev.getBundle (s.dev.bundleKey l)).cutting = [] →
    let p := prbsPoly (s.dev.fd prbs 2 0)
    let mode := s.dev.fd ctl 29 28
    let flip := BitVec.ofNat 256 (2 ^ 256 - 2 ^ (256 - min 256 x.inject))
    let sends := fun (f : BitVec 256) (t : Dev) => Runs (.flitTransmit l sub) s t ∧ (t.getLane l).sent = some (f ^^^ flip) ∧
      (t.getLane l).inject = x.inject - 256
    let bit := fun (f : BitVec 256) (r i : Nat) => if i < p.1 then r.testBit (p.1 - 1 - i) else f.toNat.testBit (255 - (i - p.1))
    (s.dev.fb ctl 27 = true → s.dev.fb prbs 31 = false → Runs (.flitTransmit l sub) s s.dev) ∧
    (s.dev.fb ctl 27 = true → s.dev.fb prbs 31 = true → ∃ (f : BitVec 256) (t : Dev) (r : Nat), sends f t ∧ 0 < r ∧ r < 2 ^ p.1 ∧
      (x.prbsGen % 2 ^ p.1 ≠ 0 → r = x.prbsGen % 2 ^ p.1) ∧
      ∀ i < 256, bit f r (i + p.1) = (bit f r i != bit f r (i + p.1 - p.2))) ∧
    (s.dev.fb ctl 27 = false → mode = 1 → ∃ t : Dev, sends (mkFlit 0 0 0) t) ∧
    (s.dev.fb ctl 27 = false → mode ≠ 1 → Runs (.flitTransmit l sub) s s.dev)) ∧
  (let p := prbsPoly (s.dev.fd prbs 2 0)
   let bits64 := fun (d : Dev) => d.rd64 Reg.LANE.PRBSBITS 8 [l.val / 4, l.val % 4]
   let errs := fun (d : Dev) => d.rd (laneLoc Reg.LANE.PRBSERR l)
   (∀ bs : List Bool, was ≠ lnTEST ∨ s.dev.fb prbs 30 = false → Runs (.prbsCheckerLock l bs) s s.dev) ∧
   (was = lnTEST → s.dev.fb prbs 30 = true →
    (∀ b : Bool, ∃ t : Dev, Runs (.prbsCheckerLock l [b]) s t ∧
      let y := t.getLane l
      let next := x.prbsReg.testBit (p.1 - 1) != x.prbsReg.testBit (p.2 - 1)
      let seeding := x.prbsSeen < p.1
      (seeding → y.prbsSeen = x.prbsSeen + 1 ∧ y.prbsReg = (2 * x.prbsReg + b2n b) % 2 ^ p.1 ∧ t.fb st 0 = s.dev.fb st 0 ∧ bits64 t = bits64 s.dev ∧ errs t = errs s.dev) ∧
      (¬seeding → bits64 t = satAdd 64 (bits64 s.dev) 1 ∧ errs t = (if b = next then errs s.dev else satAdd 32 (errs s.dev) 1) ∧
        (b = next → y.prbsLen = x.prbsLen + 1 ∧ y.prbsReg = (2 * x.prbsReg + b2n b) % 2 ^ p.1 ∧ t.fb st 0 = (s.dev.fb st 0 || decide (64 ≤ x.prbsLen + 1))) ∧
        (b ≠ next → y.prbsLen = 0 ∧ t.fb st 0 = s.dev.fb st 0 ∧
          (s.dev.fb st 0 = false → y.prbsSeen = 1) ∧ (s.dev.fb st 0 = true → y.prbsReg = (2 * x.prbsReg + b2n next) % 2 ^ p.1)))) ∧
    (∀ bs : List Bool, s.dev.fb st 0 = true → p.1 ≤ x.prbsSeen → ∃ t : Dev, Runs (.prbsCheckerLock l bs) s t ∧ t.fb st 0 = true ∧
      bits64 t = satAdd 64 (bits64 s.dev) bs.length ∧
      errs t = satAdd 32 (errs s.dev) (bs.zipIdx.filter (fun e => e.1 != (prbsRun p bs.length x.prbsReg).2.testBit (bs.length - 1 - e.2))).length)))

/-- R373, R375 to R380, R400: neighbours, census and registration. Each command takes the packet of its type at the front of its service channel; with none there, or
another type, nothing happens. A NEIGHBOUR packet is kept for its bundle. A worker without a parent adopts the bundle of the first CENSUS, which gives its depth, the source
of its domain A and its own TIM role, and sends the census on with one depth more, up to seven; within 1 ms it changes to a better bundle; one of another manager
only sends the conflict notice. The manager enters a node's REGISTER and its route, and sends NODE_JOIN for one that was lost or comes late; a second serial number under
a node's number is a conflict. It sends its CENSUS every 100 ms once ready, tells of missing nodes 2.0 s after release, and of a node lost for 100 ms. R376,
R381, R400, R420, R421: service packets between devices. A worker refuses a COMMAND with its error in a RESPONSE, or carries it out and answers so; it sends what is
for another node on with one hop more, up to eight, by its routes or to its parent, and drops and counts the rest. A RESPONSE takes its node from those a relayed command waits
for, and the last one completes it; a NOTICE enters the manager's ring with RELAYED and the source node. Choices of the model in it: logs 54 and 93. -/
def Obligations.SystemsOfDevices : Prop := ∀ (s : State) (k : Fin 256), s.up →
  let pkts := (s.dev.getBundle k).inPkts
  let first := fun (chan : Nat) => pkts.find? (fun x => x.chan == chan)
  let own := s.dev.nodeNo
  let role := s.dev.role
  let sys := s.dev.sys
  let comes := fun (type : Nat) (p : LinkPkt) => first (26 + svcVc type) = some p ∧ p.poison = false ∧ 4 ≤ p.words.length ∧ p.words.getD 3 0 = type ∧
    (svcVc type < 2 → p.words.getD 0 0 / 32 = own)
  let taken := fun (p : LinkPkt) => s.dev.bundle k (fun b => { b with inPkts := b.inPkts.erase p })
  let serial := fun (p : LinkPkt) => ofWords12 ((p.words.drop 4).take 6)
  let sent := fun (t : Dev) (o chan : Nat) (ws : List Nat) => ∃ x ∈ (t.getBundle o).outPkts, x.chan = chan ∧ x.words = ws ∧ x.poison = false ∧
    x.tally = crcEnd (ws.foldl crcWord crcStart)
  (first 26 = none → Runs (.commandReceive k) s s.dev ∧ Runs (.svcForward k 0) s s.dev) ∧
  (first 27 = none → Runs (.registerReceive k) s s.dev ∧ Runs (.responseReceive k) s s.dev ∧ Runs (.noticeReceive k) s s.dev ∧
    Runs (.svcForward k 1) s s.dev) ∧
  (first 28 = none → Runs (.neighbourReceive k) s s.dev ∧ Runs (.censusReceive k) s s.dev) ∧
  (∀ p : LinkPkt, comes 1 p →
    let w := fun (i : Nat) => p.words.getD i 0
    Runs (.censusReceive k) s s.dev ∧
    Runs (.neighbourReceive k) s ((taken p).sysg (fun x => { x with
      neigh := Sparse.put k.val ⟨serial p, bits (w 10) 11 10, bits (w 10) 6 0, bits (w 11) 11 8, (w 11).testBit 7⟩ x.neigh }))) ∧
  (∀ p : LinkPkt, comes 2 p →
    let mgr := serial p
    let depth := bits (p.words.getD 10 0) 2 0
    let seq := p.words.getD 11 0 % 4096
    let z := s.dev.lane0 k
    let rank := fun (j : Nat) => s.dev.lane0 j / 4 * 4 + s.dev.lane0 j % 4
    let follows := role = 2 ∧ ∀ m, sys.manager = some m → m = mgr
    let onward := fun (t : Dev) => depth < 7 → ∀ j ∈ s.dev.svcBundles, j ≠ k.val →
      sent t j 28 ([0x7F * 32, own * 32, 0, 2] ++ (words12 6 mgr ++ [depth + 1, seq]))
    let adopts := fun (fresh : Bool) => ∃ t : Dev, Runs (.censusReceive k) s t ∧ t.sys.parent = some k.val ∧ t.sys.manager = some mgr ∧
      t.sys.parentDepth = depth ∧ t.sys.seen = seq ∧ t.sys.parentT = (if fresh then s.dev.clk else sys.parentT) ∧
      t.rd Reg.SYS.PARENT.hubAt = 2 ^ 31 + z / 4 * 2 ^ 8 + z % 4 ∧ t.fd Reg.SYS.STAT.hubAt 19 16 = depth + 1 ∧
      (s.dev.secondary = false → t.fd (domLoc Reg.TIME.D.CFG 0) 31 30 = 1 ∧ t.fd (domLoc Reg.TIME.D.CFG 0) 17 12 = z / 4 ∧
        t.fd (domLoc Reg.TIME.D.CFG 0) 11 10 = z % 4) ∧
      (7 ≤ depth ∨ (∀ j ∈ s.dev.svcBundles, j ≠ k.val → z ∉ s.dev.bundleLanes (s.dev.lane0 j)) → t.fd (laneLoc Reg.LANE.CTL z) 26 25 = 1) ∧ onward t
    Runs (.neighbourReceive k) s s.dev ∧
    (role ≠ 2 → Runs (.censusReceive k) s (taken p)) ∧
    (∀ m, role = 2 → sys.manager = some m → m ≠ mgr → Runs (.censusReceive k) s ((taken p).hubNotice 0x0705 [own, m, mgr])) ∧
    (follows → sys.parent = none → adopts true) ∧
    (∀ j, follows → sys.parent = some j →
      let better := j ≠ k.val ∧ s.dev.clk ≤ sys.parentT + 1000000 ∧ (depth < sys.parentDepth ∨ (depth = sys.parentDepth ∧ rank k < rank j))
      (better → adopts false) ∧
      (j = k.val → sys.seen ≠ seq → depth < 7 → ∃ t : Dev, Runs (.censusReceive k) s t ∧ t.sys.seen = seq ∧ t.sys.parent = some j ∧ onward t) ∧
      (¬better → j ≠ k.val ∨ sys.seen = seq ∨ 7 ≤ depth → Runs (.censusReceive k) s (taken p)))) ∧
  (∀ p : LinkPkt, comes 3 p →
    let w10 := p.words.getD 10 0
    let n := bits w10 6 0
    let x : Node := ⟨serial p, w10.testBit 11, w10.testBit 10, bits w10 9 7, bits (p.words.getD 11 0) 11 8, k, false⟩
    let entered := fun (t : Dev) => Sparse.find n t.sys.registry = some x ∧ Sparse.find n t.sys.routes = some k.val ∧
      t.fd Reg.SYS.STAT.hubAt 6 0 = (t.sys.registry.filter (fun e => !e.2.lost)).length % 128 ∧
      ∀ m : Nat, m ≠ n → Sparse.find m t.sys.registry = Sparse.find m sys.registry
    (role ≠ 1 → Runs (.registerReceive k) s s.dev) ∧
    (∀ o, role = 1 → Sparse.find n sys.registry = some o → o.serial ≠ x.serial →
      Runs (.registerReceive k) s ((taken p).hubNotice 0x0705 [n, o.serial, x.serial])) ∧
    (role = 1 → (∀ o, Sparse.find n sys.registry = some o → o.serial = x.serial) →
      let t := (taken p).sysg (fun y => { y with
        registry := Sparse.put n x y.registry
        routes := Sparse.put n k.val y.routes
        lostNodes := if (Sparse.find n sys.registry).isSome then Sparse.drop n y.lostNodes else y.lostNodes })
      let late := match Sparse.find n sys.registry with | some o => o.lost | none => sys.partialSent || sys.readySent
      Runs (.registerReceive k) s (if late then t.showCount.hubNotice 0x0704 [n] else t.showCount) ∧
      ∃ u : Dev, Runs (.registerReceive k) s u ∧ entered u)) ∧
  (let due := role = 1 ∧ sys.readySent = true ∧ sys.censusT + 100000000 ≤ s.dev.clk
   (¬due → Runs .censusTimer s s.dev) ∧
   (due → ∃ t : Dev, Runs .censusTimer s t ∧ t.sys.censusT = s.dev.clk ∧ t.sys.censusSeq = (sys.censusSeq + 1) % 4096 ∧ ∀ j ∈ s.dev.svcBundles,
     sent t j 28 ([0x7F * 32, own * 32, 0, 2] ++ (words12 6 s.dev.serialNo ++ [0, sys.censusSeq % 4096])))) ∧
  (let due := role = 1 ∧ sys.readySent = false ∧ sys.partialSent = false ∧ s.dev.boot.releaseT + 2000000000 ≤ s.dev.clk
   let gone := ((List.range (s.dev.fd Reg.SYS.CFG.hubAt 6 0)).map (· + 1)).filter (fun n => decide (∀ x, Sparse.find n sys.registry = some x → x.lock = false ∨ x.lost = true))
   let m := ofOnes gone
   (¬due → Runs .systemDeadline s s.dev) ∧
   (due → Runs .systemDeadline s (((s.dev.sysg (fun x => { x with partialSent := true })).wf Reg.SYS.STAT.hubAt 31 28 8).hubNotice 0x0702
     [m % 2 ^ 64, m / 2 ^ 64]))) ∧
  (∀ node : Fin 128,
    let due := fun (x : Node) => role = 1 ∧ x.lost = false ∧ (∀ t, Sparse.find node.val sys.lostNodes = some t → t + 100000000 ≤ s.dev.clk) ∧
      (Sparse.find node.val sys.lostNodes = none → x.depth ≠ 0)
    (Sparse.find node.val sys.registry = none → Runs (.nodeLostTimeout node) s s.dev) ∧
    (∀ x, Sparse.find node.val sys.registry = some x →
      let t := ((s.dev.sysg (fun y => { y with
        registry := Sparse.put node.val { x with lost := true } y.registry
        routes := Sparse.drop node.val y.routes
        lostNodes := Sparse.drop node.val y.lostNodes })).showCount).hubNotice 0x0703 [node]
      (¬due x → Runs (.nodeLostTimeout node) s s.dev) ∧
      (due x → (∀ r ∈ sys.relays, node.val ∉ r.left) → Runs (.nodeLostTimeout node) s t) ∧
      (due x → ∃ u : Dev, Runs (.nodeLostTimeout node) s u ∧ Sparse.find node.val u.sys.registry = some { x with lost := true } ∧
        Sparse.find node.val u.sys.routes = none ∧ Sparse.find node.val u.sys.lostNodes = none))) ∧
  (∀ p : LinkPkt, comes 4 p →
    let src := p.words.getD 1 0 / 32
    let tag := p.words.getD 4 0
    let c := parseCmd ((p.words.drop 5).map (fun w => w % 256))
    let e := ((taken p).wb (Reg.HQ.CTL.hubAt [0]) 1 true).cmdErr 0 c
    let answers := fun (t : Dev) (st : Nat) => ∀ o, sys.parent = some o →
      sent t o 27 ([src * 32, own * 32, 0, 5] ++ (tag :: ([0, 0] ++ toBytes 2 c.cid ++ toBytes 2 st ++ [0, 0] ++ List.replicate 56 0)))
    (role ≠ 2 → Runs (.commandReceive k) s s.dev) ∧
    (role = 2 → e ≠ 0 → ∃ t : Dev, Runs (.commandReceive k) s t ∧ answers t e ∧ t.regs = s.dev.regs ∧ t.secs = s.dev.secs) ∧
    (role = 2 → e = 0 → c.opc = ocLOAD ∨ c.opc = ocATTEST → ∃ t : Dev, Runs (.commandReceive k) s t ∧ answers t scBUFFER ∧ t.regs = s.dev.regs ∧
      t.secs = s.dev.secs) ∧
    (role = 2 → e = 0 → c.opc ≠ ocLOAD → c.opc ≠ ocATTEST → c.opc ≠ ocOPEN →
      let r := (taken p).shortCmd 0 c 0 (.node src tag c.cid)
      Runs (.commandReceive k) s (match r.2.1 with | some st => r.1.respondTo src tag c.cid st r.2.2 | none => r.1)) ∧
    (role = 2 → e = 0 → c.opc = ocQRESET → s.dev.sectionOn c.sect = false → ∃ t : Dev, Runs (.commandReceive k) s t ∧ answers t 0 ∧ t.secs = s.dev.secs)) ∧
  (∀ p : LinkPkt, comes 5 p →
    let src := p.words.getD 1 0 / 32
    let tag := p.words.getD 4 0
    let st := p.words.getD 9 0 % 256 + 256 * (p.words.getD 10 0 % 256)
    (role ≠ 1 → Runs (.responseReceive k) s s.dev) ∧
    (role = 1 → (∀ r ∈ sys.relays, r.tag = tag → ∃ x ∈ r.left, x ≠ src) →
      Runs (.responseReceive k) s ((taken p).sysg (fun y => { y with
        relays := y.relays.map (fun r => if r.tag = tag ∧ src ∈ r.left then { r with
          left := r.left.filter (fun x => x != src)
          done := if st = 0 then r.done ++ [src] else r.done
          bad := if st ≠ 0 && r.bad.isNone then some (src, st) else r.bad } else r) }))) ∧
    (∀ r f cid, role = 1 → sys.relays = [r] → r.tag = tag → r.left = [src] → r.asker = some (f, cid) → r.start = none → r.registry = none → r.bad = none →
      let done := (taken p).sysg (fun y => { y with relays := [] })
      Runs (.responseReceive k) s (if st = 0 then done.finishLong f cid 0 [] else done.finishLong f cid scNODE ([src, 0] ++ toBytes 2 st)))) ∧
  (∀ p : LinkPkt, comes 6 p →
    let e := (p.words.drop 4).map (fun w => w % 256)
    let v := fun (i n : Nat) => ofBytes ((e.drop i).take n)
    (role ≠ 1 → Runs (.noticeReceive k) s s.dev) ∧
    (role = 1 → Runs (.noticeReceive k) s ((taken p).sendTo 0 ⟨v 2 2, v 4 2, v 8 8, (List.range 6).map (fun i => v (16 + 8 * i) 8),
      128 + p.words.getD 1 0 / 32 % 128⟩))) ∧
  (∀ (vc : Fin 4) (p : LinkPkt), first (26 + vc.val) = some p → svcUnusable (26 + vc.val) p = false →
    let w := fun (i : Nat) => p.words.getD i 0
    let mine := role ≠ 2 ∨ 2 ≤ vc.val ∨ w 0 / 32 = own
    let hops := bits (w 2) 11 8 + 1
    let way := if vc.val = 0 then Sparse.find (w 0 / 32) sys.routes else sys.parent
    (mine → Runs (.svcForward k vc) s s.dev) ∧
    (¬mine → (vc.val = 1 → w 3 = 3 → ∃ t : Dev, Runs (.svcForward k vc) s t ∧ Sparse.find (bits (w 10) 6 0) t.sys.routes = some k.val) ∧
      (∀ o, way = some o → hops ≤ 8 → ∃ t : Dev, Runs (.svcForward k vc) s t ∧ t.regs = s.dev.regs ∧
        sent t o (26 + vc.val) (p.words.set 2 (setBits (w 2) 11 8 hops)) ∧ (t.getBundle k).inPkts = pkts.erase p) ∧
      (way = none ∨ 8 < hops → ∃ t : Dev, Runs (.svcForward k vc) s t ∧
        t.rd Reg.SYS.FWDDROP.hubAt = satAdd 32 (s.dev.rd Reg.SYS.FWDDROP.hubAt) 1)))

/-- R382, R383, R392, R395, R403: pairing and heartbeats. A message is taken from the front of the MIR bundle's channel; with none there, or another type, nothing
happens. PAIR of the other twin pairs a twin that is pairing, and MIR lane 0 carries TIM from the primary to the secondary's domain A; if both want one role they
stay unpaired. PAIR goes out again until then, and 20 ms without the bundle end the attempt. A twin that has paired sends its heartbeat, a paired primary its reports with it; one that
arrives ends a run of misses, and UNPAIRED in it leaves the primary alone; each interval without one counts, and the fifth in a row in a pair leaves the primary alone, or makes
the secondary take over. R384 to R387, R391, R401, R402: messages and the mirror. A digest of the pair is kept until the other twin's is there, and the two are
compared; a forwarded command is carried out by the secondary, which answers RUNACK with its error; RUNACK completes the oldest command forwarded for its leader; LOADCHK
is kept. In a secondary mirrored packets enter their queues, call returns wait for their calls or complete them, mailbox packets enter queue 63, pin samples wait
for their step, and a report lets the queues take what the primary has disposed of. Choices of the model in it: logs 55 and 92. -/
def Obligations.TwinMessages : Prop := ∀ s : State, s.up →
  let ctl := Reg.TWIN.CTL.hubAt
  let st := Reg.TWIN.STAT.hubAt
  let tw := s.dev.twin
  let key := s.dev.mirKey
  let pkts := (s.dev.getBundle key).inPkts
  let first := fun (vc : Nat) => pkts.find? (fun x => x.chan == 30 + vc)
  let msg := fun (type : Nat) (b : List Nat) (d : Dev) => ∃ p : LinkPkt, first 0 = some p ∧ p.poison = false ∧ p.words = type :: b ∧
    d = s.dev.bundle key (fun x => { x with inPkts := x.inPkts.erase p })
  let mir := fun (vc : Nat) (p : LinkPkt) (d : Dev) => s.dev.secondary = true ∧ first vc = some p ∧ (vc ≠ 1 → p.poison = false) ∧ p.words ≠ [] ∧
    d = s.dev.bundle key (fun x => { x with inPkts := x.inPkts.erase p })
  let sends := fun (t : Dev) (vc : Nat) (ws : List Nat) => ∃ x ∈ (t.getBundle key).outPkts, x.chan = 30 + vc ∧ x.words = ws ∧ x.poison = false
  let words := fun (n q : Nat) (d : Dev) => d.getQ n q [] (fun x => x.words.map (fun w => (w.data.toNat, w.eop)))
  let room := fun (n q k : Nat) => k ≤ s.dev.getQ n q 0 Queue.free ∧ s.dev.getQ n q 1024 (fun x => x.openLen) + k < 1024 ∧
    (s.dev.getQ n q false Queue.toBanks = false ∨ s.dev.getQ n q [] (fun x => x.chain) = [])
  let packet := fun (ws : List Nat) => ws.zipIdx.map (fun p => (p.1 % 4096, decide (p.2 + 1 = ws.length)))
  (first 0 = none → ∀ c ∈ [Instr.pairReceive, .heartbeatReceive, .digestReceive, .runcmdReceive, .runackReceive, .loadchkReceive], Runs c s s.dev) ∧
  (s.dev.secondary = false → pkts = [] → ∀ c ∈ [Instr.mirrorPacketReceive, .mirrorCallReturn, .mirrorMailbox, .mirrorPinSample, .disposalReport], Runs c s s.dev) ∧
  (∀ b d, msg 1 b d →
    let mine := s.dev.fb ctl 30
    let z := s.dev.lane0 key
    (s.dev.twinState ≠ 1 → Runs .pairReceive s d) ∧
    (s.dev.twinState = 1 → (b.getD 6 0).testBit 0 = !mine → ∃ t : Dev, Runs .pairReceive s t ∧ t.twinState = 2 ∧ t.fb st 0 = mine ∧
      t.twin.peerSerial = some (ofWords12 (b.take 6)) ∧ t.twin.heard = true ∧ t.twin.missRun = 0 ∧
      t.fd (laneLoc Reg.LANE.CTL z) 26 25 = (if mine then 2 else 1) ∧
      (mine = false → t.fd (domLoc Reg.TIME.D.CFG 0) 31 30 = 1 ∧ t.fd (domLoc Reg.TIME.D.CFG 0) 17 12 = z / 4 ∧
        t.fd (domLoc Reg.TIME.D.CFG 0) 11 10 = z % 4)) ∧
    (s.dev.twinState = 1 → (b.getD 6 0).testBit 0 = mine → ∃ t : Dev, Runs .pairReceive s t ∧ t.twinState = 0 ∧ t.fb st 0 = s.dev.fb st 0)) ∧
  (s.dev.twinState = 1 → Runs .pairRepeat s (s.dev.sendPkt key 30
    (1 :: (words12 6 s.dev.serialNo ++ [s.dev.fd ctl 30 30 + s.dev.fd ctl 18 16 * 2 + s.dev.fd ctl 4 0 * 16])))) ∧
  (s.dev.twinState ≠ 1 → Runs .pairRepeat s s.dev) ∧
  (let due := s.dev.twinState = 1 ∧ tw.pairT + 20000000 ≤ s.dev.clk ∧ s.dev.bundleActive key = false
   (due → ∃ t : Dev, Runs .pairingTimeout s t ∧ t.twinState = 0 ∧ t.secs = s.dev.secs) ∧
   (¬due → Runs .pairingTimeout s s.dev)) ∧
  (let paired := s.dev.fb ctl 31 = true ∧ s.dev.twinState ≠ 1 ∧ tw.peerSerial ≠ none
   let secs := (List.range 8).filter s.dev.committed
   (¬paired → Runs .heartbeatSend s s.dev ∧ Runs .heartbeatMiss s s.dev) ∧
   (paired → ∃ t : Dev, Runs .heartbeatSend s t ∧ t.twin.hbSeq = tw.hbSeq + 1 ∧ t.twin.heard = false ∧
     sends t 0 ([2, s.dev.twinState * 2 ^ 8 + ofOnes secs] ++ ((List.range 8).map (fun n => words12 6 (s.dev.dcyc n))).flatten ++ [tw.hbSeq % 4096]) ∧
     (s.dev.pairedPrimary = true → ∀ n ∈ secs, sends t 5 (n :: (outTwinQueues.map (fun q =>
       words12 2 ((Sparse.get (fun _ => 0) tw.disposed (64 * n + q)) % 2 ^ 24))).flatten))) ∧
   (tw.heard = true → Runs .heartbeatMiss s s.dev) ∧
   (paired → tw.heard = false → ∃ t : Dev, Runs .heartbeatMiss s t ∧
     t.rd Reg.TWIN.HBMISS.hubAt = satAdd 32 (s.dev.rd Reg.TWIN.HBMISS.hubAt) 1 ∧ t.twin.missRun = tw.missRun + 1 ∧
     (tw.missRun < 4 ∨ s.dev.twinState ≠ 2 → t.rd st = s.dev.rd st) ∧
     (4 ≤ tw.missRun → s.dev.pairedPrimary = true → t.twinState = 3 ∧ t.fd st 27 24 = 2) ∧
     (4 ≤ tw.missRun → s.dev.twinState = 2 → s.dev.secondary = true → s.dev.peerBundles ≠ [] → t.twinState = 4 ∧ t.twin.takingT = s.dev.clk ∧
       t.twin.takingCause = 2 ∧ t.twin.accepted = [] ∧ t.twin.resumed = [] ∧ t.twin.standby = s.dev.peerBundles) ∧
     (4 ≤ tw.missRun → s.dev.twinState = 2 → s.dev.secondary = true → s.dev.peerBundles = [] → t.twinState = 3 ∧ t.fb st 0 = true))) ∧
  (∀ b d, msg 2 b d →
    let u := d.twn (fun t => { t with
      heard := true
      missRun := 0
      peerState := bits (b.getD 0 0) 11 8
      peerMask := bits (b.getD 0 0) 7 0
      peerDcyc := (List.range 8).map (fun m => ofWords12 ((b.drop (1 + 6 * m)).take 6)) })
    let left := s.dev.pairedPrimary = true ∧ bits (b.getD 0 0) 11 8 = 0
    (¬left → Runs .heartbeatReceive s u) ∧
    (left → ∃ t : Dev, Runs .heartbeatReceive s t ∧ t.twinState = 3 ∧ t.fb st 0 = true ∧ t.twin.heard = true ∧ t.twin.missRun = 0)) ∧
  (∀ b d, msg 3 b d →
    let m := bits (b.getD 0 0) 2 0
    let j := ofWords12 ((b.drop 1).take 6)
    let v := ofWords12 ((b.drop 7).take 6)
    let same := fun (l : List DigestRec) => l.find? (fun r => r.sec == m && r.period == j)
    (s.dev.twinState ≠ 2 → Runs .digestReceive s d) ∧
    (s.dev.twinState = 2 → same tw.own = none → Runs .digestReceive s (d.twn (fun t => { t with other := t.other ++ [⟨m, j, v⟩] }))) ∧
    (∀ a, s.dev.twinState = 2 → same tw.own = some a → same tw.other = none → ∃ t : Dev, Runs .digestReceive s t ∧ same t.twin.own = none ∧
      same t.twin.other = none ∧
      t.rd Reg.TWIN.DIGCMP.hubAt = (if s.dev.fb st 0 then satAdd 32 (s.dev.rd Reg.TWIN.DIGCMP.hubAt) 1 else s.dev.rd Reg.TWIN.DIGCMP.hubAt) ∧
      (a.value = v ∨ tw.selfDue ≠ [] → t.rd st = s.dev.rd st ∧ t.secs = s.dev.secs) ∧
      (a.value ≠ v → tw.selfDue = [] → t.twinState = 5 ∧ t.fd st 27 24 = 3))) ∧
  (∀ b d, msg 4 b d →
    let n := bits (b.getD 0 0) 2 0
    let cmd := bits (b.getD 1 0) 5 0
    let u := (((d.wr64 Reg.SCTL.STIME n [] (ofWords12 ((b.drop 2).take 4) % 2 ^ 48)).wr (Reg.SCTL.STRIG.of n)
      (b.getD 6 0 % 512 &&& Reg.SCTL.STRIG.mask false (fun t => t == .rw))).wr (Reg.SCTL.STEPK.of n) (ofWords12 ((b.drop 7).take 3) % 2 ^ 32))
    let e := u.runErr n (cmd % 16) (cmd / 16) true
    let w := (u.wf (cmdstat n) 7 4 (cmd % 16)).wf (cmdstat n) 3 0 e
    (s.dev.secondary = false → Runs .runcmdReceive s d) ∧
    (s.dev.secondary = true → e ≠ 0 → Runs .runcmdReceive s (w.sendMir 0 [5, n, w.fd (cmdstat n) 3 0])) ∧
    (s.dev.secondary = true → e = 0 → let t := w.runApply n (cmd % 16) (cmd / 16)
      Runs .runcmdReceive s (t.sendMir 0 [5, n, t.fd (cmdstat n) 3 0]))) ∧
  (∀ b d, msg 5 b d →
    let oldest := tw.fwd.find? (fun x => x.leader == bits (b.getD 0 0) 2 0)
    let e := bits (b.getD 1 0) 3 0
    let status := if e = 0 then 0 else 0x0100 + e
    (oldest = none → Runs .runackReceive s d) ∧
    (∀ x, oldest = some x →
      let t := d.twn (fun t => { t with fwd := t.fwd.erase x })
      (x.asker = none → Runs .runackReceive s t) ∧
      (∀ f cid, x.asker = some (.host f cid) →
        (∀ c, t.frontCmd f = some c → c.cid = cid → Runs .runackReceive s ((t.popCmd f).complete f cid status [])) ∧
        ((∀ c, t.frontCmd f = some c → c.cid ≠ cid) → Runs .runackReceive s t)) ∧
      (∀ src tag cid, x.asker = some (.node src tag cid) → ¬(s.dev.role = 1 ∧ src = s.dev.nodeNo) →
        Runs .runackReceive s (t.respondTo src tag cid status [])) ∧
      (∀ src tag cid, x.asker = some (.node src tag cid) → s.dev.role = 1 → src = s.dev.nodeNo →
        Runs .runackReceive s ((t.relayAnswer tag src status).relayDone tag)))) ∧
  (∀ b d, msg 6 b d → Runs .loadchkReceive s (d.twn (fun t => { t with loadChk := some b }))) ∧
  (∀ p d, mir 1 p d →
    let w := p.words.getD 0 0
    let n := bits w 8 6
    let q := bits w 5 0
    let ws := p.words.drop 1
    Runs .mirrorPacketReceive s ((d.twn (fun t => { t with
      mirGot := Sparse.put (64 * n + q) (Sparse.get (fun _ => 0) t.mirGot (64 * n + q) + 1) t.mirGot })).queueWrite n q (packetWords ws true)
        ⟨some p.tally, p.poison, false⟩) ∧
    (room n q ws.length → ∃ t : Dev, Runs .mirrorPacketReceive s t ∧ words n q t = words n q s.dev ++ packet ws)) ∧
  (∀ p d, mir 2 p d →
    let n := bits (p.words.getD 0 0) 2 0
    let post := ofWords12 ((p.words.drop 1).take 2)
    let ws := p.words.drop 3
    (s.dev.ready n = [] → Runs .mirrorCallReturn s (d.calls n (fun c => { c with mirror := c.mirror ++ [(post, ws)] }))) ∧
    (∀ e, s.dev.ready n = [e] → s.dev.blocking n e.cls = true → e.seq % 2 ^ 24 = post →
      (∀ m ∈ s.dev.getSec n [] (fun x => x.calls.mirror), m.1 ≠ post) → s.dev.getSec n false (fun x => x.run.restarting) = false →
      ∃ t : Dev, Runs .mirrorCallReturn s t ∧ t.ready n = [] ∧ t.getSec n [] (fun x => x.calls.mirror) = s.dev.getSec n [] (fun x => x.calls.mirror) ∧
        t.getSec n [] (fun x => x.calls.rets) = s.dev.getSec n [] (fun x => x.calls.rets) ++ [⟨e.seq, ws⟩])) ∧
  (∀ p d, mir 3 p d →
    let n := bits (p.words.getD 0 0) 2 0
    let ws := p.words.drop 1
    Runs .mirrorMailbox s (d.queueWrite n 63 (packetWords ws true) ⟨none, false, false⟩) ∧
    (room n 63 ws.length → ∃ t : Dev, Runs .mirrorMailbox s t ∧ words n 63 t = words n 63 s.dev ++ packet ws)) ∧
  (∀ p d, mir 4 p d →
    let w := fun (i : Nat) => p.words.getD i 0
    Runs .mirrorPinSample s (d.twn (fun t => { t with
      pins := t.pins ++ [⟨bits (w 0) 2 0, bits (w 1) 9 9, bits (w 1) 8 0, ofWords12 ((p.words.drop 2).take 6), w 8 % 4096⟩] }))) ∧
  (∀ p d, mir 5 p d →
    let n := bits (p.words.getD 0 0) 2 0
    let want := fun (i : Nat) => ofWords12 ((p.words.drop (1 + 2 * i)).take 2)
    let took := fun (q : Nat) => Sparse.get (fun _ => 0) tw.took (64 * n + q)
    ∃ t : Dev, Runs .disposalReport s t ∧
      (∀ e ∈ outTwinQueues.zipIdx, Sparse.get (fun _ => 0) t.twin.reported (64 * n + e.1) = want e.2) ∧
      (∀ e ∈ outTwinQueues.zipIdx, want e.2 = took e.1 % 2 ^ 24 → words n e.1 t = words n e.1 s.dev) ∧
      ∀ e ∈ outTwinQueues.zipIdx, ∀ i, want e.2 = (took e.1 + 1) % 2 ^ 24 →
        s.dev.getQ n e.1 none (fun x => (x.words.take x.avail).findIdx? (fun w => w.eop)) = some i →
        words n e.1 t = (words n e.1 s.dev).drop (i + 1) ∧ Sparse.get (fun _ => 0) t.twin.took (64 * n + e.1) = took e.1 + 1)

/-- R393 to R398, R400, R403: failover. A self-detected fault of a paired twin, or one of a hub unit that firmware reports, stops its outputs and ends its part in the
pair, every run group halting; a primary tells its twin and its peers before. A stepdown makes the paired secondary take over: TAKEOVER goes to every peer, or with none it is primary at
once. A peer remembers a primary's stepdown; it rejects a takeover while it still has that primary, and else accepts it, its queues bound to the old bundle moving to the
new one, with a RESUME of what it holds. A REJECT, or a peer silent for 100 µs, splits the pair, the outputs off as they were; an ACCEPT is answered with RESUME, and the RESUME of
the last peer makes the secondary primary; a peer's RESUME ends what it keeps for the takeover. Choices of the model in it: logs 55 and 92. -/
def Obligations.Failover : Prop := ∀ (s : State) (k : Fin 256) (cause : BitVec 8), s.up →
  let st := Reg.TWIN.STAT.hubAt
  let tw := s.dev.twin
  let own := s.dev.nodeNo
  let me := words12 6 s.dev.serialNo
  let key := s.dev.mirKey
  let svc := fun (type : Nat) (p : LinkPkt) => (s.dev.getBundle k).inPkts.find? (fun x => x.chan == 29) = some p ∧ p.poison = false ∧ 4 ≤ p.words.length ∧
    p.words.getD 3 0 = type
  let taken := fun (j : Nat) (p : LinkPkt) => s.dev.bundle j (fun b => { b with inPkts := b.inPkts.erase p })
  let pkt := fun (j type : Nat) (body : List Nat) => [s.dev.nodeAt j * 32, own * 32, 0, type] ++ body
  let sent := fun (t : Dev) (j chan : Nat) (ws : List Nat) => ∃ x ∈ (t.getBundle j).outPkts, x.chan = chan ∧ x.words = ws ∧ x.poison = false
  let halts := fun (t : Dev) => ∀ n < 8, s.dev.committed n = true → s.dev.leader n = n → s.dev.runState n = stRUNNING →
    t.runState n = stHALTED ∨ t.getSec n false (fun x => x.run.haltDue) = true
  let takesOver := fun (t : Dev) (why : Nat) =>
    (s.dev.peerBundles ≠ [] → t.twinState = 4 ∧ t.twin.takingT = s.dev.clk ∧ t.twin.takingCause = why ∧ t.twin.standby = s.dev.peerBundles ∧
      t.twin.accepted = [] ∧ t.twin.resumed = []) ∧
    (s.dev.peerBundles = [] → t.twinState = 3 ∧ t.fb st 0 = true ∧ t.fd st 27 24 = why ∧
      t.rd Reg.TWIN.FOCNT.hubAt = satAdd 32 (s.dev.rd Reg.TWIN.FOCNT.hubAt) 1) ∧
    ∀ j ∈ s.dev.peerBundles, sent t j 29 (pkt j 0x11 (me ++ words12 6 (tw.peerSerial.getD 0)))
  let splits := fun (t : Dev) => t.twinState = 0 ∧ t.fd st 27 24 = 4 ∧ t.twin.stopped = true ∧ halts t
  (let due := s.dev.twinState = 2 ∧ (cause.toNat = 0x22 ∨ cause.toNat ∈ tw.selfDue)
   (¬due → Runs (.selfFaultStepdown cause) s s.dev) ∧
   (due → ∃ t : Dev, Runs (.selfFaultStepdown cause) s t ∧ t.twinState = 0 ∧ t.fd st 27 24 = 5 ∧ t.fb st 0 = false ∧ t.twin.stopped = true ∧
     t.twin.selfDue = [] ∧ halts t ∧
     (s.dev.fb st 0 = true → sent t key 30 (7 :: (me ++ [cause.toNat])) ∧ ∀ j ∈ s.dev.peerBundles, sent t j 29 (pkt j 0x10 (me ++ [cause.toNat]))))) ∧
  ((s.dev.getBundle k).inPkts = [] → ∀ c ∈ [Instr.stepdownReceive k, .takeoverReceive k, .acceptReceive k, .rejectReceive k, .resumeReceive k], Runs c s s.dev) ∧
  (∀ (p : LinkPkt) (b : List Nat), k.val = key → s.dev.secondary = true → (s.dev.getBundle key).inPkts.find? (fun x => x.chan == 30) = some p →
    p.poison = false → p.words = 7 :: b →
    (s.dev.twinState = 2 → ∃ t : Dev, Runs (.stepdownReceive k) s t ∧ takesOver t 1) ∧
    (s.dev.twinState ≠ 2 → Runs (.stepdownReceive k) s (taken key p))) ∧
  (∀ p : LinkPkt, k.val ≠ key ∨ s.dev.secondary = false → svc 0x10 p → Runs (.stepdownReceive k) s ((taken k p).twn (fun t => { t with
    stepdownFrom := t.stepdownFrom ++ [ofWords12 ((p.words.drop 4).take 6)] }))) ∧
  (∀ p : LinkPkt, svc 0x11 p →
    let old := ofWords12 ((p.words.drop 10).take 6)
    let was := s.dev.bundleOf old
    let gone := old ∈ tw.stepdownFrom ∨ ∀ j, was = some j → s.dev.bundleActive j = false
    let maps := fun (j : Nat) => s.dev.boundTo inQueues j ++ s.dev.boundTo outQueues j
    (¬gone → ∃ t : Dev, Runs (.takeoverReceive k) s t ∧ t.regs = s.dev.regs ∧ t.secs = s.dev.secs ∧
      sent t k 29 (pkt k 0x13 (me ++ [if ∀ j, was = some j → maps j = [] then 2 else 1]))) ∧
    (gone → was = none → ∃ t : Dev, Runs (.takeoverReceive k) s t ∧ t.regs = s.dev.regs ∧ sent t k 29 (pkt k 0x12 me) ∧ sent t k 29 (pkt k 0x14 [0])) ∧
    (∀ j, gone → was = some j → ∃ t : Dev, Runs (.takeoverReceive k) s t ∧ sent t k 29 (pkt k 0x12 me) ∧
      Sparse.find k.val t.twin.moved = some j ∧
      sent t k 29 (pkt k 0x14 (s.dev.resumeWords j (fun _ c => Sparse.get (fun _ => 0) (s.dev.getBundle j).got c))) ∧
      (j / 32 = k.val / 32 → ∀ q ∈ maps j, t.fd (Reg.LINKQ.MAP.of (k.val / 32) [q - 16]) 12 8 = k.val % 32) ∧
      (j / 32 ≠ k.val / 32 → t.regs = s.dev.regs))) ∧
  (∀ p : LinkPkt, svc 0x12 p →
    (s.dev.twinState ≠ 4 → Runs (.acceptReceive k) s (taken k p)) ∧
    (s.dev.twinState = 4 → ∃ t : Dev, Runs (.acceptReceive k) s t ∧ t.twin.accepted = k.val :: tw.accepted ∧ t.regs = s.dev.regs ∧
      sent t k 29 (pkt k 0x14 (s.dev.resumeWords k (fun q _ => Sparse.get (fun _ => 0) tw.mirGot (64 * (k.val / 32) + q)))))) ∧
  (∀ p : LinkPkt, svc 0x13 p →
    (s.dev.twinState ≠ 4 → Runs (.rejectReceive k) s (taken k p)) ∧
    (s.dev.twinState = 4 → ∃ t : Dev, Runs (.rejectReceive k) s t ∧ splits t)) ∧
  (∀ p : LinkPkt, svc 0x14 p →
    let fresh := k.val ∈ tw.accepted ∧ k.val ∉ tw.resumed
    let last := ∀ j ∈ tw.standby, j = k.val ∨ j ∈ tw.resumed
    (s.dev.twinState = 4 → ¬fresh → Runs (.resumeReceive k) s (taken k p)) ∧
    (s.dev.twinState = 4 → fresh → ∃ t : Dev, Runs (.resumeReceive k) s t ∧ t.twin.resumed = k.val :: tw.resumed ∧
      (¬last → t.rd st = s.dev.rd st) ∧
      (last → t.twinState = 3 ∧ t.fb st 0 = true ∧ t.fd st 27 24 = tw.takingCause % 16 ∧
        t.rd Reg.TWIN.FOCNT.hubAt = satAdd 32 (s.dev.rd Reg.TWIN.FOCNT.hubAt) 1)) ∧
    (s.dev.twinState ≠ 4 → Sparse.find k.val tw.moved = none → Runs (.resumeReceive k) s (taken k p)) ∧
    (s.dev.twinState ≠ 4 → Sparse.find k.val tw.moved ≠ none → ∃ t : Dev, Runs (.resumeReceive k) s t ∧ Sparse.find k.val t.twin.moved = none ∧
      t.regs = s.dev.regs)) ∧
  (let silent := tw.standby.find? (fun j => decide (j ∉ tw.accepted))
   let due := s.dev.twinState = 4 ∧ tw.takingT + 100000 ≤ s.dev.clk ∧ silent ≠ none
   (¬due → Runs .takeoverTimeout s s.dev) ∧
   (due → ∃ t : Dev, Runs .takeoverTimeout s t ∧ splits t))

/-- R429 to R441: a DMA channel n.c. GO on a channel that neither runs nor is parked starts it at DESC with its counters clear, past the lines that SKIP
names, or at the NEXT word where SKIP is all ones; on one that does it only sets REJ. HALT stops a parked channel, or one still without its descriptor, at once, and
waits for the end of the burst otherwise; WDRAW takes a running one back at once while no burst is issued; neither does anything to a channel that does
not run. A doorbell is kept for a channel that runs or reads its next word, and makes a parked one read it. A fetched descriptor begins to move or stops
the channel with its code. A burst waits while a line of it waits for its bank; otherwise it moves up to 64 lines, and an error, WDRAW, HALT or the last line decides how it ends: a
linear burst between host memory and section memory that meets nothing stores every byte of its lines and no other, with the poison that host memory
returned. The read-back completes the descriptor, stops a halted channel, or fails; the next word leads on, parks, stops or withdraws the channel. Host
memory that fails a read ends the burst or the channel with HOST. Choices of the model in it: logs 38 and 81. -/
def Obligations.DmaChannels : Prop := ∀ (s : State) (n : Fin 9) (c : Fin 4), s.up → (n.val = 8 ∨ s.dev.sectionOn n = true) → (n.val = 8 → c.val < 2) →
  let st := s.dev.dmaState n c
  let x := s.dev.getDma n c
  let at_ := s.dev.dmaDesc n c
  let lines := x.wrote
  let host := !(s.dev.fb (dmaCtl n c) 8)
  let stopsAt := fun (d : Dev) (a skip : Nat) =>
    ((((d.setDma n c dmSTOPPED).setDesc n c a).wr (dmaSkip n c) skip).dmaCh n c (fun _ => DmaCh.start)).dmaNotice n 0x0901 [c, a, skip]
  let withdrawn := fun (d : Dev) (a l : Nat) =>
    ((((d.setDma n c dmWITHDRAWN).setDesc n c a).wr (dmaLines n c) l).dmaCh n c (fun _ => DmaCh.start)).dmaNotice n 0x0902 [c, a, l]
  let fails := fun (d : Dev) (err l : Nat) =>
    let d := (((d.setDma n c dmERROR).wf (dmaStat n c) 27 24 err).wr (dmaLines n c) l).dmaCh n c (fun _ => DmaCh.start)
    d.dmaNotice n 0x0903 [c, err, d.dmaDesc n c, l]
  (∀ (ds : Bool) (vec : Fin 64),
    let new := b2n ds * 256 + vec.val
    let idle := st ≠ dmRUNNING ∧ st ≠ dmPARKED
    let kept := if s.dev.rd (dmaCtl n c) = new then s.dev else s.dev.wb (dmaStat n c) 1 true
    (idle → ∃ d : Dev, Runs (.dmaGo n c ds vec) s d ∧ d.dmaState n c = dmRUNNING ∧ d.fd (dmaStat n c) 27 24 = 0 ∧
      d.rd (dmaCtl n c) = new ∧ d.rd (dmaSkip n c) = 0 ∧ d.rd (dmaLines n c) = 0 ∧ d.dmaRd64 n c Reg.SDMA.BYTES Reg.HDMA.BYTES = 0 ∧
      d.getDma n c = (if s.dev.rd (dmaSkip n c) = 0xFFFFFFFF then { DmaCh.start with rereading := true }
        else { DmaCh.start with moved := s.dev.rd (dmaSkip n c), wrote := s.dev.rd (dmaSkip n c) })) ∧
    (idle → Runs (.dmaHalt n c ds vec) s (s.dev.wr (dmaCtl n c) new) ∧ Runs (.dmaWdraw n c ds vec) s (s.dev.wr (dmaCtl n c) new)) ∧
    (¬idle → Runs (.dmaGo n c ds vec) s (kept.wb (dmaStat n c) 1 true)) ∧
    (st = dmPARKED → Runs (.dmaHalt n c ds vec) s (stopsAt kept at_ 0xFFFFFFFF) ∧ Runs (.dmaWdraw n c ds vec) s kept) ∧
    (st = dmRUNNING →
      (x.desc = none → x.rereading = false → Runs (.dmaHalt n c ds vec) s (stopsAt kept at_ x.moved)) ∧
      (x.desc ≠ none ∨ x.rereading = true → Runs (.dmaHalt n c ds vec) s (kept.dmaCh n c (fun x => { x with halt := true }))) ∧
      (x.rereading = false → (x.desc = none ∨ x.reading = true) → Runs (.dmaWdraw n c ds vec) s (withdrawn kept at_ x.moved)) ∧
      (x.rereading = true ∨ (x.desc ≠ none ∧ x.reading = false) →
        Runs (.dmaWdraw n c ds vec) s (kept.dmaCh n c (fun x => { x with wdraw := true }))))) ∧
  (st = dmRUNNING ∨ (st = dmPARKED ∧ x.rereading = true) → Runs (.dmaDoorbell n c) s (s.dev.wb (dmaStat n c) 2 true)) ∧
  (st = dmPARKED → x.rereading = false → Runs (.dmaDoorbell n c) s (s.dev.dmaCh n c (fun x => { x with rereading := true }))) ∧
  (st ≠ dmRUNNING → st ≠ dmPARKED → Runs (.dmaDoorbell n c) s s.dev) ∧
  (let r := if host then (s.dev, 0, s.dev.hostRead at_ 32) else
     let q := s.dev.dmaRead n c at_ 32 []
     (q.1, q.2.1, q.2.2.1)
   let y := parseDesc r.2.2
   let ready := st = dmRUNNING ∧ x.desc = none ∧ x.rereading = false
   (¬ready → Runs (.descriptorFetched n c) s s.dev) ∧
   (ready → r.2.1 ≠ 0 → Runs (.descriptorFetched n c) s (fails r.1 r.2.1 0)) ∧
   (ready → r.2.1 = 0 → descErr y (n == 8) ≠ 0 → Runs (.descriptorFetched n c) s (fails r.1 (descErr y (n == 8)) 0)) ∧
   (ready → r.2.1 = 0 → descErr y (n == 8) = 0 → Runs (.descriptorFetched n c) s (r.1.dmaCh n c (fun z => { z with
     desc := some y
     reading := decide (y.len / 64 ≤ z.moved) })))) ∧
  (let issued := fun (y : Desc) => st = dmRUNNING ∧ x.desc = some y ∧ x.reading = false ∧ x.rereading = false ∧ s.dev.burstWaits n c y = false
   let burst := fun (i : Instr) (y : Desc) (b : BurstIn) =>
     let r := dmaMove b n c y 64 0 s.dev
     let m := (r.1.getDma n c).wrote
     let d := r.1.wr (dmaLines n c) m
     let done := x.halt = true ∨ y.len / 64 ≤ (r.1.getDma n c).moved
     (r.2.err ≠ 0 → Runs i s (fails r.1 r.2.err (if r.2.fetch then 0 else m))) ∧
     (r.2.err = 0 → x.wdraw = true → Runs i s (withdrawn d (d.dmaDesc n c) m)) ∧
     (r.2.err = 0 → x.wdraw = false → done → Runs i s (d.dmaCh n c (fun z => { z with reading := true }))) ∧
     (r.2.err = 0 → x.wdraw = false → ¬done → Runs i s d)
   (∀ (errs : List (Fin 2048 × Fin 3)) (eps : List (Fin 64)),
     ((∀ y, ¬issued y) → Runs (.dmaBurstDone n c errs eps) s s.dev) ∧
     (∀ y, issued y → burst (.dmaBurstDone n c errs eps) y ⟨errPairs errs, eps.map Fin.val, none⟩)) ∧
   (∀ (k : Fin 64) (errs : List (Fin 2048 × Fin 3)),
     let e := Instr.dmaTransferError n c k errs
     let live := st = dmRUNNING ∨ (st = dmPARKED ∧ x.rereading = true)
     (¬live → Runs e s s.dev) ∧
     (live → x.desc = none → host = true → Runs e s (fails s.dev deHOST 0)) ∧
     (live → x.desc = none → host = false → Runs e s s.dev) ∧
     (∀ y, live → x.desc = some y → x.reading = true → y.dir = 1 → Runs e s (fails s.dev deHOST lines)) ∧
     (∀ y, live → x.desc = some y → x.reading = true → y.dir ≠ 1 → Runs e s s.dev) ∧
     (∀ y, live → x.desc = some y → x.reading = false → y.dir ≠ 0 ∨ y.len / 64 ≤ x.moved + k.val ∨ s.dev.burstWaits n c y = true → Runs e s s.dev) ∧
     (∀ y, issued y → y.dir = 0 → x.moved + k.val < y.len / 64 → burst e y ⟨errPairs errs, [], some k.val⟩)) ∧
   (∀ y : Desc, issued y → y.mode = 0 → y.addrA % 64 = 0 → y.addrB % 64 = 0 → y.addrA + y.len ≤ 2 ^ 64 → y.addrB + y.len ≤ 2 ^ 64 →
     x.moved < y.len / 64 → x.wdraw = false →
     let k := min 64 (y.len / 64 - x.moved)
     let src := fun (i : Nat) => y.addrA + 64 * (x.moved + i)
     let dst := fun (i : Nat) => y.addrB + 64 * (x.moved + i)
     let place := fun (write : Bool) (a : Nat) => (dmaTarget n c a).bind (fun p =>
       ((s.dev.allow p.1 p.2.1 p.2.2 64 write).bind (fun j => s.dev.region p.1 p.2.1 j p.2.2)).map (fun z => (p.1, z)))
     let good := fun (write : Bool) (a : Nat) => ∃ m z : Nat, place write a = some (m, z) ∧ s.dev.sectionOn m = true ∧ s.dev.reachable m z = true ∧
       ((inSpad z = true ∧ inSpad (z + 63) = true) ∨ (inHbm z = true ∧ inHbm (z + 63) = true)) ∧
       s.dev.getSec m [(0, [])] (fun x => x.ctl.dirty) = []
     let moves := fun (t : Dev) => t.getDma n c = { x with
         moved := x.moved + k
         wrote := lines + k
         last := some (dst (k - 1))
         reading := decide (x.halt = true ∨ y.len / 64 ≤ x.moved + k) } ∧
       t.dmaState n c = dmRUNNING ∧ t.rd (dmaLines n c) = (lines + k) % 2 ^ 32 ∧
       t.dmaRd64 n c Reg.SDMA.BYTES Reg.HDMA.BYTES = (s.dev.dmaRd64 n c Reg.SDMA.BYTES Reg.HDMA.BYTES + 64 * k) % 2 ^ 64
     let stored := fun (t : Dev) (which : Nat → Prop) =>
       (∀ i < k, which i → ∀ m z : Nat, place true (dst i) = some (m, z) → ∀ j < 64, t.memByte m (z + j) = s.dev.hostByte (src i + j)) ∧
       ∀ m a : Nat, (inSpad a = true ∨ hbmBase ≤ a) →
         (∀ i < k, which i → ∀ z : Nat, place true (dst i) = some (m, z) → a < z ∨ z + 64 ≤ a) → t.memByte m a = s.dev.memByte m a
     (y.dir = 0 → (∀ i < k, good true (dst i)) → (∀ i < k, ∀ j < k, place true (dst i) = place true (dst j) → i = j) →
       (∀ errs eps, ∃ t : Dev, Runs (.dmaBurstDone n c errs eps) s t ∧ moves t ∧ stored t (fun _ => True) ∧ t.hostMem = s.dev.hostMem ∧
         ∀ i < k, ∀ m z : Nat, place true (dst i) = some (m, z) → (t.lineTag m (z / 64)).poison = decide (i ∈ eps.map Fin.val)) ∧
       (∀ (q : Fin 64) errs, q.val < k → ∃ t : Dev, Runs (.dmaTransferError n c q errs) s t ∧ t.dmaState n c = dmERROR ∧
         t.fd (dmaStat n c) 27 24 = deHOST ∧ t.rd (dmaLines n c) = (lines + k - 1) % 2 ^ 32 ∧ stored t (fun i => i ≠ q.val))) ∧
     (y.dir = 1 → (∀ i < k, good false (src i) ∧ ∀ m z : Nat, place false (src i) = some (m, z) → s.dev.lineBad m (z / 64) = false) →
       ∃ t : Dev, Runs (.dmaBurstDone n c [] []) s t ∧ moves t ∧
         (∀ i < k, ∀ m z : Nat, place false (src i) = some (m, z) → ∀ j < 64, t.hostByte (dst i + j) = s.dev.memByte m (z + j)) ∧
         (∀ a < 2 ^ 64, (∀ i < k, a < dst i ∨ dst i + 64 ≤ a) → t.hostByte a = s.dev.hostByte a) ∧
         ∀ m a : Nat, t.memByte m a = s.dev.memByte m a))) ∧
  (∀ y : Desc, x.desc = some y →
    let q := match x.last with
      | some a => if y.toSec then ((s.dev.dmaRead n c a 64 []).1, (s.dev.dmaRead n c a 64 []).2.1) else (s.dev, 0)
      | none => (s.dev, 0)
    let waits := ∃ a, x.last = some a ∧ y.toSec = true ∧ s.dev.dmaWaits n c a false = true
    let ready := st = dmRUNNING ∧ x.reading = true ∧ ¬waits
    (¬ready → Runs (.readbackDone n c) s s.dev) ∧
    (ready → q.2 ≠ 0 → Runs (.readbackDone n c) s (fails q.1 q.2 lines)) ∧
    (ready → q.2 = 0 → x.moved < y.len / 64 → Runs (.readbackDone n c) s (stopsAt q.1 (q.1.dmaDesc n c) x.moved)) ∧
    (ready → q.2 = 0 → y.len / 64 ≤ x.moved →
      let d := q.1.wr (dmaDone n c) ((q.1.rd (dmaDone n c) + 1) % 2 ^ 32)
      Runs (.readbackDone n c) s ((if y.irq then d.msix (if n = 8 then 0 else n + 1) (d.fd (dmaCtl n c) 5 0) else d).dmaCh n c (fun _ => { DmaCh.start with
        halt := x.halt
        wdraw := x.wdraw
        rereading := true })))) ∧
  (x.desc = none → Runs (.readbackDone n c) s s.dev) ∧
  (let r := if host then (s.dev, 0, s.dev.hostRead at_ 8) else
     let q := s.dev.dmaRead n c at_ 8 []
     (q.1, q.2.1, q.2.2.1)
   let w := ofBytes r.2.2
   let next := w / 32 * 32
   let bell := r.1.fb (dmaStat n c) 2
   let ready := x.rereading = true ∧ (st = dmRUNNING ∨ st = dmPARKED)
   (¬ready → Runs (.nextWordRead n c) s s.dev) ∧
   (ready → r.2.1 ≠ 0 → Runs (.nextWordRead n c) s (fails r.1 r.2.1 0)) ∧
   (ready → r.2.1 = 0 → w.testBit 0 = false →
     (x.wdraw = true → Runs (.nextWordRead n c) s (withdrawn r.1 next 0)) ∧
     (x.wdraw = false → x.halt = true → Runs (.nextWordRead n c) s (stopsAt r.1 next 0)) ∧
     (x.wdraw = false → x.halt = false →
       Runs (.nextWordRead n c) s (((r.1.setDma n c dmRUNNING).setDesc n c next).dmaCh n c (fun _ => DmaCh.start)))) ∧
   (ready → r.2.1 = 0 → w.testBit 0 = true →
     (bell = true → Runs (.nextWordRead n c) s (r.1.wb (dmaStat n c) 2 false)) ∧
     (bell = false → x.wdraw = true → Runs (.nextWordRead n c) s (withdrawn r.1 at_ (r.1.rd (dmaLines n c)))) ∧
     (bell = false → x.wdraw = false → x.halt = true → Runs (.nextWordRead n c) s (stopsAt r.1 at_ 0xFFFFFFFF)) ∧
     (bell = false → x.wdraw = false → x.halt = false →
       Runs (.nextWordRead n c) s (((r.1.setDma n c dmPARKED).setDesc n c at_).dmaCh n c (fun _ => DmaCh.start)))))

/-- R446, R448 to R450, R460: SWAP begins a swap, or is refused while one runs; when the named ports have drained within 4 µs the tables change places,
and after 2 µs a port that has not drained ends the swap with TIMEOUT; both count the swap and its stall, and neither does anything without a swap, or outside its
time. A request that becomes urgent counts. CLR clears the statistics of every initiator, FREEZE and WSHIFT follow the write, and every other register stays, the
urgency counters among them. Choices of the model in it: log 51. -/
def Obligations.ServiceNetwork : Prop := ∀ (s : State) (n : Fin 8) (p : Fin 45) (i : Fin 16) (v : BitVec 32), s.upIn n →
  let st := Reg.SNOC.RTSTAT.of n
  let swapping := s.dev.fb st 31
  let k := s.dev.getSec n 0 (fun x => match x.noc.swapT with | some t => s.dev.clk - t | none => 0)
  let active := fun (d : Dev) => d.getSec n [] (fun x => x.noc.active)
  let shadow := fun (d : Dev) => d.getSec n [] (fun x => x.noc.shadow)
  let ended := fun (d : Dev) => d.fb st 31 = false ∧ d.getSec n (some 0) (fun x => x.noc.swapT) = none ∧
    d.rd (Reg.SNOC.RCCNT.of n) = satAdd 32 (s.dev.rd (Reg.SNOC.RCCNT.of n)) 1 ∧
    d.rd (Reg.SNOC.RCSTALL.of n) = satAdd 32 (s.dev.rd (Reg.SNOC.RCSTALL.of n)) k
  (swapping = true → Runs (.rtcmdSwap n) s (s.dev.wb st 29 true)) ∧
  (swapping = false → Runs (.rtcmdSwap n) s ((s.dev.wb st 31 true).noc n (fun x => { x with swapT := some s.dev.clk }))) ∧
  (swapping = false ∨ 4000 < k → Runs (.swapDrained n) s s.dev) ∧
  (swapping = true → k ≤ 4000 → ∃ d : Dev, Runs (.swapDrained n) s (d.notice n 0x0B01 [k, s.dev.rd64 Reg.SNOC.RTPORTS n]) ∧ ended d ∧
    active d = shadow s.dev ∧ shadow d = active s.dev) ∧
  (let late := swapping = true ∧ (s.dev.rd64 Reg.SNOC.RTPORTS n).testBit p = true ∧ 2000 ≤ k
   (¬late → Runs (.swapDrainTimeout n p) s s.dev) ∧
   (late → ∃ d : Dev, Runs (.swapDrainTimeout n p) s (d.notice n 0x0B02 [p]) ∧ ended d ∧ d.fb st 30 = true ∧
     active d = active s.dev ∧ shadow d = shadow s.dev)) ∧
  Runs (.packetUrgent n i) s (s.dev.wr (Reg.SNOC.URGCNT.of n [i]) (satAdd 32 (s.dev.rd (Reg.SNOC.URGCNT.of n [i])) 1)) ∧
  (let ctl := Reg.SNOC.STCTL.of n
   ∃ d : Dev, Runs (.stctlClr n v) s d ∧
    (∀ i < 16, d.rd64 Reg.SNOC.REQ n [i] = 0 ∧ d.rd64 Reg.SNOC.BYTES n [i] = 0 ∧ d.rd64 Reg.SNOC.LATSUM n [i] = 0 ∧
      d.rd (Reg.SNOC.LATMIN.of n [i]) = 0xFFFFFFFF ∧ d.rd (Reg.SNOC.LATMAX.of n [i]) = 0 ∧ ∀ j < 8, d.rd (Reg.SNOC.HIST.of n [i, j]) = 0) ∧
    d.fb ctl 31 = v.toNat.testBit 31 ∧ d.fd ctl 3 0 = v.toNat % 16 ∧
    ∀ l : Loc, l.key ≠ ctl.key → ¬(l.key / 2 ^ 32 = n ∧ 0x21000 ≤ l.key % 2 ^ 32 ∧ l.key % 2 ^ 32 < 0x21800) → d.rd l = s.dev.rd l)

/-- R461 to R464, R467, R469 to R472: trace. At the DELTA limit an active trace of a core that runs writes SYNC. A core sleeps unless an interrupt that mie enables stands, and a
sleeping one wakes when there is one; their active traces write SLEEP and WAKE. TCTL is taken while EN is 0, else only when it clears EN, and setting EN starts a trace
with SYNC unless a comparator is to start it. The buffer takes one record of the next source that has one and advances, wraps or fills up; where it is full
the record counts as lost; a source that lost records then writes LOSS. CLR is taken while EN is 0 and leaves every record zero. A record enters the source's FIFO
while the buffer is enabled, and is lost and counted where the FIFO holds 16. Choices of the model in it: log 50. -/
def Obligations.TraceUnits : Prop := ∀ (s : State) (n : Fin 9) (x : Fin 9) (y : Fin 10) (v : BitVec 32), s.up → (n.val = 8 ∨ s.dev.sectionOn n = true) →
  (n.val = 8 → x.val = 0 ∧ y.val = 0) → y.val ≠ 9 →
  let en := s.dev.fb (bctl n) 31
  let fifo := fun (d : Dev) (z : Nat) => d.getSrc n z [] (fun t => t.fifo)
  let lost := fun (d : Dev) (z : Nat) => d.getSrc n z 0 (fun t => t.lost)
  let delta := fun (d : Dev) (z : Nat) => d.getSrc n z 0 (fun t => t.delta)
  let ninst := fun (d : Dev) (z : Nat) => d.getSrc n z 0 (fun t => t.ninst)
  let record := fun (kind z xb dl hi : Nat) => BitVec.ofNat 128 (kind * 2 ^ 28 + (if n = 8 then 15 else z) * 2 ^ 24 + xb * 2 ^ 14 + dl +
    (s.dev.time.ns + s.dev.time.wrap * 2 ^ 48 + hi * 2 ^ 64) * 2 ^ 32)
  let enters := fun (t : Dev) (z : Nat) (r : BitVec 128) =>
    (en = false → fifo t z = fifo s.dev z) ∧
    (en = true → (fifo s.dev z).length < 16 → fifo t z = fifo s.dev z ++ [r]) ∧
    (en = true → 16 ≤ (fifo s.dev z).length → fifo t z = fifo s.dev z ∧ lost t z = lost s.dev z + 1 ∧
      (z ≠ 9 → t.rd (tlost n z) = satAdd 32 (s.dev.rd (tlost n z)) 1))
  (let live := s.dev.fb (tstat n y) 31 = true ∧ s.dev.fb (tstat n y) 30 = false
   (¬live → Runs (.deltaSync n y) s s.dev) ∧
   (live → ∃ t : Dev, Runs (.deltaSync n y) s t ∧ enters t y (record 7 y 0 16383 (min (ninst s.dev y) (2 ^ 32 - 1))) ∧ delta t y = 0 ∧ ninst t y = 0)) ∧
  (let z := traceIx n x
   let c := s.dev.getCore n x
   let wakes := s.dev.meip n x = true ∧ (s.dev.csrHeld n x csrIE).testBit 11 = true
   let traced := s.dev.fb (tstat n z) 31 = true ∧ s.dev.fb (tctl n z) 31 = true
   (s.dev.coreRuns n x = false ∨ wakes → Runs (.coreSleep n x) s s.dev) ∧
   (s.dev.coreRuns n x = true → ¬wakes → ∃ t : Dev, Runs (.coreSleep n x) s t ∧ (t.getCore n x).sleeping = true ∧ (t.getCore n x).pc = c.pc + 4 ∧
     (t.getCore n x).regs = c.regs ∧ t.csrHeld n x csrINSTRET = (s.dev.csrHeld n x csrINSTRET + 1) % 2 ^ 64 ∧ t.fb (tstat n z) 30 = true ∧
     (traced → (∀ k < 8, s.dev.fd (trcLoc n Reg.STRC.CMP.CFG Reg.HTRC.CMP.CFG [z, k]) 29 28 ≠ 2) →
       enters t z (record 5 z 0 (min (delta s.dev z) 16383) (min (ninst s.dev z + 1) (2 ^ 32 - 1))) ∧ delta t z = 0)) ∧
   (c.sleeping = false ∨ ¬wakes → Runs (.coreWake n x) s s.dev) ∧
   (c.sleeping = true → wakes → ∃ t : Dev, Runs (.coreWake n x) s t ∧ t.getCore n x = { c with sleeping := false } ∧ t.fb (tstat n z) 30 = false ∧
     (s.dev.fb (tstat n z) 31 = true → enters t z (record 6 z 0 0 0) ∧ delta t z = 0 ∧ ninst t z = 0) ∧
     (s.dev.fb (tstat n z) 31 = false → fifo t z = fifo s.dev z))) ∧
  (let l := tctl n y
   let w := v.toNat &&& 0xF8000000
   let starter := ∃ k < 8, (s.dev.fd (trcLoc n Reg.STRC.CMP.CFG Reg.HTRC.CMP.CFG [y, k]) 31 30 = 1 ∨
     s.dev.fd (trcLoc n Reg.STRC.CMP.CFG Reg.HTRC.CMP.CFG [y, k]) 31 30 = 2) ∧ s.dev.fd (trcLoc n Reg.STRC.CMP.CFG Reg.HTRC.CMP.CFG [y, k]) 29 28 = 1
   (s.dev.fb l 31 = true → v.toNat.testBit 31 = true → Runs (.tctlWrite n y v) s (s.dev.wb (tstat n y) 5 true)) ∧
   (s.dev.fb l 31 = true → v.toNat.testBit 31 = false → Runs (.tctlWrite n y v) s ((s.dev.wr l w).wb (tstat n y) 31 false)) ∧
   (s.dev.fb l 31 = false → v.toNat.testBit 31 = false → Runs (.tctlWrite n y v) s (s.dev.wr l w)) ∧
   (s.dev.fb l 31 = false → v.toNat.testBit 31 = true → starter → Runs (.tctlWrite n y v) s (s.dev.wr l w)) ∧
   (s.dev.fb l 31 = false → v.toNat.testBit 31 = true → ¬starter → ∃ t : Dev, Runs (.tctlWrite n y v) s t ∧ t.rd l = w ∧
     t.fb (tstat n y) 31 = true ∧ enters t y (record 7 y 64 0 0) ∧ delta t y = 0 ∧ ninst t y = 0)) ∧
  (let next := s.dev.getTrc n 0 (fun t => t.next)
   let from_ := (if n = 8 then [0] else (List.range 10).map (fun i => (next + i) % 10)).find? (fun z => (fifo s.dev z).length ≠ 0)
   let full := s.dev.fb (bstat n) 31
   let w := s.dev.fd (bstat n) 13 0
   let size := if n = 8 then 8192 else 16384
   let wraps := trcLoc n Reg.STRC.WRAPS Reg.HTRC.WRAPS []
   (from_ = none → Runs (.traceBufferAccept n) s s.dev) ∧
   (∀ z r rest, from_ = some z → fifo s.dev z = r :: rest → rest.length < 16 → ∃ t : Dev, Runs (.traceBufferAccept n) s t ∧
     t.getTrc n 0 (fun t => t.next) = (z + 1) % 10 ∧
     fifo t z = rest ++ (if lost s.dev z ≠ 0 ∧ en = true then [record 9 z 0 0 (min (lost s.dev z) (2 ^ 32 - 1))] else []) ∧ lost t z = 0 ∧
     (full = true → (∀ i, t.trcRead n i = s.dev.trcRead n i) ∧ (z ≠ 9 → t.rd (tlost n z) = satAdd 32 (s.dev.rd (tlost n z)) 1)) ∧
     (full = false → t.trcRead n w = r.toNat ∧ (∀ i, i ≠ w → t.trcRead n i = s.dev.trcRead n i) ∧
       (w + 1 < size → t.fd (bstat n) 13 0 = w + 1) ∧
       (size ≤ w + 1 → s.dev.fb (bctl n) 30 = true → t.fb (bstat n) 31 = true) ∧
       (size ≤ w + 1 → s.dev.fb (bctl n) 30 = false → t.fd (bstat n) 13 0 = 0 ∧ t.rd wraps = (s.dev.rd wraps + 1) % 2 ^ 32)))) ∧
  (s.dev.fb (bctl n) 31 = true → Runs (.bctlClr n) s s.dev) ∧
  (s.dev.fb (bctl n) 31 = false → Runs (.bctlClr n) s (s.dev.wb (bstat n) 30 true)) ∧
  (s.dev.fb (bstat n) 30 = false → Runs (.traceClearDone n) s s.dev) ∧
  (s.dev.fb (bstat n) 30 = true → ∃ d : Dev, Runs (.traceClearDone n) s d ∧ d.rd (bstat n) = 0 ∧
    d.rd (trcLoc n Reg.STRC.WRAPS Reg.HTRC.WRAPS []) = 0 ∧ ∀ i, d.trcRead n i = 0)

/-- R25, R413 to R418, R420: the rings of a host function. EN set where it was 0 brings both heads and both tails to 0 and the phase to 1. A CMDTAIL write stores
the index, and where the ring would hold more than its size less one it sets STAT.RINGERR and fetching stops. A CPLHEAD write stores the index and lets waiting
notices be written. A fetch takes the entry at CMDHEAD of the function whose turn it is and advances CMDHEAD; a failed one sets RINGERR; out of turn, or with
nothing to fetch, nothing happens; an OPC that the table does not have completes in its turn. A completion is 64 bytes at CPLTAIL, with the phase in its first,
and CPLTAIL advances; its message, or that of a vector whose coalescing time is over, goes to the address in its table entry, or sets its pending bit where it is masked.
Choices of the model in it: logs 34 and 87. -/
def Obligations.HostRings : Prop := ∀ (s : State) (f : Fin 9) (v : BitVec 32), s.up →
  let ctl := Reg.HQ.CTL.hubAt [f]
  let cmdHead := Reg.HQ.CMDHEAD.hubAt [f]
  let cmdTail := Reg.HQ.CMDTAIL.hubAt [f]
  let cplTail := Reg.HQ.CPLTAIL.hubAt [f]
  let stat := Reg.HQ.STAT.hubAt [f]
  let log2n := fun (r : Row) => if 4 ≤ s.dev.fd (r.hubAt [f]) 3 0 ∧ s.dev.fd (r.hubAt [f]) 3 0 ≤ 12 then s.dev.fd (r.hubAt [f]) 3 0 else 4
  let size := 2 ^ log2n Reg.HQ.CMDCFG
  let cpls := 2 ^ log2n Reg.HQ.CPLCFG
  let head := s.dev.fd cmdHead 11 0
  let tail := s.dev.fd cmdTail 11 0
  let i := s.dev.fd cplTail 11 0
  let ph := s.dev.fd cplTail 16 16
  let queued := s.dev.getFn f [] (fun h => h.queued)
  let waiting := fun (d : Dev) => d.getFn f [] (fun h => h.waiting)
  let slot := s.dev.rd64 Reg.HQ.CPLBASE 8 [f] + 64 * i
  let msg := fun (vec : Nat) => s.dev.rd (Reg.HQ.MSIXL.hubAt [f, vec]) + 2 ^ 32 * s.dev.rd (Reg.HQ.MSIXH.hubAt [f, vec])
  let apart := fun (vec : Nat) => ∀ j < 64, ∀ k < 4, (slot + j) % 2 ^ 64 ≠ (msg vec + k) % 2 ^ 64
  let advanced := fun (t : Dev) => (i + 1 = cpls → t.fd cplTail 11 0 = 0 ∧ t.fd cplTail 16 16 = 1 - ph) ∧
    (i + 1 < cpls → t.fd cplTail 11 0 = i + 1 ∧ t.fd cplTail 16 16 = ph)
  (∀ (d : Dev) (a : Nat) (bs : List Nat) (x : Nat), bs.length ≤ 2 ^ 64 → (d.hostWrite a bs).hostByte x =
    (let j := (x % 2 ^ 64 + 2 ^ 64 - a % 2 ^ 64) % 2 ^ 64
     if j < bs.length then bs.getD j 0 % 256 else d.hostByte x)) ∧
  (∀ (cid st : Nat) (data : List Nat), s.dev.ringsOn f = true → waiting s.dev = [] → apart (s.dev.fd (Reg.HQ.IRQ.hubAt [f]) 5 0) →
    let t := s.dev.complete f cid st data
    t.hostRead slot 64 = (ph :: 0 :: (toBytes 2 cid ++ toBytes 2 st ++ [0, 0] ++ (data ++ List.replicate 56 0).take 56)).map (· % 256) ∧ advanced t ∧
    t.fb stat 0 = decide (0 < s.dev.outstanding f)) ∧
  (s.dev.fb ctl 0 = true → Runs (.hqEnable f) s (s.dev.wb ctl 0 true)) ∧
  (s.dev.fb ctl 0 = false → ∃ d : Dev, Runs (.hqEnable f) s d ∧ d.fb ctl 0 = true ∧ d.fd cmdHead 11 0 = 0 ∧ d.fd cmdTail 11 0 = 0 ∧
    d.fd (Reg.HQ.CPLHEAD.hubAt [f]) 11 0 = 0 ∧ (waiting s.dev = [] → d.rd cplTail = 0x10000 ∧ d.hostMem = s.dev.hostMem ∧ d.secs = s.dev.secs ∧
      d.getFn f true (fun h => h.halted) = false)) ∧
  (let new := v.toNat % 4096
   let held := (tail + size - head % size) % size + (new + size - tail % size) % size
   let full := s.dev.fb ctl 0 = true ∧ (size ≤ new ∨ size ≤ held)
   (¬full → Runs (.cmdtailWrite f v) s (s.dev.wr cmdTail new)) ∧
   (full → Runs (.cmdtailWrite f v) s (((s.dev.wr cmdTail new).wb stat 2 true).fn f (fun h => { h with halted := true })))) ∧
  (let free := cpls - 1 - (i + cpls - v.toNat % 4096 % cpls) % cpls
   let hd := Reg.HQ.CPLHEAD.hubAt [f]
   (waiting s.dev = [] ∨ s.dev.fb ctl 0 = false ∨ free ≤ s.dev.outstanding f → Runs (.cplheadWrite f v) s (s.dev.wr hd (v.toNat % 4096))) ∧
   (∀ x : Notice, waiting s.dev = [x] → s.dev.fb ctl 0 = true → s.dev.outstanding f < free →
     apart (s.dev.fd (Reg.HQ.IRQ.hubAt [f]) 13 8) → ∃ t : Dev, Runs (.cplheadWrite f v) s t ∧ waiting t = [] ∧ advanced t ∧
       t.getFn f true (fun h => h.lost) = false ∧
       t.hostRead slot 64 = ((2 + (if s.dev.getFn f false (fun h => h.lost) then 4 else 0) + ph) :: x.relay :: (toBytes 2 x.code ++ toBytes 2 x.unit ++
         [0, 0] ++ toBytes 8 x.time ++ ((List.range 6).map (fun j => toBytes 8 (x.items.getD j 0))).flatten)).map (· % 256))) ∧
  (let can := fun (g : Nat) => s.dev.hhpUp g = true ∧ s.dev.ringsOn g = true ∧ s.dev.getFn g true (fun h => h.halted) = false ∧
     s.dev.fd (Reg.HQ.CMDHEAD.hubAt [g]) 11 0 ≠ s.dev.fd (Reg.HQ.CMDTAIL.hubAt [g]) 11 0 ∧ s.dev.outstanding g < 8 ∧ s.dev.outstanding g < s.dev.freeEntries g
   let dist := fun (g : Nat) => (g + 8 - s.dev.served % 9) % 9
   let turn := can f ∧ ∀ g < 9, can g → dist f ≤ dist g
   let c := parseCmd (s.dev.hostRead (s.dev.rd64 Reg.HQ.CMDBASE 8 [f] + 64 * head) 64)
   let d := { s.dev with served := f }
   (¬turn → ∀ err : Bool, Runs (.commandFetch f err) s s.dev) ∧
   (turn → Runs (.commandFetch f true) s (d.wb stat 2 true)) ∧
   (turn → ((queued ++ [c]).head?).any (fun x => knownOpc x.opc) = true →
     Runs (.commandFetch f false) s (((d.wr cmdHead ((head + 1) % size)).fn f (fun h => { h with queued := h.queued ++ [c] })).wb stat 0 true)) ∧
   (turn → queued = [] → knownOpc c.opc = false → waiting s.dev = [] → s.dev.getFn f none (fun h => h.long) = none →
     apart (s.dev.fd (Reg.HQ.IRQ.hubAt [f]) 5 0) → ∃ t : Dev, Runs (.commandFetch f false) s t ∧ t.fd cmdHead 11 0 = (head + 1) % size ∧
       t.getFn f [c] (fun h => h.queued) = [] ∧ t.fb stat 0 = false ∧ advanced t ∧
       t.hostRead slot 64 = (ph :: 0 :: (toBytes 2 c.cid ++ [if s.dev.sessionOpen f then 3 else 1, 0, 0, 0] ++ List.replicate 56 0)).map (· % 256))) ∧
  (∀ vec : Fin 64,
    let limit := 1000 * s.dev.fd (Reg.HQ.IRQ.hubAt [f]) 31 24
    let mask := Reg.HQ.MSIXV.hubAt [f, vec]
    let kept := s.dev.getFn f none (fun h => Sparse.find vec.val h.unsig)
    let d := s.dev.fn f (fun h => { h with unsig := Sparse.drop vec.val h.unsig })
    (kept = none → Runs (.msixCoalesceTimeout f vec) s s.dev) ∧
    (∀ k t : Nat, kept = some (k, t) →
      (k = 0 ∨ s.dev.clk < t + limit → Runs (.msixCoalesceTimeout f vec) s s.dev) ∧
      (0 < k → t + limit ≤ s.dev.clk → s.dev.fb mask 0 = true →
        Runs (.msixCoalesceTimeout f vec) s (d.wr64 Reg.HQ.PBA 8 [f] (s.dev.rd64 Reg.HQ.PBA 8 [f] ||| 2 ^ vec.val))) ∧
      (0 < k → t + limit ≤ s.dev.clk → s.dev.fb mask 0 = false →
        Runs (.msixCoalesceTimeout f vec) s (d.hostWrite (msg vec) (toBytes 4 (s.dev.rd (Reg.HQ.MSIXD.hubAt [f, vec])))))))

/-- R422, R423, R427, R428, R437, R510: OPEN with major version 1 opens the session and answers both versions, the loader's minor version, the function, the firmware
version and the serial number; with another major it completes with VERSION, in an open session or with a bad argument with BADARG, the session as it was.
CLOSE ends the session: its loads are abandoned, its long command and its waiting notices are gone; without a session it completes with NOTOPEN. Neither does anything where it is
not the next command to begin. FLR ends the session too and leaves the function's state and its HQ page at reset, a hot reset closes every session and discards
every command; both stop the functions' DMA channels, and no section but one that was being loaded changes its run state.
Choices of the model in it: log 34. -/
def Obligations.HostSessions : Prop := ∀ (s : State) (f : Fin 9), s.up →
  let ctl := Reg.HQ.CTL.hubAt [f]
  let queued := fun (d : Dev) => d.getFn f [] (fun h => h.queued)
  let pop := fun (h : HostFn) => { h with queued := h.queued.tail }
  let parked := fun (t : Dev) => ∀ n < 8, s.dev.runState n ≠ stSLIPWAY → t.runState n = s.dev.runState n
  let stopped := fun (t : Dev) (g : Nat) => (g = 0 → t.hdma = Vector.replicate 2 DmaCh.start ∧ ∀ c < 2, t.dmaState 8 c = dmIDLE) ∧
    (0 < g → t.getSec (g - 1) (Vector.replicate 4 DmaCh.start) (fun x => x.dma) = Vector.replicate 4 DmaCh.start ∧ ∀ c < 4, t.dmaState (g - 1) c = dmIDLE)
  ((∀ c rest, queued s.dev = c :: rest → c.opc ≠ ocOPEN) → Runs (.openCmd f) s s.dev) ∧
  ((∀ c rest, queued s.dev = c :: rest → c.opc ≠ ocCLOSE) → Runs (.closeCmd f) s s.dev) ∧
  (∀ c rest, queued s.dev = c :: rest → rest.head?.all (fun y => knownOpc y.opc) = true →
    let fin := fun (d : Dev) (st : Nat) (data : List Nat) => (d.fn f pop).complete f c.cid st data
    let extra := fun (k : Nat) => c.clean = false ∨ ∃ i, k ≤ i ∧ i < 32 ∧ c.arg.getD i 0 ≠ 0
    (c.opc = ocOPEN →
      let minor := min 1 (c.arg.getD 1 0)
      let data := [1, minor, Config.loaderMinor.toNat, f.val] ++ toBytes 4 Config.firmwareVersion.toNat ++ toBytes 8 Config.serial.toNat
      let opened := (s.dev.wb ctl 1 true).fn f (fun h => { h with minor := minor })
      (extra 2 → Runs (.openCmd f) s (fin s.dev 4 [])) ∧
      (¬extra 2 → s.dev.fb ctl 1 = true → Runs (.openCmd f) s (fin s.dev 4 [])) ∧
      (¬extra 2 → s.dev.fb ctl 1 = false → c.arg.getD 0 0 ≠ 1 → Runs (.openCmd f) s (fin s.dev 2 [])) ∧
      (¬extra 2 → s.dev.fb ctl 1 = false → c.arg.getD 0 0 = 1 →
        (f.val ≠ 0 ∨ (s.dev.boot.causeDue = false ∧ s.dev.boot.backupDue = false ∧ s.dev.inSafe = false) → Runs (.openCmd f) s (fin opened 0 data)) ∧
        ∃ d : Dev, Runs (.openCmd f) s d ∧ d.fb ctl 1 = true ∧ d.getFn f 9 (fun h => h.minor) = minor ∧ queued d = rest ∧ d.secs = s.dev.secs ∧
          (f.val = 0 → d.boot.causeDue = false ∧ d.boot.backupDue = false))) ∧
    (c.opc = ocCLOSE →
      let waits := ∃ y ∈ s.dev.twin.fwd, y.asker = some (.host f c.cid)
      (waits → Runs (.closeCmd f) s s.dev) ∧
      (¬waits → s.dev.fb ctl 1 = false → Runs (.closeCmd f) s (fin s.dev 1 [])) ∧
      (¬waits → s.dev.fb ctl 1 = true → extra 0 → Runs (.closeCmd f) s (fin s.dev 4 [])) ∧
      (¬waits → s.dev.fb ctl 1 = true → ¬extra 0 → ∃ t : Dev, Runs (.closeCmd f) s t ∧ t.fb ctl 1 = false ∧ queued t = rest ∧
        t.getFn f (some c) (fun h => h.long) = none ∧ t.getFn f [] (fun h => h.waiting) = [] ∧ t.getFn f true (fun h => h.lost) = false ∧
        t.loads = s.dev.loads.filter (fun x => !(x.fn == f.val && !x.auto)) ∧ parked t))) ∧
  (∃ d : Dev, Runs (.flr f) s d ∧ d.getFn f HostFn.start id = HostFn.start ∧
    (∀ l : Loc, l.key / 2 ^ 32 = 8 → Reg.HQ.CTL.base + 0x1000 * f.val ≤ l.key % 2 ^ 32 → l.key % 2 ^ 32 < Reg.HQ.CTL.base + 0x1000 * f.val + 0x1000 →
      d.rd l = l.reset % 2 ^ 32) ∧
    d.loads = s.dev.loads.filter (fun x => !(x.fn == f.val && !x.auto)) ∧ (∀ y ∈ d.twin.fwd, ∀ cid, y.asker ≠ some (.host f cid)) ∧
    stopped d f ∧ parked d) ∧
  (∃ d : Dev, Runs .hotReset s d ∧ parked d ∧ d.loads = s.dev.loads.filter (fun x => x.auto || decide (9 ≤ x.fn)) ∧
    ∀ g < 9, d.fb (Reg.HQ.CTL.hubAt [g]) 1 = false ∧ d.getFn g [] (fun h => h.queued) = [] ∧ d.getFn g none (fun h => h.long) = none ∧
      d.getFn g [] (fun h => h.waiting) = [] ∧ stopped d g)

/-- R387, R421, R423, R424, R427, R239, R306: the short commands of a host function. A command that is not the next to begin, or waits for the twin's
answer, does nothing; one with an error completes with it. A run command acts as the write of SCTL.CMD, START and STEP after their registers are written, and completes with 0 or with class 1
and CMDSTAT.ERR; forwarded to the twin it waits for RUNACK; with NODES it becomes the long command and goes to each node as COMMAND. QUEUE_RESET, CAPTURE_ARM,
CAPTURE_DISARM and READ_FAULTS act as the section's own register commands and complete with the count of discarded words, with class 3 and STAT.ERR, with 0, and with the record before it is
cleared; in a section that is off nothing happens but the completion. TIME_SET writes its three registers and SETCMD. A completion takes the command from the queue
and writes its entry (HostRings). Choices of the model in it: log 34. -/
def Obligations.HostShortCommands : Prop := ∀ (s : State) (f : Fin 9), s.up →
  let queued := s.dev.getFn f [] (fun h => h.queued)
  let runs := [(0x20, Instr.hhpStart f), (0x21, .hhpPause f), (0x22, .hhpResume f), (0x23, .hhpStep f), (0x24, .hhpStop f), (0x25, .hhpRestart f)]
  let others := (List.range 4).flatMap (fun k => [(ocCARM, Instr.captureArm f (Fin.ofNat 4 k)), (ocCDISARM, .captureDisarm f (Fin.ofNat 4 k))]) ++
    [(ocQRESET, .queueReset f), (ocFAULTS, .readFaults f), (ocTIME, .timeSet f)]
  (∀ p ∈ runs ++ others, (∀ c rest, queued = c :: rest → c.opc ≠ p.1) → Runs p.2 s s.dev) ∧
  (∀ (c : HostCmd) (rest : List HostCmd), queued = c :: rest →
    let n := cmdSect f c
    let arg := fun (i k : Nat) => ofBytes ((c.arg.drop i).take k)
    let fin := fun (d : Dev) (st : Nat) (bs : List Nat) => (d.finish f c st bs).settleQueue f
    let waits := ∃ y ∈ s.dev.twin.fwd, y.asker = some (.host f c.cid)
    let e := s.dev.cmdErr f c
    (∀ (d : Dev) (st : Nat) (bs : List Nat), (∃ ys, d.getFn f [] (fun h => h.queued) = c :: ys ∧ ys.head?.all (fun y => knownOpc y.opc) = true) →
      fin d st bs = (d.fn f (fun h => { h with queued := h.queued.tail })).complete f c.cid st bs) ∧
    (s.dev.sessionOpen f = false → c.opc ≠ ocOPEN → e = 1) ∧
    (∀ p ∈ runs ++ others, c.opc = p.1 → isLong c = false →
      (waits → Runs p.2 s s.dev) ∧ (¬waits → e ≠ 0 → Runs p.2 s (fin s.dev e []))) ∧
    (∀ p ∈ runs, c.opc = p.1 → nodesOf c = [] → ¬waits → e = 0 →
      let begins := p.1 = 0x20 ∨ p.1 = 0x23
      let d0 := if p.1 = 0x23 then s.dev.wr (Reg.SCTL.STEPK.of n) (arg 4 4) else s.dev
      let d1 := if begins then (d0.wr64 Reg.SCTL.STIME n [] (arg 8 6)).wr (Reg.SCTL.STRIG.of n) (arg 2 2 &&& Reg.SCTL.STRIG.mask false (fun t => t == .rw)) else d0
      let d2 := d1.runCmd n (p.1 - 0x1F) (if begins then arg 0 1 else 0) (some (.host f c.cid))
      let err := d2.fd (cmdstat n) 3 0
      (s.dev.sectionOn n = false → Runs p.2 s (fin s.dev 0x101 [])) ∧
      (s.dev.sectionOn n = true → err ≠ 0 → Runs p.2 s (fin d2 (0x100 + err) [])) ∧
      (s.dev.sectionOn n = true → err = 0 → d2.twin.fwd.length ≤ s.dev.twin.fwd.length → Runs p.2 s (fin d2 0 [])) ∧
      (s.dev.sectionOn n = true → err = 0 → s.dev.twin.fwd.length < d2.twin.fwd.length → Runs p.2 s d2) ∧
      (s.dev.sectionOn n = true → d2.pairedPrimary = false → ∀ (i : Fin 8) (mode : Fin 4), i.val = n → mode.val = arg 0 1 →
        ∀ q ∈ [(0x20, Instr.start i mode), (0x21, .pause i), (0x22, .resume i), (0x23, .stepRun i mode), (0x24, .stop i), (0x25, .restart i)],
          q.1 = p.1 → Runs q.2 { s with dev := d1 } d2)) ∧
    (∀ p ∈ runs, c.opc = p.1 → nodesOf c ≠ [] →
      let begun := s.dev.fn f (fun h => { h with queued := h.queued.tail, long := some c })
      let long := s.dev.getFn f none (fun h => h.long)
      (long ≠ none → Runs p.2 s s.dev) ∧
      (long = none → e ≠ 0 → Runs p.2 s ((begun.finishLong f c.cid e []).settleQueue f)) ∧
      (long = none → e = 0 → Runs p.2 s ((begun.relay c (nodesOf c) (some (f.val, c.cid))).settleQueue f)) ∧
      (long = none → e = 0 → (p.1 = 0x20 ∨ p.1 = 0x23 → arg 0 1 ≠ 1) →
        let tag := s.dev.sys.nextTag % 4096
        let own := s.dev.nodeNo
        (∀ r ∈ s.dev.sys.relays, r.tag ≠ tag) →
        (∀ m ∈ nodesOf c, m ≠ own ∧ (Sparse.find m s.dev.sys.registry).any (fun x => !x.lost) = true ∧ (Sparse.find m s.dev.sys.routes).isSome = true) →
        ∃ t : Dev, Runs p.2 s t ∧ t.getFn f none (fun h => h.long) = some c ∧ t.sys.nextTag = s.dev.sys.nextTag + 1 ∧
          t.sys.relays = s.dev.sys.relays ++ [⟨tag, some (f.val, c.cid), nodesOf c, [], none, none, none⟩] ∧
          ∀ m ∈ nodesOf c, ∀ k, Sparse.find m s.dev.sys.routes = some k → ∃ x ∈ (t.getBundle k).outPkts, x.chan = 26 ∧
            x.words = [m * 32, own * 32, 0, 4, tag, c.opc, 0] ++ toBytes 2 c.cid ++ [c.sect, 0, 0, 0] ++ List.replicate 8 0 ++ toBytes 8 c.blen ++
              List.replicate 8 0 ++ ((c.arg.take 16 ++ List.replicate 16 0).take 16) ++ List.replicate 16 0)) ∧
    (¬waits → e = 0 → s.dev.sectionOn n = false →
      (c.opc = ocQRESET → Runs (.queueReset f) s (fin s.dev 0 [])) ∧ (∀ ph, c.opc = ocCDISARM → Runs (.captureDisarm f ph) s (fin s.dev 0 [])) ∧
      (c.opc = ocFAULTS → Runs (.readFaults f) s (fin s.dev 0 [])) ∧
      (∀ ph, c.opc = ocCARM → s.dev.fd (Reg.CAPT.STAT.of n) 31 28 = 0 → Runs (.captureArm f ph) s (fin s.dev 0 []))) ∧
    (∀ i : Fin 8, i.val = n → ¬waits → e = 0 → s.dev.sectionOn i = true →
      (∀ q : Fin 64, c.opc = ocQRESET → q.val = c.arg.getD 0 0 → ∃ d : Dev, Runs (.ferryRst i q) s d ∧
        Runs (.queueReset f) s (fin d 0 (toBytes 2 (s.dev.getQ i q 0 (fun x => x.words.length))))) ∧
      (∀ ph : Fin 4, c.opc = ocCARM → ∃ d : Dev, Runs (.captArm i ph) s d ∧
        Runs (.captureArm f ph) s (fin d (if d.fd (Reg.CAPT.STAT.of i) 31 28 = 0 then 0 else 0x300 + d.fd (Reg.CAPT.STAT.of i) 31 28) [])) ∧
      (∀ ph : Fin 4, c.opc = ocCDISARM → ∃ d : Dev, Runs (.captDisarm i ph) s d ∧ Runs (.captureDisarm f ph) s (fin d 0 [])) ∧
      (let record := toBytes 4 (s.dev.rd (Reg.SFLT.FSTAT.of i)) ++ toBytes 4 (s.dev.rd (Reg.SFLT.FLOC.of i)) ++ toBytes 8 (s.dev.rd64 Reg.SFLT.FCYC i) ++
         toBytes 4 (s.dev.rd (Reg.SFLT.FLATER.of i)) ++ toBytes 4 (s.dev.rd (Reg.SFLT.FHALT.of i))
       (c.opc = ocFAULTS → c.arg.getD 0 0 ≠ 1 → Runs (.readFaults f) s (fin s.dev 0 record)) ∧
       (c.opc = ocFAULTS → c.arg.getD 0 0 = 1 → ∃ d : Dev, Runs (.faultRecordClear i) s d ∧ Runs (.readFaults f) s (fin d 0 record)))) ∧
    (c.opc = ocTIME → ¬waits → e = 0 → Runs (.timeSet f) s (fin ((((s.dev.wr Reg.TIME.SETF.hubAt (arg 4 4)).wr Reg.TIME.SETL.hubAt (arg 8 4)).wr
      Reg.TIME.SETH.hubAt (arg 12 4)).timg (fun t => { t with setDue := some (c.arg.getD 0 0 != 0) })) 0 [])))

/-- R421, R426, R427, R495: ATTEST and SYSTEM_STATUS begin when they are next and no long command runs, and do nothing otherwise. ATTEST writes its 9,216 bytes to BUF, a body
with the nonce, its SHA-384 and the signatures over it, and completes with that length. SYSTEM_STATUS completes with its DATA, and with a BUF writes the 2,048 bytes
of the registry, its unstated part free; a manager asks the nodes it knows first. A missing, unaligned or short buffer completes with BUFFER, a failed transfer with
HOSTERR. R405, R408 to R411, R454: a BAR2 access waits for its banks. In a section that is ON the bytes of a posted write are stored, line by line, where the
window and the regions of master 21 put them, poisoned where the packet was, and every other byte stays; a read answers the stored bytes, poisoned where a line fails its check or meets an
error that cannot be corrected. A refused access counts once in BADACC; an OFF section, or an unmapped offset, reads as zeros and discards the write.
Choices of the model in it: logs 37, 54, 81 and 87. -/
def Obligations.HostReportsAndWindow : Prop :=
  (∀ (s : State) (f : Fin 9) (err : Bool), s.up →
    let queued := s.dev.getFn f [] (fun h => h.queued)
    let long := s.dev.getFn f none (fun h => h.long)
    ((long ≠ none ∨ ∀ c rest, queued = c :: rest → c.opc ≠ ocATTEST) → Runs (.attest f err) s s.dev) ∧
    ((long ≠ none ∨ ∀ c rest, queued = c :: rest → c.opc ≠ ocSTATUS) → Runs (.systemStatus f err) s s.dev) ∧
    (∀ (c : HostCmd) (rest : List HostCmd), queued = c :: rest → long = none →
      let d := s.dev.fn f (fun h => { h with queued := h.queued.tail, long := some c })
      let fin := fun (d : Dev) (st : Nat) (data : List Nat) => ((d.fn f (fun h => { h with long := none })).complete f c.cid st data).settleQueue f
      let e := s.dev.cmdErr f c
      (c.opc = ocATTEST →
        let buf := c.buf ≠ 0 ∧ c.buf % 64 = 0 ∧ 9216 ≤ c.blen
        let report := d.attestReport c.arg
        (e ≠ 0 → Runs (.attest f err) s (fin d e [])) ∧
        (e = 0 → ¬buf → Runs (.attest f err) s (fin d 6 [])) ∧
        (e = 0 → buf → err = true → Runs (.attest f err) s (fin d 7 [])) ∧
        (e = 0 → buf → err = false → Runs (.attest f err) s (fin (d.hostWrite c.buf report) 0 [0, 36, 0, 0])) ∧
        report.length = 9216 ∧ report.take 6 = [0x48, 0x56, 0x41, 0x54, 1, 0] ∧ (report.drop 32).take 32 = padTo 32 c.arg ∧
        (report.drop 928).take 48 = padTo 48 (Config.sha384 (report.take 928)) ∧
        (report.drop 976).take 384 = padTo 384 (Config.sigMake 0 (Config.sha384 (report.take 928)))) ∧
      (c.opc = ocSTATUS →
        let buf := c.buf = 0 ∨ (c.buf % 64 = 0 ∧ 2048 ≤ c.blen)
        let nodes := if s.dev.role = 1 then (s.dev.sys.registry.filter (fun e => !e.2.lost)).map (fun e => e.1) else []
        let status := fun (d : Dev) => toBytes 4 (d.rd Reg.SYS.CFG.hubAt) ++ toBytes 4 (d.rd Reg.SYS.STAT.hubAt) ++ toBytes 8 (d.rd64 Reg.SYS.READYT 8)
        (e ≠ 0 → Runs (.systemStatus f err) s (fin d e [])) ∧
        (e = 0 → ¬buf → Runs (.systemStatus f err) s (fin d 6 [])) ∧
        (e = 0 → buf → c.buf ≠ 0 → err = true → Runs (.systemStatus f err) s (fin d 7 [])) ∧
        (e = 0 → buf → (c.buf = 0 ∨ err = false) → nodes ≠ [] → Runs (.systemStatus f err) s ((d.relay c nodes (some (f.val, c.cid))).settleQueue f)) ∧
        (e = 0 → nodes = [] → c.buf = 0 → Runs (.systemStatus f err) s (fin d 0 (status s.dev))) ∧
        (e = 0 → nodes = [] → buf → c.buf ≠ 0 → err = false → ∃ p < 128, Runs (.systemStatus f err) s
          (fin ({ d with free := d.free + 1 }.hostWrite c.buf (d.registryBytes p)) 0 (status s.dev))) ∧
        ∀ p, (d.registryBytes p).length = 2048 ∧ (s.dev.role = 0 → ∀ k < 128, ((d.registryBytes p).drop (16 * k)).take 16 =
          if k = s.dev.nodeNo then [k, 1, 0, 0, 0, 0, 0, 0] ++ toBytes 8 s.dev.serialNo else List.replicate 16 0)))) ∧
  (∀ (s : State) (n : Fin 8) (off : BitVec 28) (bs : List (BitVec 8)) (len : Fin 4097) (ep : Bool) (errs : List (Fin 2048 × Fin 3)) (lat : BitVec 16), s.up →
    let o := off.toNat
    let st := s.dev.pstate n
    let sma := fun (x : Nat) => s.dev.bar2Sma n x
    let d := { s.dev with served := n.val + 1 }
    let refused := fun (d : Dev) => d.bump (Reg.HQ.BADACC.hubAt [n.val + 1])
    let w := Instr.bar2Write n off bs ep errs
    let r := Instr.bar2Read n off len errs lat
    let answers := fun (d : Dev) (bytes : List (BitVec 8)) (x : Nat) => { d with
      rdata := bytes
      rstat := x }
    let oneLine := 0 < bs.length ∧ o % 64 + bs.length ≤ 64
    let clean := s.dev.getSec n [(0, [])] (fun x => x.ctl.dirty) = []
    (s.dev.bar2Waits n o bs.length true = true → Runs w s s.dev) ∧
    (s.dev.bar2Waits n o len false = true → Runs r s s.dev) ∧
    (bs = [] → s.dev.bar2Waits n o 0 true = false → st ≠ 2 → Runs w s d) ∧
    (st = 0 → bs ≠ [] → Runs w s (refused d)) ∧
    (st ≠ 0 → st ≠ 2 → oneLine → sma o ≠ none → Runs w s (refused (d.fenceDrop n 16))) ∧
    (sma o = none → oneLine → Runs w s (refused d)) ∧
    (∀ a, st = 2 → sma o = some a → oneLine → s.dev.bar2Waits n o bs.length true = false →
      let part := bs.map BitVec.toNat
      let tag := if bs.length = 64 then some (⟨some (BitVec.ofNat 32 (crc32c part)), ep⟩ : LineTag) else none
      let q := (d.nocStat n 21 bs.length none).svcWrite n 21 a part tag true (errPairs errs)
      (q.2.isOk = false → Runs w s (refused q.1)) ∧ (q.2.isOk = true → ep = false → Runs w s q.1)) ∧
    (∀ a j : Nat, st = 2 → s.dev.bar2Waits n o bs.length true = false → errs = [] → clean → (∀ i < bs.length, sma (o + i) = some (a + i)) →
      let z := fun (i : Nat) => (s.dev.region n 21 j (a + i)).getD (a + i)
      (∀ p ∈ lineParts o bs.length, s.dev.allow n 21 (a + p.1) p.2 true = some j) →
      ((∀ i < bs.length, inSpad (z i) = true) ∨ (∀ i < bs.length, inHbm (z i) = true)) → (∀ i < bs.length, s.dev.reachable n (z i) = true) →
      (∀ i < bs.length, ∀ k < bs.length, z i = z k → i = k) →
      ∃ t : Dev, Runs w s t ∧ t.served = n.val + 1 ∧ (∀ i < bs.length, t.memByte n (z i) = (bs.getD i 0).toNat) ∧
        (∀ m x : Nat, (inSpad x = true ∨ hbmBase ≤ x) → (m = n.val → ∀ i < bs.length, x ≠ z i) → t.memByte m x = s.dev.memByte m x) ∧
        (ep = true → ∀ i < bs.length, (t.lineTag n (z i / 64)).poison = true) ∧
        t.rd (Reg.HQ.BADACC.hubAt [n.val + 1]) = s.dev.rd (Reg.HQ.BADACC.hubAt [n.val + 1])) ∧
    (st = 0 ∨ sma o = none → Runs r s (answers (refused d) (List.replicate len 0) 0)) ∧
    (st ≠ 0 → st ≠ 2 → sma o ≠ none → Runs r s (answers (refused d) [] 2)) ∧
    (∀ a, st = 2 → sma o = some a → s.dev.bar2Waits n o len false = false →
      let q := (s.dev.nocStat n 21 len (some lat.toNat)).svcRead n 21 a len (errPairs errs)
      (q.2.1 = .range ∨ q.2.1 = .domainOff → Runs r s (answers { refused q.1 with served := n.val + 1 } [] 2)) ∧
      (∀ j : Nat, s.dev.allow n 21 a len false = some j → 0 < len.val → clean →
        let z := fun (i : Nat) => (s.dev.region n 21 j (a + i)).getD (a + i)
        ((∀ i < len.val, inSpad (z i) = true) ∨ (∀ i < len.val, inHbm (z i) = true)) →
        ((∃ i < len.val, s.dev.reachable n (z i) = false) → ∃ t : Dev, Runs r s t ∧ t.rdata = [] ∧ t.rstat = 2 ∧
          t.rd (Reg.HQ.BADACC.hubAt [n.val + 1]) = satAdd 32 (s.dev.rd (Reg.HQ.BADACC.hubAt [n.val + 1])) 1) ∧
        ((∀ i < len.val, s.dev.reachable n (z i) = true) → ∃ t : Dev, Runs r s t ∧ t.served = n.val + 1 ∧
          t.rdata = (List.range len).map (fun i => BitVec.ofNat 8 (s.dev.memByte n (z i))) ∧
          t.rstat = (if (∃ i < len.val, s.dev.lineBad n (z i / 64) = true) ∨ (∃ e ∈ errPairs errs, 2 * (a / 2 + e.1) < a + len.val ∧ e.2 = 2) then 1 else 0) ∧
          ∀ m x : Nat, t.memByte m x = s.dev.memByte m x)) ∧
      (s.dev.allow n 21 a len false = none → ∃ t : Dev, Runs r s t ∧ t.rdata = [] ∧ t.rstat = 2 ∧
        t.rd (Reg.HQ.BADACC.hubAt [n.val + 1]) = satAdd 32 (s.dev.rd (Reg.HQ.BADACC.hubAt [n.val + 1])) 1 ∧
        t.rd (Reg.SPAD.RVCNT.of n) = satAdd 32 (s.dev.rd (Reg.SPAD.RVCNT.of n)) 1)))

/-- R274, R341, R478, R481, R482, R484, R486 to R488, R491: what the end of each boot stage leaves. Stage 0 shows the serial number and the fuses and goes to stage 1, or to SAFE
where the fuses fail their check; stage 1 to stage 2, or to SAFE without a flash; stage 2 to stage 3 with the first copy that verifies, or to SAFE with the
causes of both; stage 3 puts the record's firmware into the device controller, which starts at its SRAM, loads SYS, TWIN, the lanes and the parked cells, and turns every section on;
stage 4, once every section is ON, to stage 5 with the lanes that train by themselves training and the system on its way. In every other state, and while the
device is held in reset, nothing happens. Choices of the model in it: logs 16 and 32. -/
def Obligations.BootStages : Prop :=
  (∀ (s : State) (o : Fin 4), s.dev.held = true → Runs (.bootStageComplete o) s s.dev) ∧
  (∀ (s : State) (o : Fin 4), s.up →
  let stage := s.dev.fd bootStat 31 28
  let safe := fun (d : Dev) (a b : Nat) => Runs (.bootStageComplete o) s d ∧ d.fd bootStat 31 28 = 15 ∧ d.fd bootStat 15 8 = a % 256 ∧ d.fd bootStat 23 16 = b % 256 ∧
    d.rd Reg.BOOT.BOOTUS.hubAt = (s.dev.clk - s.dev.boot.releaseT) / 1000 % 2 ^ 32 ∧ d.secs = s.dev.secs
  (5 ≤ stage → Runs (.bootStageComplete o) s s.dev) ∧
  (stage = 0 → ∃ d : Dev, Runs (.bootStageComplete o) s d ∧ (o.val ≠ 1 → d.fd bootStat 31 28 = 1 ∧ d.fd bootStat 25 24 = 1) ∧ (o.val = 1 → safe d bcOTP 0) ∧
    d.rd64 Reg.BOOT.SERIAL 8 = Config.serial.toNat ∧ d.rd Reg.CLK.STAT.hubAt = 6 ∧ d.fd Reg.BOOT.OTPSTAT.hubAt 23 16 = s.otp.count % 256 ∧
    d.fd Reg.BOOT.OTPSTAT.hubAt 7 4 = s.otp.revS.toNat ∧ d.fd Reg.BOOT.OTPSTAT.hubAt 3 0 = s.otp.revR.toNat ∧ d.fb Reg.BOOT.OTPSLOT.hubAt 8 = s.otp.lock ∧
    ∀ k < 4, d.fb Reg.BOOT.OTPSLOT.hubAt k = (vget s.otp.keysR k ⟨0, false⟩).prog ∧ d.fb Reg.BOOT.OTPSLOT.hubAt (k + 4) = (vget s.otp.keysS k ⟨0, false⟩).prog) ∧
  (stage = 1 → o.val = 0 → ∃ d : Dev, safe d bcNOFLASH 0 ∧ d.fd bootStat 25 24 = 0) ∧
  (stage = 1 → o.val ≠ 0 → Runs (.bootStageComplete o) s ((s.dev.wf bootStat 31 28 2).wf bootStat 25 24 (if o.val = 3 then 3 else 2))) ∧
  (stage = 2 →
    let keyless := ∀ k < 4, (vget s.otp.keysR k ⟨0, false⟩).prog = false ∧ (vget s.otp.keysS k ⟨0, false⟩).prog = false
    let uses := fun (d : Dev) (b : List Nat) (p : Nat × Nat) => Runs (.bootStageComplete o) s d ∧ d.fd bootStat 31 28 = 3 ∧ d.secs = s.dev.secs ∧
      d.boot.booted = some (Hvbr.record b p.1 p.2) ∧ d.rd Reg.BOOT.SECVER.hubAt = Hvbr.secver b % 2 ^ 32
    let a := s.dev.copyBytes copyA
    let b := s.dev.copyBytes copyB
    (keyless → ∃ d : Dev, safe d bcNOKEY 0) ∧
    (∀ p, ¬keyless → Hvbr.verify a s.otp = .inr p → ∃ d : Dev, uses d a p ∧ d.fb bootStat 27 = s.dev.fb bootStat 27) ∧
    (∀ c p, ¬keyless → Hvbr.verify a s.otp = .inl c → Hvbr.verify b s.otp = .inr p →
      ∃ d : Dev, uses d b p ∧ d.fb bootStat 27 = true ∧ d.fd bootStat 15 8 = c % 256 ∧ d.boot.backupDue = true) ∧
    (∀ c e, ¬keyless → Hvbr.verify a s.otp = .inl c → Hvbr.verify b s.otp = .inl e → ∃ d : Dev, safe d c e)) ∧
  (stage = 3 → s.dev.boot.booted = none → Runs (.bootStageComplete o) s s.dev) ∧
  (∀ r : BootRec, stage = 3 → s.dev.boot.booted = some r → ∃ d : Dev, Runs (.bootStageComplete o) s d ∧ d.fd bootStat 31 28 = 4 ∧ d.ctl.pc = 0x01000000 ∧
    (∀ i < r.devfwCode.length, Sparse.get (fun _ => (0 : BitVec 8)) d.ctl.mem i = BitVec.ofNat 8 (r.devfwCode.getD i 0)) ∧
    d.rd Reg.SYS.CFG.hubAt = leAt r.syscfg 0 1 % 4 * 2 ^ 30 + leAt r.syscfg 1 1 % 128 * 2 ^ 16 + leAt r.syscfg 2 1 % 128 ∧
    (∀ c < 96, d.fd (Reg.DIO.CELL.hubAt [c]) 11 10 = if r.park.getD c 0 % 256 < 3 then r.park.getD c 0 % 256 else 0) ∧
    (∀ l < 256,
      let w := leAt r.tuning (4096 + 4 * l) 4
      let rate := bits (leAt r.tuning (4096 + 16 * (l / 4)) 4) 8 8
      let ctl := laneLoc Reg.LANE.CTL l
      d.fd ctl 22 22 = w % 2 ∧ d.fd ctl 26 25 = w / 2 % 4 ∧ d.fd ctl 24 23 = w / 8 % 4 ∧
      d.rd (laneLoc Reg.LANE.EQTX l) = leAt r.tuning (16 * l + 8 * rate) 4 &&& Reg.LANE.EQTX.mask false (fun t => t == .rw) ∧
      (l % 4 = 0 → d.fb (qctl l) 31 = w.testBit 9 ∧ d.fd (qctl l) 0 0 = rate ∧ d.fb (qctl l) 1 = true)) ∧
    ∀ n < 8, d.fb (sectCtl n) 0 = true ∧ (s.dev.sectBusy n = false → s.dev.pstate n = 0 → d.pstate n = 1 ∧ d.sectBusy n = true)) ∧
  (stage = 4 → (∃ n < 8, s.dev.sectionOn n = false) → Runs (.bootStageComplete o) s s.dev) ∧
  (stage = 4 → (∀ n < 8, s.dev.sectionOn n = true) → ∃ d : Dev, d = ((s.dev.wb Reg.CLK.STAT.hubAt 3 true).wf bootStat 31 28 5).wr Reg.BOOT.BOOTUS.hubAt
      ((s.dev.clk - s.dev.boot.releaseT) / 1000) ∧
    Runs (.bootStageComplete o) s (d.each (List.range 256)
      (fun l d => if d.laneAuto l && d.laneState l == lnDISABLED then d.laneTrain l else d)).sysAdvance))

/-- R492, R497: FLCMD.GO is taken at READY or in SAFE while no operation runs at an aligned address: BUSY, with the operation and its address held;
otherwise ERR is set and nothing runs. The end of an operation clears BUSY: a read fills FLBUF, an erase leaves 64 KiB of 0xFF, a program stores FLBUF
over erased bytes; a failure sets ERR and leaves every byte outside what was to change; with none in progress nothing happens. R484, R485, R489, R490, R492: OTPPROG.GO is taken in SAFE,
before LOCK, while no programming runs, for a slot that is not programmed; otherwise it sets ERR. Its end blows the fuses of the slot from FLBUF and its
programmed bit, or LOCK, and nothing else; one that fails sets ERR and blows some of these. BOOT_ADVANCE raises COUNT to the booted record's security version where
it asks for it, up to 64, and blows the revocations it names but those of the boot-key slots it was verified with; in SAFE, or without a record, it does nothing.
Choices of the model in it: log 33. -/
def Obligations.FlashAndFuses : Prop :=
  (∀ (s : State), s.up →
    let a := s.dev.rd Reg.BOOT.FLADDR.hubAt
    let cmd := Reg.BOOT.FLCMD.hubAt
    let byte := fun (d : Dev) (k : Nat) => Sparse.get (fun _ => (255 : BitVec 8)) d.boot.flash k
    let boots := s.dev.fd bootStat 31 28 = 5 ∨ s.dev.fd bootStat 31 28 = 15
    (∀ p ∈ [(1, 256, Instr.flcmdRead), (2, 256, .flcmdProgram), (3, 65536, .flcmdErase)],
      (boots → s.dev.fb cmd 30 = false → a % p.2.1 = 0 →
        Runs p.2.2 s { (s.dev.wf cmd 3 0 p.1).wb cmd 30 true with boot := { s.dev.boot with flOp := some (p.1, a) } }) ∧
      ((¬boots ∨ s.dev.fb cmd 30 = true ∨ a % p.2.1 ≠ 0) → Runs p.2.2 s ((s.dev.wf cmd 3 0 p.1).wb cmd 29 true))) ∧
    (s.dev.boot.flOp = none → ∀ fail : Bool, Runs (.flcmdDone fail) s s.dev) ∧
    (∀ op at_ : Nat, s.dev.boot.flOp = some (op, at_) →
      let done := fun (d : Dev) (fail : Bool) => Runs (.flcmdDone fail) s d ∧ d.fb cmd 30 = false ∧ d.boot.flOp = none ∧ d.secs = s.dev.secs ∧
        (fail = true → d.fb cmd 29 = true)
      (op = 1 → ∃ d : Dev, done d false ∧ d.boot.flash = s.dev.boot.flash ∧ ∀ i < 64, d.rd (Reg.BOOT.FLBUF.hubAt [i]) = ofBytes (s.dev.flashRead (at_ + 4 * i) 4)) ∧
      (op = 2 → ∃ d : Dev, done d false ∧ (∀ i < 256, byte s.dev (at_ + i) = 255 → byte d (at_ + i) = BitVec.ofNat 8 (s.dev.flbuf.getD i 0)) ∧
        ∀ k : Nat, k < at_ ∨ at_ + 256 ≤ k → byte d k = byte s.dev k) ∧
      (op = 3 → ∃ d : Dev, done d false ∧ ∀ k : Nat, byte d k = if at_ ≤ k ∧ k < at_ + 65536 then 255 else byte s.dev k) ∧
      ∃ d : Dev, done d true ∧ (op = 1 → d.boot.flash = s.dev.boot.flash) ∧
        ∀ k : Nat, k < at_ ∨ at_ + (if op = 2 then 256 else 65536) ≤ k → byte d k = byte s.dev k)) ∧
  (∀ (s : State), s.up →
    let l := Reg.BOOT.OTPPROG.hubAt
    let safe := s.dev.fd bootStat 31 28 = 15
    let slotOf := fun (o : OtpSt) (alg k : Nat) => vget (if alg = 0 then o.keysR else o.keysS) k ⟨0, false⟩
    (∀ (alg : Fin 2) (slot : Fin 4),
      let shown := fun (d : Dev) => Runs (.otpProgramSlot alg slot) s d ∧ d.secs = s.dev.secs ∧ d.fd l 1 0 = slot.val ∧ d.fd l 4 4 = alg.val ∧ d.fb l 8 = false
      let free := safe ∧ s.otp.lock = false ∧ s.dev.fb l 30 = false ∧ (slotOf s.otp alg slot).prog = false
      (free → ∃ d : Dev, shown d ∧ d.boot = { s.dev.boot with otpOp := some (false, alg.val, slot.val) } ∧ d.fb l 30 = true) ∧
      (¬free → ∃ d : Dev, shown d ∧ d.boot = s.dev.boot ∧ d.fb l 29 = true)) ∧
    (let free := safe ∧ s.otp.lock = false ∧ s.dev.fb l 30 = false
     (free → ∃ d : Dev, Runs .otpProgramLock s d ∧ d.boot = { s.dev.boot with otpOp := some (true, 0, 0) } ∧ d.fb l 30 = true ∧ d.fb l 8 = true) ∧
     (¬free → ∃ d : Dev, Runs .otpProgramLock s d ∧ d.boot = s.dev.boot ∧ d.fb l 29 = true ∧ d.secs = s.dev.secs)) ∧
    (s.dev.boot.otpOp = none → ∀ fail : Bool, Runs (.otpProgramDone fail) s s.dev) ∧
    (∀ (lock : Bool) (alg : Fin 2) (slot : Fin 4), s.dev.boot.otpOp = some (lock, alg.val, slot.val) →
      let key := BitVec.ofNat 384 (ofBytes (s.dev.flbuf.take 48))
      let o := if lock then { s.otp with lock := true }
        else if alg.val = 0 then { s.otp with keysR := vmod s.otp.keysR slot (fun k => { k with fuses := k.fuses ||| key, prog := true }) }
        else { s.otp with keysS := vmod s.otp.keysS slot (fun k => { k with fuses := k.fuses ||| key, prog := true }) }
      (∃ d : Dev, exec (.otpProgramDone false) s = .next { s with dev := d, otp := o } ∧ d.boot.otpOp = none ∧ d.fb l 30 = false ∧
        d.secs = s.dev.secs) ∧
      ∃ (d : Dev) (u : OtpSt), exec (.otpProgramDone true) s = .next { s with dev := d, otp := u } ∧ d.boot.otpOp = none ∧ d.fb l 30 = false ∧ d.fb l 29 = true ∧
        d.secs = s.dev.secs ∧ { u with keysR := s.otp.keysR, keysS := s.otp.keysS, lock := s.otp.lock } = s.otp ∧ (lock = false → u.lock = s.otp.lock) ∧
        (s.otp.lock = true → u.lock = true) ∧
        (∀ a k : Nat, a < 2 → k < 4 → (lock = true ∨ a ≠ alg.val ∨ k ≠ slot.val) → slotOf u a k = slotOf s.otp a k) ∧
        (∀ b < 384, ((slotOf s.otp alg slot).fuses.getLsbD b = true → (slotOf u alg slot).fuses.getLsbD b = true) ∧
          ((slotOf u alg slot).fuses.getLsbD b = true → (slotOf s.otp alg slot).fuses.getLsbD b = true ∨
            (BitVec.ofNat 384 (ofBytes s.dev.flbuf)).getLsbD b = true))) ∧
    (s.dev.boot.booted = none ∨ safe → Runs .bootAdvance s s.dev) ∧
    (∀ r : BootRec, s.dev.boot.booted = some r → ¬safe → ∃ (d : Dev) (o : OtpSt),
      exec .bootAdvance s = .next { s with dev := d, otp := o } ∧
      o.count = (if r.advance then max s.otp.count (min r.secver 64) else s.otp.count) ∧
      (∀ k < 4, o.revR.getLsbD k = (s.otp.revR.getLsbD k || (r.revoke.testBit k && k != r.slotR))) ∧
      (∀ k < 4, o.revS.getLsbD k = (s.otp.revS.getLsbD k || (r.revoke.testBit (k + 4) && k != r.slotS))) ∧
      (∀ k < 4, o.irevR.getLsbD k = (s.otp.irevR.getLsbD k || (leAt r.policy 1 1).testBit k)) ∧
      (∀ k < 4, o.irevS.getLsbD k = (s.otp.irevS.getLsbD k || (leAt r.policy 1 1).testBit (k + 4))) ∧
      o.keysR = s.otp.keysR ∧ o.keysS = s.otp.keysS ∧ o.lock = s.otp.lock ∧ d.secs = s.dev.secs))

/-- R490, R497, R500, R503, R505, R509, R510: every reset of the device leaves boot at stage 0, no section ON, no session, command, load or run, TIME at zero, and host memory (a lost record of an active hub trace apart), the
fuses but those of a programming in progress, and the flash but what an operation in progress was to change, as they stood; PORST_N leaves RSTCAUSE showing POR alone, a
device reset sets the bit of its cause; a supply at its reset level and a lost clock hold the device until its release, and boot starts when nothing else holds it.
Choices of the model in it: logs 3 and 33. -/
def Obligations.DeviceResets : Prop := ∀ (s : State),
  let slotOf := fun (o : OtpSt) (alg k : Nat) => vget (if alg = 0 then o.keysR else o.keysS) k ⟨0, false⟩
  let resets := fun (c : Instr) (d : Dev) => ∃ o : OtpSt, exec c s = .next { s with dev := d, otp := o } ∧
    d.fd bootStat 31 28 = 0 ∧ (∀ n < 8, d.pstate n = 0 ∧ d.runState n = stOFF) ∧ (∀ f < 9, d.sessionOpen f = false ∧ d.getFn f HostFn.start id = HostFn.start) ∧
    d.loads = [] ∧ d.images = [] ∧ (s.dev.traceActive 8 0 = false → d.hostMem = s.dev.hostMem) ∧ d.pow.episode = none ∧ d.pow.throtT = none ∧ d.time = ⟨0, 0, 0⟩ ∧
    d.boot.booted = none ∧ d.boot.flOp = none ∧ d.boot.otpOp = none ∧
    (s.dev.boot.otpOp = none → o = s.otp) ∧
    (∀ op at_ k : Nat, s.dev.boot.flOp = some (op, at_) → op = 1 ∨ k < at_ ∨ at_ + (if op = 2 then 256 else 65536) ≤ k →
      Sparse.get (fun _ => (255 : BitVec 8)) d.boot.flash k = Sparse.get (fun _ => (255 : BitVec 8)) s.dev.boot.flash k) ∧
    (s.dev.boot.flOp = none → d.boot.flash = s.dev.boot.flash) ∧
    (∀ (lock : Bool) (alg slot : Nat), s.dev.boot.otpOp = some (lock, alg, slot) → o.count = s.otp.count ∧ o.revR = s.otp.revR ∧ o.revS = s.otp.revS ∧
      o.irevR = s.otp.irevR ∧ o.irevS = s.otp.irevS ∧ (lock = false → o.lock = s.otp.lock) ∧
      ∀ a k : Nat, k < 4 → (lock = true ∨ (a = 0) ≠ (alg = 0) ∨ k ≠ slot) → slotOf o a k = slotOf s.otp a k)
  (∃ d : Dev, resets .porstN d ∧ d.rd Reg.PWR.RSTCAUSE.hubAt = 1 ∧ d.held = s.dev.held) ∧
  (∀ p ∈ [(Instr.sysrstN, rsSYS), (.supplyResetLevel true, rsCORESUP), (.supplyResetLevel false, rsOTHERSUP), (.refclkLoss, rsCLOCK),
      (.corePllUnlock, rsCLOCK)], ∃ d : Dev, resets p.1 d ∧ d.fb Reg.PWR.RSTCAUSE.hubAt p.2 = true ∧
      (∀ b < 32, b ≠ p.2 → d.fb Reg.PWR.RSTCAUSE.hubAt b = s.dev.fb Reg.PWR.RSTCAUSE.hubAt b) ∧
      d.pow.holdSup = (s.dev.pow.holdSup || p.2 == rsCORESUP || p.2 == rsOTHERSUP) ∧ d.pow.holdClk = (s.dev.pow.holdClk || p.2 == rsCLOCK) ∧
      d.pow.holdHot = s.dev.pow.holdHot) ∧
  (∀ clock : Bool,
    let p := { s.dev.pow with
      holdSup := s.dev.pow.holdSup && clock
      holdClk := s.dev.pow.holdClk && !clock }
    let d := { s.dev with pow := p }
    (p.holdSup = true ∨ p.holdClk = true ∨ p.holdHot = true → Runs (.resetRelease clock) s d) ∧
    (p.holdSup = false → p.holdClk = false → p.holdHot = false → Runs (.resetRelease clock) s { d with boot := { s.dev.boot with releaseT := s.dev.clk } }))

/-- R131, R500, R501, R513: the brownout episode. A warning between 630 and 665 mV sets MON.WARN, stops the recovery timer and begins an episode that asks for half speed, or
keeps the episode in progress at half speed: a return that is only asked for is given up, one under way is turned back by THR; once every running section
holds, their used clusters show THR; once they have switched, the sections run on; a rise above recovery clears WARN and starts the timer, a fall below it stops the timer;
20 µs after the rise the return is asked for; when every section holds again THR clears; and when the clusters show ÷1 the episode ends with BOCNT one higher, BOLAST
its duration, and BROWNOUT sent. Outside these phases nothing happens. Choices of the model in it: log 30. -/
def Obligations.BrownoutEpisode : Prop := ∀ (s : State) (mv : BitVec 10), s.up →
  let mon := Reg.PWR.MON.hubAt
  let ep := s.dev.pow.episode
  let allHold := ∀ n < 8, s.dev.running n = true → s.dev.holding n = true
  let clusters := fun (p : Nat → Nat → Prop) => ∀ n < 8, s.dev.running n = true → ∀ c < 16, (s.dev.usedClusters n).contains c = true → p n c
  let quiet := fun (d : Dev) => d.secs = s.dev.secs ∧ d.hostMem = s.dev.hostMem
  (let low := 630 < mv.toNat ∧ mv.toNat < 665
   let warned := fun (d : Dev) => Runs (.vddCoreWarning mv) s d ∧ d.fb mon 0 = true ∧ d.fb mon 2 = false ∧ d.pow.recT = none ∧ quiet d
   (¬low → Runs (.vddCoreWarning mv) s s.dev) ∧
   (low → ep = none → ∃ d : Dev, warned d ∧ d.fb mon 1 = true ∧ d.pow.episode = some (.reqHalf, s.dev.clk) ∧ d.pow.lowest = mv.toNat) ∧
   (∀ ph t, low → ep = some (ph, t) → ∃ d : Dev, warned d ∧ d.pow.lowest = min s.dev.pow.lowest mv.toNat ∧
     d.pow.episode = some (if ph = .reqFull then .half else if ph = .clearing then .setting else ph, t) ∧
     (ph = .clearing → clusters (fun n c => d.fb (clkstat n c) 6 = true ∧ d.fb (clkstat n c) 4 = true)))) ∧
  (¬allHold → Runs .brownoutAllHolding s s.dev) ∧
  ((ep = none ∨ ∃ ph t, ep = some (ph, t) ∧ ph ≠ .reqHalf ∧ ph ≠ .reqFull) → Runs .brownoutAllHolding s s.dev) ∧
  (∀ t : Nat, ep = some (.reqHalf, t) → allHold → ∃ d : Dev, Runs .brownoutAllHolding s d ∧ d.pow.episode = some (.setting, t) ∧ quiet d ∧
    clusters (fun n c => d.fb (clkstat n c) 6 = true ∧ d.fb (clkstat n c) 4 = true)) ∧
  (∀ t : Nat, ep = some (.reqFull, t) → allHold → ∃ d : Dev, Runs .brownoutAllHolding s d ∧ d.pow.episode = some (.clearing, t) ∧ quiet d ∧
    clusters (fun n c => d.fb (clkstat n c) 6 = false)) ∧
  ((ep = none ∨ ∃ ph t, ep = some (ph, t) ∧ ph ≠ .setting ∧ ph ≠ .clearing) → Runs .thrSwitchDone s s.dev) ∧
  (∀ t : Nat, ep = some (.setting, t) → ∃ d : Dev, Runs .thrSwitchDone s d ∧ d.pow.episode = some (.half, t) ∧ quiet d ∧
    clusters (fun n c => d.fb (clkstat n c) 4 = false ∧ (s.dev.fb (clkstat n c) 6 = true → d.fd (clkstat n c) 1 0 = 1))) ∧
  (∀ t : Nat, ep = some (.clearing, t) →
    let ns := min (s.dev.clk - t) (2 ^ 32 - 1)
    ∃ d : Dev, Runs .thrSwitchDone s (d.hubNotice 0x0801 [ns, s.dev.pow.lowest]) ∧ d.rd Reg.PWR.BOLAST.hubAt = ns ∧
      d.rd Reg.PWR.BOCNT.hubAt = min (s.dev.rd Reg.PWR.BOCNT.hubAt + 1) (2 ^ 32 - 1) ∧ d.fb mon 1 = false ∧ d.pow.episode = none ∧ d.pow.recT = none ∧ quiet d ∧
      clusters (fun n c => d.fb (clkstat n c) 4 = false ∧ (s.dev.fb (clkstat n c) 6 = false → d.fd (clkstat n c) 1 0 = s.dev.fd (clkctl n c) 1 0))) ∧
  (let starts := s.dev.pow.recT = none ∧ ∃ ph t, ep = some (ph, t) ∧ ph ≠ .reqFull ∧ ph ≠ .clearing
   (¬starts → Runs .vddCoreRecoveryRise s (s.dev.wb mon 0 false)) ∧
   (starts → Runs .vddCoreRecoveryRise s { (s.dev.wb mon 0 false).wb mon 2 true with pow := { s.dev.pow with recT := some s.dev.clk } })) ∧
  (let low := 630 < mv.toNat ∧ mv.toNat < 675
   (¬low → Runs (.vddCoreRecoveryFall mv) s s.dev) ∧
   (low → Runs (.vddCoreRecoveryFall mv) s { s.dev.wb mon 2 false with pow := { s.dev.pow with
     recT := none
     lowest := if ep = none then s.dev.pow.lowest else min s.dev.pow.lowest mv.toNat } })) ∧
  (let due := ∃ t r : Nat, ep = some (.half, t) ∧ s.dev.pow.recT = some r ∧ r + 19950 ≤ s.dev.clk
   (¬due → Runs .recoveryTimerExpire s s.dev) ∧
   (∀ t r : Nat, ep = some (.half, t) → s.dev.pow.recT = some r → r + 19950 ≤ s.dev.clk → Runs .recoveryTimerExpire s
     { s.dev.wb mon 2 false with pow := { s.dev.pow with
       recT := none
       episode := some (.reqFull, t) } }))

/-- R504, R505, R510: a reading of the nine sensors shows in TEMP and in HOT; at or above HI, with EN set, throttling starts and THERMAL_ON is sent; the request
stands in the first DUTY µs of every 8 µs; throttling ends once every sensor has read below HI − HYST for 1 ms; any sensor at 115 °C resets the device with
cause THERMAL and holds it. While the device is held a reading shows in TEMP alone; readings below 95 °C of every sensor release a device held for its
temperature, where nothing else holds it, and a reading of 95 °C or more does not. Choices of the model in it: log 31. -/
def Obligations.ThermalControl : Prop :=
  let shows := fun (t : Vector (BitVec 10) 9) (d : Dev) => ∀ k < 9, d.rd (Reg.PWR.TEMP.hubAt [k]) = (t.toList.getD k 0).toNat
  (∀ (s : State) (t : Vector (BitVec 10) 9), s.up →
    let ts : List Int := t.toList.map BitVec.toInt
    let ctl := Reg.PWR.THCTL.hubAt
    let limit : Int := (4 * min 110 (s.dev.fd ctl 7 0) : Nat)
    let cool : Int := limit - (4 * s.dev.fd ctl 15 8 : Nat)
    let hot := hottest ts
    let safe := ∀ x ∈ ts, x < 460
    let stays := fun (p : PowSt) => ∃ d : Dev, Runs (.tempSensorRead t) s d ∧ shows t d ∧ d.fd Reg.PWR.THSTAT.hubAt 3 0 = hot ∧ d.pow = p ∧ d.secs = s.dev.secs
    (hot < 9 ∧ (∀ k < 9, ts.getD k 0 ≤ ts.getD hot 0) ∧ ∀ k < hot, ts.getD k 0 < ts.getD hot 0) ∧
    (safe → s.dev.pow.throtT = none → (s.dev.fb ctl 31 = false ∨ ∀ x ∈ ts, x < limit) → stays s.dev.pow) ∧
    (safe → s.dev.pow.throtT = none → s.dev.fb ctl 31 = true → (∃ x ∈ ts, limit ≤ x) →
      ∃ d : Dev, Runs (.tempSensorRead t) s (d.hubNotice 0x0802 [hot, (t.toList.getD hot 0).toNat]) ∧ shows t d ∧
        d.fd Reg.PWR.THSTAT.hubAt 3 0 = hot ∧ d.fb Reg.PWR.THSTAT.hubAt 31 = true ∧ d.pow.throtT = some s.dev.clk ∧
        d.pow.hotReq = decide (0 < s.dev.fd ctl 18 16) ∧ d.secs = s.dev.secs) ∧
    (∀ u : Nat, safe → s.dev.pow.throtT = some u →
      ((∃ x ∈ ts, cool ≤ x) → stays { s.dev.pow with coolT := none }) ∧
      ((∀ x ∈ ts, x < cool) → s.dev.pow.coolT = none → stays { s.dev.pow with coolT := some s.dev.clk }) ∧
      (∀ c : Nat, (∀ x ∈ ts, x < cool) → s.dev.pow.coolT = some c → s.dev.clk < c + 1000000 → stays s.dev.pow) ∧
      (∀ c : Nat, (∀ x ∈ ts, x < cool) → s.dev.pow.coolT = some c → c + 1000000 ≤ s.dev.clk →
        ∃ d : Dev, Runs (.tempSensorRead t) s (d.hubNotice 0x0803 [(s.dev.clk - u) / 1000]) ∧ shows t d ∧
          d.fb Reg.PWR.THSTAT.hubAt 31 = false ∧ d.pow.throtT = none ∧ d.pow.coolT = none ∧ d.pow.hotReq = false ∧ d.secs = s.dev.secs)) ∧
    ((∃ x ∈ ts, 460 ≤ x) → ∃ (d : Dev) (o : OtpSt), exec (.tempSensorRead t) s = .next { s with dev := d, otp := o } ∧
      d.fb Reg.PWR.RSTCAUSE.hubAt rsTHERMAL = true ∧ shows t d ∧ d.pow.holdHot = true ∧ d.fd bootStat 31 28 = 0 ∧
      (∀ n < 8, d.pstate n = 0 ∧ d.runState n = stOFF) ∧ (s.dev.boot.otpOp = none → o = s.otp)) ∧
    (s.dev.pow.throtT = none → Runs .thermalDutyTimer s s.dev) ∧
    (∀ u : Nat, s.dev.pow.throtT = some u → Runs .thermalDutyTimer s { s.dev with pow := { s.dev.pow with
      hotReq := decide ((s.dev.clk - u) % 8000 < 1000 * s.dev.fd ctl 18 16) } })) ∧
  (∀ (s : State) (t : Vector (BitVec 10) 9), s.dev.held = true →
    let ts : List Int := t.toList.map BitVec.toInt
    let releases := s.dev.pow.holdHot = true ∧ (∀ x ∈ ts, x < 380)
    (releases → ∃ d : Dev, Runs (.tempSensorRead t) s d ∧ shows t d ∧ d.pow = { s.dev.pow with holdHot := false } ∧ d.secs = s.dev.secs ∧
      (s.dev.pow.holdSup = false → s.dev.pow.holdClk = false → d.held = false ∧ d.boot = { s.dev.boot with releaseT := s.dev.clk })) ∧
    (¬releases → ∃ d : Dev, Runs (.tempSensorRead t) s d ∧ shows t d ∧ d.held = true ∧ d.boot = s.dev.boot ∧ d.secs = s.dev.secs ∧
      d.pow = { s.dev.pow with holdHot := s.dev.pow.holdHot || ts.any (fun x => decide (460 ≤ x)) }))

/-- R506, R507, R508, R511: a write of a section's power control, as power on, power off or soft reset. While a transition or a soft reset runs only the target is stored, and a
soft reset is held during a power-up and discarded otherwise; ON = 1 for a section that is OFF begins its power-up, ON = 0 for one that is ON its power-down, which
leaves nothing of its image, run, queues and scratchpad; a soft reset of a section that is ON shows BUSY and STATE PARKED until it ends, its queues empty; it is ignored
while the section is OFF. A transition that ends clears BUSY and sends SECTION_POWER; a section that reaches ON is PARKED, its controller at address 0 of
its firmware; a held soft reset follows, and a target written meanwhile is taken. In SAFE the registers take no write. R520, R525: a change of a DIO bank's supply
shows its LEVEL and PGOOD, sends DIO_BANK where PGOOD changes, and changes no run state. Choices of the model in it: log 29. -/
def Obligations.SectionPowerAndBanks : Prop :=
  (∀ (s : State) (n : Fin 8) (on srst : Bool), s.up → s.dev.inSafe = true →
    Runs (.sectionPowerOn n srst) s s.dev ∧ Runs (.sectionPowerOff n srst) s s.dev ∧ Runs (.sectionSoftReset n on) s s.dev) ∧
  (∀ (s : State) (n : Fin 8), s.up →
    let ctl := sectCtl n
    let st := sectStat n
    let busy := s.dev.fb st 31
    let p := s.dev.fd st 30 29
    let target := s.dev.fb ctl 0
    let mark := BitVec.ofNat 8 (2 ^ n.val)
    let down := fun (d : Dev) => d.fd st 30 29 = 3 ∧ d.fb st 31 = true ∧ d.runState n = stOFF ∧ d.fb (Reg.SNOC.FSTAT.of n) 16 = true ∧
      Sparse.find n.val d.images = none ∧ (∀ a, inSpad a = true → d.memByte n a = 0) ∧ (∀ q < 64, d.getQ n q [] Queue.words = []) ∧
      d.getSec n CapSt.idle (fun x => x.cap) = CapSt.idle
    let soft := fun (d : Dev) => d.fd st 30 29 = 2 ∧ d.fb st 31 = true ∧ d.runState n = stPARKED ∧ d.pow.soft.getLsbD n = true ∧
      Sparse.find n.val d.images = none ∧ (∀ q < 64, d.getQ n q [] Queue.words = []) ∧ d.getSec n CapSt.idle (fun x => x.cap) = CapSt.idle
    (s.dev.inSafe = false → ∀ on srst : Bool,
      let w := s.dev.wb ctl 0 on
      let held := { w with pow := { s.dev.pow with softHeld := s.dev.pow.softHeld ||| mark } }
      let rises := (w.wf st 30 29 1).wb st 31 true
      ∀ c ∈ (if on then [Instr.sectionPowerOn n srst] else [.sectionPowerOff n srst]) ++ (if srst then [.sectionSoftReset n on] else []),
        (busy = true → srst = true → p = 1 → Runs c s held) ∧
        (busy = true → srst = false ∨ p ≠ 1 → Runs c s w) ∧
        (busy = false → on = true → p = 0 → srst = false → Runs c s rises) ∧
        (busy = false → on = true → p = 0 → srst = true → Runs c s { rises with pow := { s.dev.pow with softHeld := s.dev.pow.softHeld ||| mark } }) ∧
        (busy = false → on = false → p = 2 → ∃ d : Dev, Runs c s d ∧ d.fb ctl 0 = false ∧ down d) ∧
        (busy = false → on = true → p = 2 → srst = true → ∃ d : Dev, Runs c s d ∧ d.fb ctl 0 = true ∧ soft d) ∧
        (busy = false → (on = true ∧ p = 2 ∧ srst = false) ∨ (on = false ∧ p = 0) → Runs c s w)) ∧
    (busy = false ∨ p = 0 ∨ p = 2 → Runs (.powerTransitionDone n) s s.dev) ∧
    (busy = true → p = 1 →
      let fw := match s.dev.boot.booted with | some r => r.secfwCode | none => []
      let again := s.dev.pow.softHeld.getLsbD n
      ∃ d : Dev, Runs (.powerTransitionDone n) s d ∧ d.pow.softHeld = s.dev.pow.softHeld &&& ~~~mark ∧
        (again = false → target = true → d.fd st 30 29 = 2 ∧ d.fb st 31 = false ∧ d.runState n = stPARKED ∧ d.getSec n 1 (fun x => x.ctl.pc) = 0 ∧
          ∀ i < fw.length, d.getSec n 0 (fun x => Sparse.get (fun _ => (0 : BitVec 8)) x.ctl.mem i) = BitVec.ofNat 8 (fw.getD i 0)) ∧
        (again = true → soft d) ∧ (again = false → target = false → down d)) ∧
    (busy = true → p = 3 →
      (target = false → ∃ d : Dev, Runs (.powerTransitionDone n) s (d.notice n 0x0804 [n.val, 0]) ∧ d.fd st 30 29 = 0 ∧ d.fb st 31 = false ∧
        ((∀ i < 4, n.val / 4 * 4 + i ≠ n.val → s.dev.pstate (n.val / 4 * 4 + i) = 0) → ∀ i < 4, ∀ a, hbmBase ≤ a → d.memByte (n.val / 4 * 4 + i) a = 0)) ∧
      (target = true → ∃ d : Dev, Runs (.powerTransitionDone n) s d ∧ d.fd st 30 29 = 1 ∧ d.fb st 31 = true)) ∧
    (let ends := busy = true ∧ s.dev.pow.soft.getLsbD n = true
     let idle := { s.dev with pow := { s.dev.pow with soft := s.dev.pow.soft &&& ~~~mark } }.wb st 31 false
     (¬ends → Runs (.softResetDone n) s s.dev) ∧
     (ends → target = true → p = 2 → Runs (.softResetDone n) s idle) ∧
     (ends → target = false → p = 2 → ∃ d : Dev, Runs (.softResetDone n) s d ∧ down d))) ∧
  (∀ (s : State) (b : Fin 4) (mv : BitVec 12),
    let v := mv.toNat
    let l := if v < 600 then 0 else if 1140 ≤ v ∧ v ≤ 1260 then 1 else if 1425 ≤ v ∧ v ≤ 1575 then 2 else if 1710 ≤ v ∧ v ≤ 1890 then 3
      else if 2375 ≤ v ∧ v ≤ 2625 then 4 else if 3135 ≤ v ∧ v ≤ 3465 then 5 else 6
    let good := decide (1 ≤ l ∧ l ≤ 5)
    let r := Reg.DIO.BANK.hubAt [b]
    (good = s.dev.fb r 31 → Runs (.vccioChange b mv) s (s.dev.wr r ((if good then 2 ^ 31 else 0) + l * 2 ^ 28))) ∧
    (good = false → s.dev.fb r 31 = true → Runs (.vccioChange b mv) s ((s.dev.wr r (l * 2 ^ 28)).hubNotice 0x0806 [b.val, l])) ∧
    (good = true → s.dev.fb r 31 = false → ∃ d : Dev, Runs (.vccioChange b mv) s d ∧ d.secs = s.dev.secs ∧ d.fb r 31 = true ∧ d.fd r 30 28 = l ∧
      ∀ (c : Nat) (v : Bool), 24 * b.val ≤ c → c < 24 * b.val + 24 → Sparse.find c s.dev.pins.out = some v → Sparse.find c d.pins.ball = some v))

/-- R7, R9, R314, R316, R319: the 64-bit pairs of a layout, by the function it belongs to; the host page of a function shows in its own layout too. A write of the low half stages the half, and one of the
high half stores both, the low half being the staged one or, where none is staged, the one it has: a written bit takes its value, any other stays. A read of the low
half answers it and loads the latch with the high half; a read of the high half answers the latch once it is loaded, and the current high half before. At an offset
that is no such half, while the device is held in reset, and where the layout does not answer, a write changes nothing. A register that its unit locks sets the
unit's REJ and keeps value and staging (a swap of routes, a channel that runs or is parked, an acquisition, a comparator of an enabled trace, the
rings of a function while they run, an export entry while the section runs); HDMA belongs to the controller; OFFSET is ignored while its source is the link's exchange
and is a measurement otherwise; INC keeps within a quarter of its nominal value. Choices of the model in it: logs 24, 26 and 39. -/
def Obligations.RegisterPairs : Prop := ∀ (s : State) (lay : Fin 9) (off : BitVec 26) (v : BitVec 32) (size : Fin 3) (k : Fin 4),
  let m := (aliasOf lay off.toNat).1
  let o := (aliasOf lay off.toNat).2
  let d := if m = 8 then s.dev else s.dev.nocStat0 m
  (pairHalf lay off.toNat false = false → Runs (.regPairLowWrite lay off v) s s.dev) ∧
  (pairHalf lay off.toNat true = false → Runs (.regPairHighWrite lay off v) s s.dev) ∧
  (s.dev.held = true ∨ s.dev.answers m o = false → Runs (.regPairLowWrite lay off v) s s.dev ∧ Runs (.regPairHighWrite lay off v) s s.dev) ∧
  (∀ f : Found, s.up → s.dev.answers m o = true → (rowsAt m o).bind (fun rows => findRow rows o) = some f →
    let i := f.ix.getD 0 0
    let j := f.ix.getD 1 0
    let slot := f.row = Reg.CLUS.GSLOTL ∨ f.row = Reg.CLUS.GSLOTH
    let high := f.hi = true ∨ f.row = Reg.CLUS.GSLOTH
    let key := if slot then (Reg.CLUS.GSLOTL.of m f.ix).key else (f.row.of m f.ix).key
    let lo := f.row.of m f.ix
    let hi := f.row.ofHi m f.ix
    let goes := fun (t : Dev) => (¬high → Runs (.regPairLowWrite lay off v) s t) ∧ (high → Runs (.regPairHighWrite lay off v) s t)
    let dma := d.fd (dmaStat m i) 31 28
    let locks : List (Row × Loc × Nat × Bool) := [(Reg.SNOC.RTPORTS, Reg.SNOC.RTSTAT.of m, 29, d.fb (Reg.SNOC.RTSTAT.of m) 31),
      (Reg.SDMA.DESC, dmaStat m i, 1, dma == dmRUNNING || dma == dmPARKED), (Reg.CAPT.TCMP, Reg.CAPT.STAT.of m, 1, d.fb (Reg.CAPT.STAT.of m) 5),
      (Reg.STRC.CMP.ADDR, tstat m i, 5, d.fb (tctl m i) 31), (Reg.STRC.RNG.LO, tstat m i, 5, d.fb (tctl m i) 31),
      (Reg.STRC.RNG.HI, tstat m i, 5, d.fb (tctl m i) 31), (Reg.HTRC.CMP.ADDR, tstat 8 0, 5, d.fb (tctl 8 0) 31),
      (Reg.HTRC.RNG.LO, tstat 8 0, 5, d.fb (tctl 8 0) 31), (Reg.HTRC.RNG.HI, tstat 8 0, 5, d.fb (tctl 8 0) 31),
      (Reg.HQ.CMDBASE, Reg.HQ.STAT.hubAt [i], 1, d.fb (Reg.HQ.CTL.hubAt [i]) 0), (Reg.HQ.CPLBASE, Reg.HQ.STAT.hubAt [i], 1, d.fb (Reg.HQ.CTL.hubAt [i]) 0)]
    let free := (∀ l ∈ locks, f.row = l.1 → l.2.2.2 = false) ∧ f.row ≠ Reg.HDMA.DESC ∧
      (f.row = Reg.TIME.D.OFFSET → d.fd (Reg.TIME.D.CFG.hubAt [i]) 31 30 ≠ 1)
    let stored := fun (r : Loc) (h : Bool) (w : Nat) (b : Nat) => if (f.row.mask h (fun t => t == .rw)).testBit b then w.testBit b else d.fb r b
    (∀ l ∈ locks, f.row = l.1 → l.2.2.2 = true → goes (d.wb l.2.1 l.2.2.1 true)) ∧
    (f.row = Reg.HDMA.DESC → goes s.dev) ∧
    (f.row = Reg.TIME.D.OFFSET → d.fd (Reg.TIME.D.CFG.hubAt [i]) 31 30 = 1 → goes s.dev) ∧
    (f.row = Reg.TIME.D.OFFSET → high → ∀ dm : Fin 2, dm.val = i → ∃ t : Dev, Runs (.offsetSubmit dm v) s t ∧ Runs (.regPairHighWrite lay off v) s t) ∧
    (slot → d.runState m = stRUNNING → goes (d.wb (Reg.CLUS.SLSTAT.of m [i]) 0 true)) ∧
    (f.row = Reg.CLUS.GSLOTL → d.runState m ≠ stRUNNING → Runs (.regPairLowWrite lay off v) s { d with staging := Sparse.put key v d.staging }) ∧
    (f.row = Reg.CLUS.GSLOTH → d.runState m ≠ stRUNNING →
      let low := match Sparse.find key d.staging with
        | some w => w.toNat
        | none => d.gslot m i (j / 16) (j % 16) % 2 ^ 32
      ∃ t : Dev, Runs (.regPairHighWrite lay off v) s t ∧ t.gslot m i (j / 16) (j % 16) = (v.toNat &&& 0x800000FF) * 2 ^ 32 + low ∧
        Sparse.find key t.staging = none ∧ t.regs = d.regs ∧
        ∀ n c r e, n < 8 → c < 16 → r < 512 → e < 16 → (n, c, 16 * r + e) ≠ (m, i, j) → t.gslot n c r e = d.gslot n c r e) ∧
    (f.row.wide = true → f.row.writable = true → free → f.hi = false →
      Runs (.regPairLowWrite lay off v) s { d with staging := Sparse.put key v d.staging }) ∧
    (f.row.wide = true → f.row.writable = true → free → f.hi = true → f.row ≠ Reg.TIME.D.OFFSET → ∃ t : Dev, Runs (.regPairHighWrite lay off v) s t ∧
      Sparse.find key t.staging = none ∧ t.secs = s.dev.secs ∧ (∀ l : Loc, l.key ≠ lo.key → l.key ≠ hi.key → t.rd l = d.rd l) ∧
      (f.row ≠ Reg.TIME.INC → (∀ b < 32, t.fb hi b = stored hi true v.toNat b) ∧
        (∀ w : BitVec 32, Sparse.find key d.staging = some w → ∀ b < 32, t.fb lo b = stored lo false w.toNat b) ∧
        (Sparse.find key d.staging = none → t.rd lo = d.rd lo)) ∧
      (f.row = Reg.TIME.INC →
        let low := match Sparse.find key d.staging with
          | some w => w.toNat
          | none => d.rd lo
        t.rd64 Reg.TIME.INC 8 = min 0x500000000 (max 0x300000000 (low + 2 ^ 32 * (d.rd hi / 256 * 256 + v.toNat % 256))))) ∧
    (f.row.wide = true ∨ slot →
      let w := 2 ^ size.val
      let d := if m = 8 then s.dev else s.dev.nocFree m 0 w
      let half := fun (h : Bool) =>
        if slot then (if h then d.gslot m i (j / 16) (j % 16) / 2 ^ 32 &&& 0x800000FF else d.gslot m i (j / 16) (j % 16) % 2 ^ 32)
        else if f.row = Reg.TIME.D.OFS then (if h then ofsReg (d.getDom i).ofs / 2 ^ 32 else ofsReg (d.getDom i).ofs % 2 ^ 32)
        else d.rd (if h then hi else lo)
      let answer := fun (x : Nat) => (toBytes w (x / 2 ^ (8 * k.val))).map (BitVec.ofNat 8)
      (¬high → Runs (.regPairLowRead lay (off + BitVec.ofNat 26 k.val) size) s { d with
        latch := Sparse.put key (BitVec.ofNat 32 (half true)) d.latch
        rdata := answer (half false)
        rstat := 0 }) ∧
      (high → Runs (.regPairLowRead lay (off + BitVec.ofNat 26 k.val) size) s { d with
        rdata := answer (match Sparse.find key d.latch with
          | some x => x.toNat
          | none => half true)
        rstat := 0 })))

/-- R4, R5, R9, R10, R411, R491, R540, R541, R542: register writes of every source to every layout, and reads. A source that does not reach the layout, and a block that does not
answer, change nothing. A write of another width changes nothing but ACCCNT and, where nothing is latched, ACCERR and ACCADDR, and so does one to unmapped space. A write of
32 bits takes the value into RW bits, clears W1C bits and sets W1S bits written with 1, and leaves the rest of the register and every other register; a register that its
unit locks sets the unit's REJ and stays; a command register acts as its command. A read answers the addressed bytes of the register and clears RC fields; what is unmapped or does not answer
reads 0, but for SCTL.STATE, which the hub shadows. A section access counts in its service network's traffic.
Choices of the model in it: logs 23, 24, 26 and 63. -/
def Obligations.RegisterAccesses : Prop := ∀ (s : State) (src : Fin 12) (sect : Fin 8) (lay : Fin 9) (off : BitVec 26) (size : Fin 4) (v : BitVec 64) (ph : Fin 4),
  let m := (aliasOf lay off.toNat).1
  let o := (aliasOf lay off.toNat).2
  let reach := (src.val = 0 ∨ src.val = 9 → lay.val = 8) ∧ (1 ≤ src.val → src.val ≤ 8 → lay.val + 1 = src.val) ∧ (src.val = 11 → lay.val = sect.val)
  let err := Reg.DEV.ACCERR.hubAt
  let cnt := Reg.DEV.ACCCNT.hubAt
  let x := v.toNat % 2 ^ 32
  let W := fun (t : Dev) => Runs (.registerWrite src sect lay off size v ph) s t
  let recorded := fun (kind : Nat) =>
    let d := s.dev.wr cnt (min (s.dev.rd cnt + 1) (2 ^ 32 - 1))
    if s.dev.fb err 31 then d
    else (d.wr err (2 ^ 31 + kind * 2 ^ 28 + src.val * 2 ^ 24 + if src.val = 11 then sect.val * 2 ^ 21 else 0)).wr Reg.DEV.ACCADDR.hubAt off.toNat
  let seen := fun (o : Nat) => (rowsAt m o).bind (fun rows => findRow rows o)
  let d := if m = 8 then s.dev else if src.val = 11 then s.dev.nocFree m 6 4 else s.dev.nocStat0 m
  (¬reach → W s.dev) ∧ (s.dev.held = true → W s.dev) ∧
  (reach → s.up → rowsAt m o = none → W (recorded 2)) ∧
  (reach → s.up → rowsAt m o ≠ none → size.val ≠ 2 ∨ o % 4 ≠ 0 → W (recorded 1)) ∧
  (reach → s.up → rowsAt m o ≠ none → size.val = 2 → o % 4 = 0 → s.dev.answers m o = false → W s.dev) ∧
  (m < 8 → d.secs = s.dev.secs ∧ d.staging = s.dev.staging ∧ (∀ l : Loc, l.key / 2 ^ 16 ≠ m * 2 ^ 16 + 2 → d.rd l = s.dev.rd l) ∧
    (s.dev.fb (Reg.SNOC.STCTL.of m) 31 = true → d.regs = s.dev.regs) ∧
    (s.dev.fb (Reg.SNOC.STCTL.of m) 31 = false → ∀ i, i = (if src.val = 11 then 6 else 0) →
      d.rd64 Reg.SNOC.REQ m [i] = min (s.dev.rd64 Reg.SNOC.REQ m [i] + 1) (2 ^ 64 - 1) ∧
      d.rd64 Reg.SNOC.BYTES m [i] = min (s.dev.rd64 Reg.SNOC.BYTES m [i] + 4) (2 ^ 64 - 1))) ∧
  (reach → s.up → size.val = 2 → o % 4 = 0 → s.dev.answers m o = true →
    (seen o = none → rowsAt m o ≠ none → (m = 8 ∨ o < 0x2000000 ∨ 0x2600000 ≤ o) → W d) ∧
    (m < 8 → 0x2000000 ≤ o → o < 0x2600000 → ∀ (n : Fin 8) (slot : Fin 393216) (z : BitVec 32), n.val = m → slot.val = (o - 0x2000000) / 16 → z.toNat = x →
      (∀ pos : Fin 2, pos.val = o / 4 % 4 → ∃ t : Dev, Runs (.codeWordStage n pos slot z) { s with dev := d } t ∧ W t) ∧
      (o / 4 % 4 = 2 → ∃ t : Dev, Runs (.codeInstructionStore n slot z) { s with dev := d } t ∧ W t)) ∧
    (∀ f : Found, seen o = some f → (m = 8 ∨ o < 0x2000000 ∨ 0x2600000 ≤ o) →
      let i := f.ix.getD 0 0
      let j := f.ix.getD 1 0
      let loc := f.row.of m f.ix
      let does := fun (c : Instr) => ∃ t : Dev, Runs c { s with dev := d } t ∧ W t
      let active := d.fb (Reg.CAPT.STAT.of m) 5
      let act := Reg.CAPT.ACTCTL.of m
      let dma := fun (r : Loc) => d.fd r 31 28 == dmRUNNING || d.fd r 31 28 == dmPARKED
      let locks : List (List Row × Loc × Nat × Bool) := [
        ([Reg.SPAD.REG.CTL, Reg.SPAD.REG.BASE, Reg.SPAD.REG.LIMIT], Reg.SPAD.RSTAT.of m, 0, decide (i < 16) && d.barred m),
        ([Reg.HBMC.FREG.CTL, Reg.HBMC.FREG.BASE, Reg.HBMC.FREG.LIMIT], Reg.HBMC.STAT.of m, 8, d.barred m),
        ([Reg.CALL.CLASS], Reg.CALL.STAT.of m, 0, d.barred m), ([Reg.LINKQ.MAP], Reg.LINKQ.STAT.of m, 0, d.barred m),
        ([Reg.SDMA.SKIP], dmaStat m i, 1, dma (dmaStat m i)), ([Reg.HDMA.SKIP], dmaStat 8 i, 1, src.val == 10 && dma (dmaStat 8 i)),
        ([Reg.CAPT.ABASE, Reg.CAPT.ANB], Reg.CAPT.STAT.of m, 1, d.fb act 31 && x != d.rd loc),
        ([Reg.CAPT.CFG], Reg.CAPT.STAT.of m, 1, active || (d.fb act 31 && decide (x % 1024 < d.fd act 8 0 + d.fd act 19 10))),
        (capLocked.filter (fun r => r != Reg.CAPT.CFG && r != Reg.CAPT.TCMP), Reg.CAPT.STAT.of m, 1, active),
        ([Reg.STRC.CMP.CFG, Reg.STRC.RNG.CFG], tstat m i, 5, d.fb (tctl m i) 31), ([Reg.HTRC.CMP.CFG, Reg.HTRC.RNG.CFG], tstat 8 0, 5, d.fb (tctl 8 0) 31),
        ([Reg.HQ.CMDCFG, Reg.HQ.CPLCFG], Reg.HQ.STAT.hubAt [i], 1, d.fb (Reg.HQ.CTL.hubAt [i]) 0),
        (rowsPG.filter (fun r => r != Reg.PG.CTL && r != Reg.PG.STAT && r.writable), Reg.PG.STAT.hubAt [i], 2, d.fb (Reg.PG.CTL.hubAt [i]) 31),
        ([Reg.CLUS.CSLOT], Reg.CLUS.SLSTAT.of m [i], 0, d.runState m == stRUNNING), ([Reg.CLUS.WAIT], Reg.CLUS.WTSTAT.of m [i], 0, d.runState m == stRUNNING),
        ([Reg.SNOC.RTDATA], Reg.SNOC.RTSTAT.of m, 29, d.fb (Reg.SNOC.RTSTAT.of m) 31)]
      let own : List Row := [Reg.SCTL.CMD, Reg.SCTL.HCTL, Reg.SCTL.PACECTL, Reg.SFLT.FSTAT, Reg.SPAD.BANKPWR, Reg.FERRY.CTL, Reg.FERRY.WDATA, Reg.CALL.CRPOOL,
        Reg.CALL.CORECTL, Reg.SNOC.RTDATA, Reg.SNOC.RTCMD, Reg.SNOC.STCTL, Reg.CLUS.DSTORE, Reg.CLUS.CSLOT, Reg.CLUS.GSLOTL, Reg.CLUS.GSLOTH, Reg.CLUS.WAIT,
        Reg.CLUS.CLKCTL, Reg.CLUS.RSTCTL, Reg.CAPT.CTL, Reg.CAPT.ACTCTL, Reg.SDMA.CTL, Reg.SDMA.DOORBELL, Reg.STRC.BCTL, Reg.STRC.TCTL, Reg.TIME.CTL,
        Reg.TIME.SETCMD, Reg.TIME.SLEWLIM, Reg.TIME.D.INTEG, Reg.TIME.ALCTL, Reg.PG.CTL, Reg.HQ.CTL, Reg.HQ.CMDTAIL, Reg.HQ.CPLHEAD, Reg.HQ.MSIXV, Reg.LANE.CTL,
        Reg.LANE.EQTX, Reg.LANE.EQRX, Reg.LANE.QCTL, Reg.LANE.PRBSCTL, Reg.LANE.INJ, Reg.LANE.ESCTL, Reg.HTRC.BCTL, Reg.HTRC.TCTL, Reg.TRG.PIN, Reg.PWR.THCTL,
        Reg.PWR.SECT.CTL, Reg.BOOT.FLCMD, Reg.BOOT.OTPPROG, Reg.BOOT.CMD] ++ if src.val = 10 then [Reg.HDMA.CTL, Reg.HDMA.DOORBELL] else rowsHDMA
      (∀ l ∈ locks, f.row ∈ l.1 → l.2.2.2 = true → W (d.wb l.2.1 l.2.2.1 true)) ∧
      (f.row.wide = false → f.row ∉ own → (∀ l ∈ locks, f.row ∈ l.1 → l.2.2.2 = false) →
        let circ := (f.row = Reg.SPAD.REG.CTL ∧ 4 ≤ j) ∨ (f.row = Reg.HBMC.FREG.CTL ∧ 4 ≤ i)
        ∃ t : Dev, W t ∧ t.secs = d.secs ∧ t.staging = d.staging ∧ (∀ l : Loc, l.key ≠ loc.key → t.rd l = d.rd l) ∧
          ∀ b < 32, t.fb loc b =
            let z := x.testBit b && !(decide circ && b == 30)
            if (f.row.mask false (fun t => t == .rw)).testBit b then z
            else if (f.row.mask false (fun t => t == .w1c)).testBit b && z then false
            else if (f.row.mask false (fun t => t == .w1s)).testBit b && z then true else d.fb loc b) ∧
      (src.val = (if lay.val = 8 then 0 else lay.val + 1) → ∀ z : BitVec 32, z.toNat = x → (∀ t : Dev, pairHalf lay off.toNat false = true → Runs (.regPairLowWrite lay off z) s t → W t) ∧
        (∀ t : Dev, pairHalf lay off.toNat true = true → Runs (.regPairHighWrite lay off z) s t → W t)) ∧
      (f.row ∈ rowsHDMA → src.val ≠ 10 → W s.dev) ∧
      (f.row = Reg.CLUS.CSLOT → d.runState m ≠ stRUNNING → ∃ t : Dev, W t ∧ t.regs = d.regs ∧ t.cslot m i (j / 128) (j / 2 % 64) (j % 2) = x &&& 0xFFFF01FF) ∧
      (f.row = Reg.CLUS.WAIT → d.runState m ≠ stRUNNING → ∃ t : Dev, W t ∧ t.regs = d.regs ∧ t.waitEnt m i (j / 8) (j % 8) = x) ∧
      (f.row = Reg.SNOC.RTDATA → d.fb (Reg.SNOC.RTSTAT.of m) 31 = false → ∃ t : Dev, W t ∧ t.regs = d.regs ∧
        ∀ k, d.routeSel m = some k → t.getSec m 0 (fun y => (Sparse.get routeDefault y.noc.shadow k).toNat) = x % 8) ∧
      (∀ (n : Fin 8) (cl : Fin 16) (crs : Fin 64) (w : Fin 1024) (z : BitVec 32) (op : Fin 16), n.val = m → m < 8 → z.toNat = x →
        (f.row = Reg.SCTL.CMD → (∀ mode : Fin 4, x = 1 + 16 * mode.val → does (.start n mode)) ∧ (x = 2 → does (.pause n)) ∧ (x = 3 → does (.resume n)) ∧
          (∀ mode : Fin 4, x = 4 + 16 * mode.val → does (.stepRun n mode)) ∧ (x = 5 → does (.stop n)) ∧ (x = 6 → does (.restart n)) ∧
          (x = op.val → op.val = 0 ∨ 7 ≤ op.val → does (.badCmd n op))) ∧
        (f.row = Reg.SCTL.HCTL → (x.testBit 0 = true → does (.hctlClr n)) ∧ (x.testBit 0 = false → W d)) ∧
        (f.row = Reg.SCTL.PACECTL → does (.pacectlWrite n z)) ∧
        (f.row = Reg.SFLT.FSTAT → (x.testBit 31 = true → does (.faultRecordClear n)) ∧ (x.testBit 31 = false → W d)) ∧
        (f.row = Reg.SPAD.BANKPWR → does (.bankpwrWrite n z)) ∧
        (f.row = Reg.FERRY.CTL → ∀ q : Fin 64, q.val = i →
          let e := d.wr loc (setBits (d.rd loc) 8 8 (x / 2 ^ 8))
          (x.testBit 0 = false → x.testBit 4 = false → W e) ∧
          (x.testBit 0 = true → x.testBit 4 = false → ∃ t : Dev, Runs (.ferryRst n q) { s with dev := e } t ∧ W t) ∧
          (x.testBit 0 = false → x.testBit 4 = true → ∃ t : Dev, Runs (.queueTest n q) { s with dev := e } t ∧ W t)) ∧
        (f.row = Reg.FERRY.WDATA → does (.mailboxWrite n (z.setWidth 12) (z.getLsbD 12))) ∧
        (f.row = Reg.CALL.CRPOOL → cl.val = i → does (.crpoolWrite n cl z)) ∧ (f.row = Reg.CALL.CORECTL → does (.corectlWrite n z)) ∧
        (f.row = Reg.SNOC.RTCMD → x = 2 ^ 31 → does (.rtcmdSwap n)) ∧ (f.row = Reg.SNOC.STCTL → x.testBit 30 = true → does (.stctlClr n z)) ∧
        (f.row = Reg.CLUS.DSTORE → cl.val = i → crs.val = j → w.val = f.ix.getD 2 0 → does (.dstoreWrite n cl crs w z)) ∧
        (f.row = Reg.CLUS.CLKCTL → cl.val = i → does (.clkctlWrite n cl z)) ∧
        (f.row = Reg.CLUS.RSTCTL → cl.val = i → (x.testBit 0 = true → does (.crst n cl)) ∧ (x.testBit 0 = false → W d)) ∧
        (f.row = Reg.CAPT.CTL → (x = 1 → does (.captArm n ph)) ∧ (x = 2 → does (.captDisarm n ph)) ∧ (x = 16 → does (.captForce n))) ∧
        (f.row = Reg.CAPT.ACTCTL → does (.actctlWrite n z))) ∧
      (∀ (n : Fin 9) (c : Fin 4) (dspace : Bool) (vec : Fin 64) (u : Fin 10) (z : BitVec 32), n.val = m → z.toNat = x →
        (f.row = Reg.STRC.TCTL ∧ u.val = i ∨ f.row = Reg.HTRC.TCTL ∧ u.val = 0 → does (.tctlWrite n u z)) ∧
        (f.row = Reg.SDMA.DOORBELL ∨ (f.row = Reg.HDMA.DOORBELL ∧ src.val = 10) → c.val = i → does (.dmaDoorbell n c)) ∧
        (f.row = Reg.SDMA.CTL ∨ (f.row = Reg.HDMA.CTL ∧ src.val = 10) → c.val = i →
          let k := (if dspace then 256 else 0) + vec.val
          (x = 2 ^ 31 + k → does (.dmaGo n c dspace vec)) ∧ (x = 2 ^ 30 + k → does (.dmaHalt n c dspace vec)) ∧ (x = 2 ^ 29 + k → does (.dmaWdraw n c dspace vec)))) ∧
      (∀ (n : Fin 8) (a : Fin 4) (l : Fin 256) (h : Fin 9) (z : BitVec 32), m = 8 → z.toNat = x →
        (f.row = Reg.TIME.CTL → does (.domselWrite z)) ∧ (f.row = Reg.TIME.SETCMD → (x = 1 → does .timeLoad) ∧ (x = 2 → does .timeAdd) ∧ (x = 0 → W d)) ∧
        (f.row = Reg.TIME.ALCTL → a.val = i → does (.alarmArm a z)) ∧
        (f.row = Reg.PG.CTL → n.val = i → 2 ^ 31 ≤ x → does (.pulseGenEnable n (z.setWidth 31))) ∧
        (f.row = Reg.HQ.CTL → h.val = i → x = 1 → does (.hqEnable h)) ∧ (f.row = Reg.HQ.CMDTAIL → h.val = i → does (.cmdtailWrite h z)) ∧
        (f.row = Reg.HQ.CPLHEAD → h.val = i → does (.cplheadWrite h z)) ∧
        (l.val = 4 * i + j → (f.row = Reg.LANE.EQTX → does (.laneEqWrite l 0 z)) ∧ (f.row = Reg.LANE.EQRX → does (.laneEqWrite l 1 z)) ∧
          (f.row = Reg.LANE.QCTL → does (.laneEqWrite l 2 z))) ∧
        (f.row = Reg.PWR.SECT.CTL → n.val = i → (x = 1 → does (.sectionPowerOn n false)) ∧ (x = 3 → does (.sectionPowerOn n true)) ∧
          (x = 0 → does (.sectionPowerOff n false)) ∧ (x = 2 → does (.sectionPowerOff n true))) ∧
        (f.row = Reg.BOOT.FLCMD → (x = 2 ^ 31 + 1 → does .flcmdRead) ∧ (x = 2 ^ 31 + 2 → does .flcmdProgram) ∧ (x = 2 ^ 31 + 3 → does .flcmdErase)) ∧
        (f.row = Reg.BOOT.OTPPROG → (∀ (g : Fin 2) (k : Fin 4), x = 2 ^ 31 + 16 * g.val + k.val → does (.otpProgramSlot g k)) ∧
          (x = 2 ^ 31 + 2 ^ 8 → does .otpProgramLock)) ∧
        (f.row = Reg.BOOT.CMD → (src.val = 10 → x % 2 = 1 → exec (.registerWrite src sect lay off size v ph) s = exec .bootAdvance { s with dev := d.wr loc (d.rd loc) }) ∧
          (src.val ≠ 10 ∨ x % 2 = 0 → W (d.wr loc (d.rd loc))))))) ∧
  (∀ (w : Fin 3),
    let R := fun (t : Dev) => Runs (.regPairLowRead lay off w) s t
    let k := 2 ^ w.val
    let o4 := o / 4 * 4
    let d := if m = 8 then s.dev else s.dev.nocFree m 0 k
    let answer := fun (d : Dev) (z : Nat) => { d with
      rdata := (toBytes k (z / 2 ^ (8 * (o % 4)))).map (BitVec.ofNat 8)
      rstat := 0 }
    (s.dev.held = true ∨ (s.dev.answers m o4 = false ∧ (m = 8 ∨ o4 ≠ Reg.SCTL.STATE.base ∨ s.dev.inSafe = true)) → R (answer s.dev 0)) ∧
    (s.up → s.dev.inSafe = false → m < 8 → o4 = Reg.SCTL.STATE.base → s.dev.answers m o4 = false → R (answer s.dev (s.dev.rd (Reg.SCTL.STATE.of m)))) ∧
    (s.up → s.dev.answers m o4 = true →
      (∀ z, d.windowRead m o4 = some z → R (answer d z)) ∧
      (d.windowRead m o4 = none → seen o4 = none → R (answer d 0)) ∧
      (∀ f : Found, d.windowRead m o4 = none → seen o4 = some f →
        let i := f.ix.getD 0 0
        let j := f.ix.getD 1 0
        let loc := f.row.of m f.ix
        let made : List (Row × Nat) := [(Reg.FERRY.STAT, d.ferryStat m i), (Reg.FERRY.PKTS, d.ferryPkts m i), (Reg.CALL.OCC, d.callOcc m i),
          (Reg.CALL.RORD, d.callRord m), (Reg.CALL.CRPOOL, d.callPool m i), (Reg.CALL.CORESTAT, d.coreStat m i), (Reg.SPAD.NHCNT, d.nhCount m),
          (Reg.HBMC.OUTST, d.hbmOutst m), (Reg.LINKQ.CRED, d.linkCred m (i + 16)), (Reg.CODE.STAT, d.codeStat m), (Reg.CLUS.SLSTAT, d.slStat m i),
          (Reg.CLUS.CSLOT, d.cslot m i (j / 128) (j / 2 % 64) (j % 2) &&& 0xFFFF01FF), (Reg.CLUS.WAIT, d.waitEnt m i (j / 8) (j % 8)),
          (Reg.SNOC.RTDATA, d.rtdataRead m), (Reg.TRG.IN, d.trgInReg), (Reg.TRG.XBUS, d.xbusReg),
          (Reg.PWR.SECT.STAT, setBits (d.rd loc) 2 0 (d.runState i)), (Reg.BOOT.CERT, certWord i)]
        let special : List Row := made.map (fun p => p.1) ++ [Reg.CLUS.DSTORE, Reg.CLUS.GSLOTL, Reg.CLUS.GSLOTH, Reg.FERRY.LEVEL, Reg.DIO.CELL, Reg.DIO.IN,
          Reg.TIME.NOWF, Reg.ETH.TSINFO, Reg.SNOC.PDROP]
        let clears := fun (t : Dev) => t.secs = d.secs ∧ (∀ l : Loc, l.key ≠ loc.key → t.rd l = d.rd l) ∧
          ∀ b < 32, t.fb loc b = (d.fb loc b && !(f.row.mask false (fun y => y == .rc)).testBit b)
        (f.row.wide = false → f.row ∉ special → ∃ t : Dev, R (answer t (d.rd loc)) ∧ clears t) ∧
        (∀ p ∈ made, f.row = p.1 → ∃ t : Dev, R (answer t (p.2 % 2 ^ 32)) ∧ clears t) ∧
        (f.row = Reg.FERRY.LEVEL → ∃ t : Dev, R (answer t ((if i = 63 then setBits (d.ferryLevel m i) 26 16 (d.mailboxFree m) else d.ferryLevel m i) % 2 ^ 32)) ∧ clears t) ∧
        (f.row = Reg.SNOC.PDROP → ∃ t : Dev, R (answer t (d.rd loc)) ∧ t.rd loc = d.rd loc - (d.rd loc &&& f.row.mask false (fun y => y == .rc)) ∧
          t.getSec m false (fun y => y.noc.dropFirst) = true) ∧
        (f.row = Reg.DIO.CELL → R (answer (d.useFree 32) (d.cellReg i % 2 ^ 32))) ∧
        (f.row = Reg.DIO.IN → R (answer (d.useFree 32) (d.syncWord (32 * i) 32 % 2 ^ 32))) ∧
        (f.row = Reg.CLUS.DSTORE → w.val = 2 → o % 4 = 0 → ∀ (n : Fin 8) (cl : Fin 16) (crs : Fin 64) (y : Fin 1024), n.val = m → cl.val = i → crs.val = j →
          y.val = f.ix.getD 2 0 → ∃ t : Dev, Runs (.dstoreRead n cl crs y) { s with dev := d } t ∧ R t) ∧
        (f.row = Reg.TIME.NOWF → w.val = 2 → o % 4 = 0 → ∃ t : Dev, Runs .nowfRead s t ∧ R t) ∧
        (f.row = Reg.ETH.TSINFO → w.val = 2 → o % 4 = 0 → ∀ p : Fin 2, p.val = i → ∃ t : Dev, Runs (.tsinfoRead p) s t ∧ R t)))) ∧
  (s.hubUp →
    let at_ := fun (r : Row) => BitVec.ofNat 26 r.base
    let pf0 := fun (off : BitVec 26) => Instr.registerWrite 0 sect 8 off 2 v ph
    let cause := Reg.PWR.RSTCAUSE.hubAt
    Runs (pf0 (at_ Reg.HQ.NCOPY)) s (s.dev.wr (Reg.HQ.NCOPY.hubAt [0]) (s.dev.rd (Reg.HQ.NCOPY.hubAt [0]) / 2 ^ 8 * 2 ^ 8 + v.toNat % 2 ^ 8)) ∧
    (∃ t : Dev, Runs (pf0 (at_ Reg.PWR.RSTCAUSE)) s t ∧ (∀ b < 6, t.fb cause b = (s.dev.fb cause b && !v.getLsbD b)) ∧ t.secs = s.dev.secs ∧
      ∀ l : Loc, l.key ≠ cause.key → t.rd l = s.dev.rd l) ∧
    Runs (pf0 (at_ Reg.BOOT.STAT)) s (s.dev.wr Reg.BOOT.STAT.hubAt (s.dev.rd Reg.BOOT.STAT.hubAt)) ∧
    (∃ t : Dev, Runs (.regPairLowRead 8 (at_ Reg.DEV.ACCCNT) 2) s t ∧ t.rdata = (toBytes 4 (s.dev.rd cnt)).map (BitVec.ofNat 8) ∧ t.rd cnt = 0))

/-- R528: an instruction of the JTAG port is loaded and a scan of its data register answers what came out at TDO: BYPASS one bit, IDCODE 0xB09804F3, and
the others the boundary register, which captures the levels of the balls and then holds what was shifted in; EXTEST_TRAIN counts the TCK cycles of Run-Test/Idle.
The device goes on as it was, held in reset too. R529, R7, R491: the SMBus target answers at
0b1011_ABC with a right or absent PEC, while the device is not held in reset: command 0x01 sets the address, 0x02 reads the register there as any read of PF0's layout
does, 0x03 writes it as any write of source 9 does, 0x04 answers the boot stage and SAFE. Beyond the layout a read answers 0 and a write is recorded as unmapped. At
another address, or with a wrong PEC, nothing happens. Choices of the model in it: logs 14, 15 and 65. -/
def Obligations.JtagAndSmbus : Prop :=
  (∀ (s : State) (len : Fin 4096) (tdi : Nat) (idle : BitVec 8),
    (∃ d : Dev, Runs (.bypass len tdi) s d ∧ d.pins.ins = .bypass ∧ d.rdata = (toBytes ((len + 7) / 8) (tdi * 2 % 2 ^ len.val)).map (BitVec.ofNat 8) ∧
      d.secs = s.dev.secs ∧ d.regs = s.dev.regs) ∧
    (∃ d : Dev, Runs (.idcode len tdi) s d ∧ d.pins.ins = .idcode ∧
      d.rdata = (toBytes ((len + 7) / 8) ((0xB09804F3 + tdi % 2 ^ len.val * 2 ^ 32) % 2 ^ len.val)).map (BitVec.ofNat 8) ∧
      (len.val = 32 → d.rdata = [0xF3, 0x04, 0x98, 0xB0]) ∧ d.secs = s.dev.secs ∧ d.regs = s.dev.regs) ∧
    (let bound := fun (c : Instr) (ins : JtagIns) (tcks : Nat) =>
       ∃ (d : Dev) (x : Nat), Runs c s d ∧ x < 2 ^ boundary.length ∧
         (∀ k b, boundary[k]? = some b → x.testBit k = (s.dev.pin (fun p => { p with ins := ins })).ballSample k b) ∧
         (∀ k, boundary[k]? = some .alert → x.testBit k = !(s.dev.inSafe || s.dev.fd Reg.PWR.RSTCAUSE.hubAt 5 2 != 0)) ∧
         (∀ k i, boundary[k]? = some (.smbAddr i) → x.testBit k = s.dev.pins.smbAddr.testBit i) ∧
         d.pins.ins = ins ∧ d.pins.tcks = tcks ∧
         d.rdata = (toBytes ((len + 7) / 8) ((x + tdi % 2 ^ len.val * 2 ^ boundary.length) % 2 ^ len.val)).map (BitVec.ofNat 8) ∧
         (len.val = 0 → d.pins.bsr = s.dev.pins.bsr) ∧
         (len.val ≠ 0 → d.pins.bsr = (x + tdi % 2 ^ len.val * 2 ^ boundary.length) / 2 ^ len.val % 2 ^ boundary.length) ∧
         d.secs = s.dev.secs ∧ d.regs = s.dev.regs
     bound (.samplePreload len tdi) .sample 0 ∧ bound (.extest len tdi) .extest 0 ∧ bound (.extestPulse len tdi) .pulse 0 ∧
     bound (.extestTrain len tdi idle) .train (idle.toNat % 2))) ∧
  (∀ (s : State) (adr : BitVec 7) (pec : Bool) (v : BitVec 32),
    let a := s.dev.pins.smbReg
    (s.up → pec = true → adr.toNat = 0x58 + s.dev.pins.smbAddr % 8 →
      Runs (.smbSetAddress adr pec v) s { s.dev with pins := { s.dev.pins with smbReg := v.toNat } } ∧
      (∀ off : BitVec 26, off.toNat = a / 4 * 4 → ∃ t : Dev, Runs (.smbReadRegister adr pec) s t ∧ Runs (.regPairLowRead 8 off 2) s t) ∧
      (2 ^ 26 ≤ a → Runs (.smbReadRegister adr pec) s { s.dev with
        rdata := [0, 0, 0, 0]
        rstat := 0 }) ∧
      (∀ off : BitVec 26, off.toNat = a → ∃ t : Dev, Runs (.smbWriteRegister adr pec v) s t ∧
        Runs (.registerWrite 9 0 8 off 2 (v.setWidth 64) 0) s t) ∧
      (2 ^ 26 ≤ a →
        let d := s.dev.bump Reg.DEV.ACCCNT.hubAt
        (s.dev.fb Reg.DEV.ACCERR.hubAt 31 = true → Runs (.smbWriteRegister adr pec v) s d) ∧
        (s.dev.fb Reg.DEV.ACCERR.hubAt 31 = false → Runs (.smbWriteRegister adr pec v) s
          ((d.wr Reg.DEV.ACCERR.hubAt (2 ^ 31 + 2 * 2 ^ 28 + 9 * 2 ^ 24)).wr Reg.DEV.ACCADDR.hubAt a))) ∧
      Runs (.smbReadStage adr pec) s { s.dev with
        rdata := [BitVec.ofNat 8 (s.dev.bootStage + if s.dev.inSafe then 16 else 0)]
        rstat := 0 }) ∧
    (s.dev.held = true ∨ pec = false ∨ adr.toNat ≠ 0x58 + s.dev.pins.smbAddr % 8 → Runs (.smbSetAddress adr pec v) s s.dev ∧
      Runs (.smbReadRegister adr pec) s s.dev ∧ Runs (.smbWriteRegister adr pec v) s s.dev ∧ Runs (.smbReadStage adr pec) s s.dev))
end

