-- ==== Sys2Proof/Laws/Sparse.lean ====
section
/-! SUPPORT. Sparse storage: a read after a write, other places left alone, and the canonical form kept. -/

namespace Sys2Proof.Machine

variable {α : Type}

theorem Sparse.find_put_same (k : Nat) (v : α) (m : Sparse α) : Sparse.find k (Sparse.put k v m) = some v := by
  induction m with
  | nil => simp [Sparse.put, Sparse.find]
  | cons e r ih =>
    obtain ⟨a, w⟩ := e
    simp only [Sparse.put]
    split
    · simp [Sparse.find]
    · split
      · simp [Sparse.find]
      · rename_i h1 h2
        simp [Sparse.find, Ne.symm h2, ih]

theorem Sparse.find_put_ne {j k : Nat} (h : j ≠ k) (v : α) (m : Sparse α) :
    Sparse.find j (Sparse.put k v m) = Sparse.find j m := by
  induction m with
  | nil => simp [Sparse.put, Sparse.find, Ne.symm h]
  | cons e r ih =>
    obtain ⟨a, w⟩ := e
    simp only [Sparse.put]
    split
    · simp [Sparse.find, Ne.symm h]
    · split
      · rename_i h2; subst h2; simp [Sparse.find, Ne.symm h]
      · simp [Sparse.find, ih]

theorem Sparse.find_drop_same (k : Nat) (m : Sparse α) : Sparse.find k (Sparse.drop k m) = none := by
  induction m with
  | nil => rfl
  | cons e r ih =>
    obtain ⟨a, w⟩ := e
    simp only [Sparse.drop]
    split
    · exact ih
    · rename_i h; simp [Sparse.find, h, ih]

theorem Sparse.find_drop_ne {j k : Nat} (h : j ≠ k) (m : Sparse α) : Sparse.find j (Sparse.drop k m) = Sparse.find j m := by
  induction m with
  | nil => rfl
  | cons e r ih =>
    obtain ⟨a, w⟩ := e
    simp only [Sparse.drop]
    split
    · rename_i h2; subst h2; simp [Sparse.find, Ne.symm h, ih]
    · simp [Sparse.find, ih]

theorem Sparse.get_set_same [DecidableEq α] (d : Nat → α) (m : Sparse α) (k : Nat) (v : α) :
    Sparse.get d (Sparse.set d m k v) k = v := by
  unfold Sparse.set Sparse.get
  split
  · rename_i h; simp [find_drop_same, h]
  · simp [find_put_same]

theorem Sparse.get_set_ne [DecidableEq α] (d d' : Nat → α) (m : Sparse α) {j k : Nat} (h : j ≠ k) (v : α) :
    Sparse.get d' (Sparse.set d m k v) j = Sparse.get d' m j := by
  unfold Sparse.set Sparse.get
  split
  · simp [find_drop_ne h]
  · simp [find_put_ne h]

theorem Sparse.above_put {b k : Nat} (v : α) (m : Sparse α) (hk : b < k) (h : Sparse.above b m = true) :
    Sparse.above b (Sparse.put k v m) = true := by
  induction m with
  | nil => simp [Sparse.put, Sparse.above, hk]
  | cons e r ih =>
    obtain ⟨a, w⟩ := e
    simp only [Sparse.above, Bool.and_eq_true, decide_eq_true_eq] at h
    simp only [Sparse.put]
    split
    · simp [Sparse.above, hk, h]
    · split
      · simp [Sparse.above, hk, h]
      · simp [Sparse.above, h, ih h.2]

theorem Sparse.above_drop {b : Nat} (k : Nat) (m : Sparse α) (h : Sparse.above b m = true) :
    Sparse.above b (Sparse.drop k m) = true := by
  induction m with
  | nil => rfl
  | cons e r ih =>
    obtain ⟨a, w⟩ := e
    simp only [Sparse.above, Bool.and_eq_true, decide_eq_true_eq] at h
    simp only [Sparse.drop]
    split
    · exact ih h.2
    · simp [Sparse.above, h, ih h.2]

theorem Sparse.above_trans {a b : Nat} (hab : a ≤ b) (m : Sparse α) (h : Sparse.above b m = true) : Sparse.above a m = true := by
  induction m with
  | nil => rfl
  | cons e r ih =>
    obtain ⟨c, w⟩ := e
    simp only [Sparse.above, Bool.and_eq_true, decide_eq_true_eq] at h ⊢
    exact ⟨by omega, ih h.2⟩

theorem Sparse.wf_put [DecidableEq α] (d : Nat → α) (k : Nat) (v : α) (m : Sparse α) (hv : v ≠ d k) (h : Sparse.wf d m = true) :
    Sparse.wf d (Sparse.put k v m) = true := by
  induction m with
  | nil => simp [Sparse.put, Sparse.wf, Sparse.above, hv]
  | cons e r ih =>
    obtain ⟨a, w⟩ := e
    simp only [Sparse.wf, Bool.and_eq_true, decide_eq_true_eq] at h
    simp only [Sparse.put]
    split
    · rename_i hk
      have := Sparse.above_trans (Nat.le_of_lt hk) r h.1.1
      simp [Sparse.wf, Sparse.above, hv, hk, this, h]
    · split
      · rename_i hk; subst hk; simp [Sparse.wf, hv, h]
      · have := Sparse.above_put v r (show a < k by omega) h.1.1
        simp [Sparse.wf, this, h, ih h.2]

theorem Sparse.wf_drop [DecidableEq α] (d : Nat → α) (k : Nat) (m : Sparse α) (h : Sparse.wf d m = true) :
    Sparse.wf d (Sparse.drop k m) = true := by
  induction m with
  | nil => rfl
  | cons e r ih =>
    obtain ⟨a, w⟩ := e
    simp only [Sparse.wf, Bool.and_eq_true, decide_eq_true_eq] at h
    simp only [Sparse.drop]
    split
    · exact ih h.2
    · have := Sparse.above_drop k r h.1.1
      simp [Sparse.wf, this, h, ih h.2]

/-- A write keeps the canonical form. -/
theorem Sparse.wf_set [DecidableEq α] (d : Nat → α) (k : Nat) (v : α) (m : Sparse α) (h : Sparse.wf d m = true) :
    Sparse.wf d (Sparse.set d m k v) = true := by
  unfold Sparse.set
  split
  · exact Sparse.wf_drop d k m h
  · rename_i hv; exact Sparse.wf_put d k v m hv h

theorem Sparse.above_keep {b : Nat} (p : Nat → Bool) (m : Sparse α) (h : Sparse.above b m = true) :
    Sparse.above b (Sparse.keep p m) = true := by
  induction m with
  | nil => rfl
  | cons e r ih =>
    obtain ⟨a, w⟩ := e
    simp only [Sparse.above, Bool.and_eq_true, decide_eq_true_eq] at h
    simp only [Sparse.keep, List.filter]
    split
    · simp only [Sparse.above, Bool.and_eq_true, decide_eq_true_eq]
      exact ⟨h.1, ih h.2⟩
    · exact ih h.2

theorem Sparse.wf_keep [DecidableEq α] (d : Nat → α) (p : Nat → Bool) (m : Sparse α) (h : Sparse.wf d m = true) :
    Sparse.wf d (Sparse.keep p m) = true := by
  induction m with
  | nil => rfl
  | cons e r ih =>
    obtain ⟨a, w⟩ := e
    simp only [Sparse.wf, Bool.and_eq_true, decide_eq_true_eq] at h
    simp only [Sparse.keep, List.filter]
    split
    · have := Sparse.above_keep p r h.1.1
      simp only [Sparse.wf, Bool.and_eq_true, decide_eq_true_eq]
      exact ⟨⟨this, h.1.2⟩, ih h.2⟩
    · exact ih h.2

end Sys2Proof.Machine
end

