-- ==== Sys2Proof/Laws/Regs.lean ====
section
/-! SUPPORT. Registers: a read after a write, fields, single bits, pairs and counters. -/

namespace Sys2Proof.Machine

/-! ### Bit fields -/

theorem bits_lt (v hi lo : Nat) : bits v hi lo < 2 ^ (hi + 1 - lo) := Nat.mod_lt _ (Nat.two_pow_pos _)

theorem testBit_bits (v hi lo i : Nat) : (bits v hi lo).testBit i = (decide (i < hi + 1 - lo) && v.testBit (i + lo)) := by
  simp [bits, Nat.testBit_mod_two_pow, Nat.testBit_div_two_pow]

/-- A number cut at a field: what lies below, the field, and what lies above. -/
theorem split_field (v hi lo : Nat) (h : lo ≤ hi + 1) :
    v = v % 2 ^ lo + bits v hi lo * 2 ^ lo + v / 2 ^ (hi + 1) * 2 ^ (hi + 1) := by
  have e : (2 : Nat) ^ (hi + 1) = 2 ^ lo * 2 ^ (hi + 1 - lo) := by rw [← Nat.pow_add]; congr 1; omega
  have h1 := Nat.div_add_mod v (2 ^ lo)
  have h2 := Nat.div_add_mod (v / 2 ^ lo) (2 ^ (hi + 1 - lo))
  rw [Nat.div_div_eq_div_mul, ← e] at h2
  unfold bits
  calc v = 2 ^ lo * (v / 2 ^ lo) + v % 2 ^ lo := h1.symm
    _ = 2 ^ lo * (2 ^ (hi + 1 - lo) * (v / 2 ^ (hi + 1)) + v / 2 ^ lo % 2 ^ (hi + 1 - lo)) + v % 2 ^ lo := by rw [h2]
    _ = _ := by rw [e]; ring

theorem setBits_eq (v hi lo x : Nat) (h : lo ≤ hi + 1) :
    setBits v hi lo x = v % 2 ^ lo + (x % 2 ^ (hi + 1 - lo)) * 2 ^ lo + v / 2 ^ (hi + 1) * 2 ^ (hi + 1) := by
  have := split_field v hi lo h
  unfold setBits
  omega

theorem testBit_setBits (v hi lo x i : Nat) (h : lo ≤ hi + 1) :
    (setBits v hi lo x).testBit i = if lo ≤ i ∧ i ≤ hi then x.testBit (i - lo) else v.testBit i := by
  have hx : x % 2 ^ (hi + 1 - lo) < 2 ^ (hi + 1 - lo) := Nat.mod_lt _ (Nat.two_pow_pos _)
  have hv : v % 2 ^ lo < 2 ^ lo := Nat.mod_lt _ (Nat.two_pow_pos _)
  have e : (2 : Nat) ^ (hi + 1) = 2 ^ lo * 2 ^ (hi + 1 - lo) := by rw [← Nat.pow_add]; congr 1; omega
  have hlow : v % 2 ^ lo + (x % 2 ^ (hi + 1 - lo)) * 2 ^ lo < 2 ^ (hi + 1) := by
    rw [e]
    calc _ < 2 ^ lo + (x % 2 ^ (hi + 1 - lo)) * 2 ^ lo := by omega
      _ = (x % 2 ^ (hi + 1 - lo) + 1) * 2 ^ lo := by ring
      _ ≤ 2 ^ (hi + 1 - lo) * 2 ^ lo := Nat.mul_le_mul_right _ hx
      _ = _ := by ring
  rw [setBits_eq v hi lo x h]
  rw [show v % 2 ^ lo + (x % 2 ^ (hi + 1 - lo)) * 2 ^ lo + v / 2 ^ (hi + 1) * 2 ^ (hi + 1) =
    2 ^ (hi + 1) * (v / 2 ^ (hi + 1)) + (v % 2 ^ lo + (x % 2 ^ (hi + 1 - lo)) * 2 ^ lo) by ring]
  rw [Nat.testBit_two_pow_mul_add _ hlow]
  rw [show v % 2 ^ lo + (x % 2 ^ (hi + 1 - lo)) * 2 ^ lo = 2 ^ lo * (x % 2 ^ (hi + 1 - lo)) + v % 2 ^ lo by ring]
  rw [Nat.testBit_two_pow_mul_add _ hv]
  simp only [Nat.testBit_mod_two_pow, Nat.testBit_div_two_pow]
  by_cases h1 : i < lo
  · have : ¬ (lo ≤ i ∧ i ≤ hi) := by omega
    have : i < hi + 1 := by omega
    simp [*]
  · by_cases h2 : i ≤ hi
    · have : i < hi + 1 := by omega
      have : i - lo < hi + 1 - lo := by omega
      have : lo ≤ i ∧ i ≤ hi := by omega
      simp [*]
    · have : ¬ i < hi + 1 := by omega
      have : ¬ (lo ≤ i ∧ i ≤ hi) := by omega
      have : i - (hi + 1) + (hi + 1) = i := by omega
      simp [*]

theorem setBits_lt {v hi lo x w : Nat} (hv : v < 2 ^ w) (h : lo ≤ hi + 1) (hw : hi < w) : setBits v hi lo x < 2 ^ w := by
  apply Nat.lt_pow_two_of_testBit
  intro i hi'
  rw [testBit_setBits _ _ _ _ _ h]
  have : ¬ (lo ≤ i ∧ i ≤ hi) := by omega
  rw [if_neg this]
  exact Nat.testBit_lt_two_pow (Nat.lt_of_lt_of_le hv (Nat.pow_le_pow_right (by omega) hi'))

theorem bits_setBits_same (v hi lo x : Nat) (h : lo ≤ hi + 1) : bits (setBits v hi lo x) hi lo = x % 2 ^ (hi + 1 - lo) := by
  apply Nat.eq_of_testBit_eq
  intro i
  rw [testBit_bits, testBit_setBits _ _ _ _ _ h, Nat.testBit_mod_two_pow]
  by_cases h1 : i < hi + 1 - lo
  · have : lo ≤ i + lo ∧ i + lo ≤ hi := by omega
    simp [h1, this]
  · simp [h1]

theorem bits_setBits_ne (v hi lo x hi' lo' : Nat) (h : lo ≤ hi + 1) (hd : hi < lo' ∨ hi' < lo) :
    bits (setBits v hi lo x) hi' lo' = bits v hi' lo' := by
  apply Nat.eq_of_testBit_eq
  intro i
  rw [testBit_bits, testBit_bits, testBit_setBits _ _ _ _ _ h]
  by_cases h1 : i < hi' + 1 - lo'
  · have : ¬ (lo ≤ i + lo' ∧ i + lo' ≤ hi) := by omega
    simp [this]
  · simp [h1]

namespace Dev

variable (d : Dev)

theorem rd_lt (l : Loc) : d.rd l < 2 ^ 32 := BitVec.isLt _

/-- A register written holds the low 32 bits of the value. -/
theorem rd_wr_same (l : Loc) (v : Nat) : (d.wr l v).rd l = v % 2 ^ 32 := by
  simp [rd, wr, Sparse.get_set_same]

/-- A write leaves every register elsewhere as it was. -/
theorem rd_wr_ne {l l' : Loc} (h : l'.key ≠ l.key) (v : Nat) : (d.wr l v).rd l' = d.rd l' := by
  simp only [rd, wr]
  rw [Sparse.get_set_ne _ _ _ h]

theorem rd_wf_ne {l l' : Loc} (h : l'.key ≠ l.key) (hi lo v : Nat) : (d.wf l hi lo v).rd l' = d.rd l' := rd_wr_ne d h _
theorem rd_wb_ne {l l' : Loc} (h : l'.key ≠ l.key) (n : Nat) (b : Bool) : (d.wb l n b).rd l' = d.rd l' := rd_wr_ne d h _
theorem rd_bump_ne {l l' : Loc} (h : l'.key ≠ l.key) (k : Nat) : (d.bump l k).rd l' = d.rd l' := rd_wr_ne d h _
theorem fd_wr_ne {l l' : Loc} (h : l'.key ≠ l.key) (v hi lo : Nat) : (d.wr l v).fd l' hi lo = d.fd l' hi lo := by
  simp [fd, rd_wr_ne d h]
theorem fb_wr_ne {l l' : Loc} (h : l'.key ≠ l.key) (v n : Nat) : (d.wr l v).fb l' n = d.fb l' n := by
  simp [fb, rd_wr_ne d h]
theorem fd_wf_ne {l l' : Loc} (h : l'.key ≠ l.key) (hi lo v hi' lo' : Nat) : (d.wf l hi lo v).fd l' hi' lo' = d.fd l' hi' lo' :=
  fd_wr_ne d h _ _ _
theorem fb_wf_ne {l l' : Loc} (h : l'.key ≠ l.key) (hi lo v n : Nat) : (d.wf l hi lo v).fb l' n = d.fb l' n := fb_wr_ne d h _ _
theorem fd_wb_ne {l l' : Loc} (h : l'.key ≠ l.key) (n : Nat) (b : Bool) (hi lo : Nat) : (d.wb l n b).fd l' hi lo = d.fd l' hi lo :=
  fd_wr_ne d h _ _ _
theorem fb_wb_ne {l l' : Loc} (h : l'.key ≠ l.key) (n : Nat) (b : Bool) (m : Nat) : (d.wb l n b).fb l' m = d.fb l' m := fb_wr_ne d h _ _

theorem rd_wf_same (l : Loc) (hi lo v : Nat) (h : lo ≤ hi + 1) (hw : hi < 32) : (d.wf l hi lo v).rd l = setBits (d.rd l) hi lo v := by
  unfold wf
  rw [rd_wr_same, Nat.mod_eq_of_lt (setBits_lt (d.rd_lt l) h hw)]

/-- A field set holds the low bits of the value. -/
theorem fd_wf_same (l : Loc) (hi lo v : Nat) (h : lo ≤ hi + 1) (hw : hi < 32) : (d.wf l hi lo v).fd l hi lo = v % 2 ^ (hi + 1 - lo) := by
  simp only [fd]
  rw [rd_wf_same d l hi lo v h hw, bits_setBits_same _ _ _ _ h]

/-- Setting a field leaves the other fields of its register. -/
theorem fd_wf_other (l : Loc) (hi lo v hi' lo' : Nat) (h : lo ≤ hi + 1) (hw : hi < 32) (hd : hi < lo' ∨ hi' < lo) :
    (d.wf l hi lo v).fd l hi' lo' = d.fd l hi' lo' := by
  simp only [fd]
  rw [rd_wf_same d l hi lo v h hw, bits_setBits_ne _ _ _ _ _ _ h hd]

theorem fb_wf (l : Loc) (hi lo v n : Nat) (h : lo ≤ hi + 1) (hw : hi < 32) :
    (d.wf l hi lo v).fb l n = if lo ≤ n ∧ n ≤ hi then v.testBit (n - lo) else d.fb l n := by
  simp only [fb]
  rw [rd_wf_same d l hi lo v h hw, testBit_setBits _ _ _ _ _ h]

theorem fb_wb_same (l : Loc) (n : Nat) (b : Bool) (hw : n < 32) : (d.wb l n b).fb l n = b := by
  unfold wb
  rw [fb_wf d l n n _ n (by omega) hw]
  cases b <;> simp [b2n]

theorem fb_wb_other (l : Loc) (n m : Nat) (b : Bool) (hw : n < 32) (h : m ≠ n) : (d.wb l n b).fb l m = d.fb l m := by
  unfold wb
  rw [fb_wf d l n n _ m (by omega) hw, if_neg (by omega)]

theorem fd_wb_other (l : Loc) (n hi lo : Nat) (b : Bool) (hw : n < 32) (h : n < lo ∨ hi < n) : (d.wb l n b).fd l hi lo = d.fd l hi lo :=
  fd_wf_other d l n n _ hi lo (by omega) hw h

/-- A saturating counter raised. -/
theorem rd_bump_same (l : Loc) (k : Nat) : (d.bump l k).rd l = min (d.rd l + k) (2 ^ 32 - 1) := by
  unfold bump satAdd
  rw [rd_wr_same]
  omega

/-- The halves of a pair have keys of their own. -/
theorem ofHi_key (r : Row) (n : Nat) (ix : List Nat) : (r.ofHi n ix).key = (r.of n ix).key + 4 := rfl

/-- A pair written whole holds the value. -/
theorem rd64_wr64_same (r : Row) (n : Nat) (ix : List Nat) (v : Nat) : (d.wr64 r n ix v).rd64 r n ix = v % 2 ^ 64 := by
  unfold wr64 rd64
  rw [rd_wr_same, rd_wr_ne _ (by rw [ofHi_key]; omega), rd_wr_same]
  omega

theorem rd64_wr_ne (r : Row) (n : Nat) (ix : List Nat) {l : Loc} (v : Nat) (h : (r.of n ix).key ≠ l.key) (h' : (r.of n ix).key + 4 ≠ l.key) :
    (d.wr l v).rd64 r n ix = d.rd64 r n ix := by
  unfold rd64
  rw [rd_wr_ne _ h, rd_wr_ne _ (by rw [ofHi_key]; exact h')]

theorem rd_wr64_ne (r : Row) (n : Nat) (ix : List Nat) {l : Loc} (v : Nat) (h : l.key ≠ (r.of n ix).key) (h' : l.key ≠ (r.of n ix).key + 4) :
    (d.wr64 r n ix v).rd l = d.rd l := by
  unfold wr64
  rw [rd_wr_ne _ (by rw [ofHi_key]; exact h'), rd_wr_ne _ h]

@[simp] theorem when_true (f : Dev → Dev) : d.when true f = f d := rfl
@[simp] theorem when_false (f : Dev → Dev) : d.when false f = d := rfl

end Dev

/-! ### Vectors -/

theorem vmod_size {α : Type} {n : Nat} (v : Vector α n) (i : Nat) (f : α → α) : (vmod v i f).size = n := rfl

theorem vget_vmod_same {α : Type} {n : Nat} (v : Vector α n) (i : Nat) (f : α → α) (z : α) (h : i < n) :
    vget (vmod v i f) i z = f (vget v i z) := by
  unfold vget vmod
  simp [h, List.getD]

theorem vget_vmod_ne {α : Type} {n : Nat} (v : Vector α n) (i j : Nat) (f : α → α) (z : α) (h : j ≠ i) :
    vget (vmod v i f) j z = vget v j z := by
  unfold vget vmod
  split
  · simp [List.getD, Ne.symm h]
  · rfl

end Sys2Proof.Machine
end

