-- ==== Sys2Proof/Laws/Gates.lean ====
section
/-! SUPPORT. When a command takes effect, and what it leaves when it does not. -/

namespace Sys2Proof.Machine

variable {s : State} {f : Dev → Dev} {n : Nat}

/-- A command of the device, not held in reset. -/
theorem State.live_up (h : s.up) : s.live f = .next { s with dev := f s.dev } := by
  have h : s.dev.held = false := h
  simp [State.live, State.act, Dev.when, h]

/-- A command of a section that takes commands. -/
theorem State.sect_up (h : s.upIn n) : s.sect n f = .next { s with dev := f s.dev } := by
  obtain ⟨h1, h2⟩ := h
  simp [State.sect, State.act, Dev.when, h1, h2]

/-- A write of a hub register outside SAFE. -/
theorem State.hubReg_up (h : s.hubUp) : s.hubReg f = .next { s with dev := f s.dev } := by
  obtain ⟨h1, h2⟩ := h
  simp [State.hubReg, State.act, Dev.when, h1, h2]

/-- A command of a section's unit. -/
theorem State.unit_up (h : s.upIn n) : s.unit n f = .next { s with dev := f s.dev } := by
  obtain ⟨h1, h2⟩ := h
  simp [State.unit, State.act, Dev.when, h1, h2]

/-- A command of the hub's unit. -/
theorem State.unit_hub (h : s.up) : s.unit 8 f = .next { s with dev := f s.dev } := by
  have h : s.dev.held = false := h
  simp [State.unit, State.act, Dev.when, h]

/-- A command on the fuses. -/
theorem State.fuses_up {g : State → State} (h : s.up) : s.fuses g = .next (g s) := by
  have h : s.dev.held = false := h
  simp [State.fuses, h]

/-- Nothing changes in a section that is not ON, or is in soft reset, or in a device held in reset. -/
theorem State.sect_off (h : s.dev.held = true ∨ s.dev.sectionOn n = false) : s.sect n f = .next s := by
  rcases h with h | h <;> simp [State.sect, State.act, Dev.when, h]

/-- Nothing changes while the device is held in reset. -/
theorem State.live_held (h : s.dev.held = true) : s.live f = .next s := by
  simp [State.live, State.act, Dev.when, h]

theorem State.hubReg_off (h : s.dev.held = true ∨ s.dev.inSafe = true) : s.hubReg f = .next s := by
  rcases h with h | h <;> simp [State.hubReg, State.act, Dev.when, h]

end Sys2Proof.Machine
end

