-- ==== Sys2Proof/Laws/Ops.lean ====
section
/-! SUPPORT. What the shared operations over sections, lanes, bundles and lists answer and leave. -/

namespace Sys2Proof.Machine

theorem vmod_other {α : Type} {n : Nat} (v : Vector α n) {i j : Nat} (f : α → α) (h : j ≠ i) : (vmod v i f).toList[j]? = v.toList[j]? := by
  unfold vmod
  split
  · simp [Ne.symm h]
  · rfl

namespace Dev

variable (d : Dev)

/-! ### Lists of changes -/

@[simp] theorem each_nil {α : Type} (f : α → Dev → Dev) : d.each [] f = d := rfl
@[simp] theorem each_cons {α : Type} (x : α) (l : List α) (f : α → Dev → Dev) : d.each (x :: l) f = (f x d).each l f := rfl
theorem each_append {α : Type} (l m : List α) (f : α → Dev → Dev) : d.each (l ++ m) f = (d.each l f).each m f := by
  simp [each]

/-- What every change keeps, and holds at the start, holds at the end. -/
theorem each_keeps {α : Type} (P : Dev → Prop) (l : List α) (f : α → Dev → Dev) (hf : ∀ x ∈ l, ∀ e, P e → P (f x e)) (h : P d) : P (d.each l f) := by
  induction l generalizing d with
  | nil => exact h
  | cons x l ih => exact ih (f x d) (fun y hy => hf y (List.mem_cons_of_mem x hy)) (hf x List.mem_cons_self d h)

/-- A part of the device that every change leaves is left. -/
theorem each_same {α β : Type} (g : Dev → β) (l : List α) (f : α → Dev → Dev) (hf : ∀ x ∈ l, ∀ e, g (f x e) = g e) : g (d.each l f) = g d :=
  each_keeps d (fun e => g e = g d) l f (fun x hx e h => (hf x hx e).trans h) rfl

theorem when_keeps (P : Dev → Prop) (c : Bool) (f : Dev → Dev) (hf : c = true → P d → P (f d)) (h : P d) : P (d.when c f) := by
  cases c with
  | true => exact hf rfl h
  | false => exact h

/-! ### Sections and functions -/

/-- A section changed shows the change. -/
theorem getSec_sec_same {α : Type} {n : Nat} (z : α) (g : Sec → α) (f : Sec → Sec) (h : n < 8) :
    (d.sec n f).getSec n z g = d.getSec n z (fun s => g (f s)) := by
  simp [getSec, sec, vmod, h]

/-- The other sections are as they were. -/
theorem getSec_sec_ne {α : Type} {n m : Nat} (z : α) (g : Sec → α) (f : Sec → Sec) (h : m ≠ n) : (d.sec n f).getSec m z g = d.getSec m z g := by
  simp only [getSec, sec]
  rw [vmod_other _ _ h]

/-- A part of the sections that no change of the registers reaches. -/
theorem getSec_congr {α : Type} {d e : Dev} (h : e.secs = d.secs) (n : Nat) (z : α) (g : Sec → α) : e.getSec n z g = d.getSec n z g := by
  unfold getSec
  rw [h]

theorem rd_congr {d e : Dev} (h : e.regs = d.regs) (l : Loc) : e.rd l = d.rd l := by
  unfold rd
  rw [h]

@[simp] theorem rd_sec (n : Nat) (f : Sec → Sec) (l : Loc) : (d.sec n f).rd l = d.rd l := rfl
@[simp] theorem fd_sec (n : Nat) (f : Sec → Sec) (l : Loc) (hi lo : Nat) : (d.sec n f).fd l hi lo = d.fd l hi lo := rfl
@[simp] theorem fb_sec (n : Nat) (f : Sec → Sec) (l : Loc) (k : Nat) : (d.sec n f).fb l k = d.fb l k := rfl

/-- A function's host state changed shows the change. -/
theorem getFn_fn_same {α : Type} {k : Nat} (z : α) (g : HostFn → α) (f : HostFn → HostFn) (h : k < 9) :
    (d.fn k f).getFn k z g = d.getFn k z (fun x => g (f x)) := by
  simp [getFn, fn, vmod, h]

/-- The other functions are as they were. -/
theorem getFn_fn_ne {α : Type} {k m : Nat} (z : α) (g : HostFn → α) (f : HostFn → HostFn) (h : m ≠ k) : (d.fn k f).getFn m z g = d.getFn m z g := by
  simp only [getFn, fn]
  rw [vmod_other _ _ h]

/-! ### Lanes and bundles -/

@[simp] theorem getLane_lane_same (l : Nat) (f : Lane → Lane) : (d.lane l f).getLane l = f (d.getLane l) := by
  simp [getLane, lane, Sparse.get_set_same]

theorem getLane_lane_ne {l m : Nat} (h : m ≠ l) (f : Lane → Lane) : (d.lane l f).getLane m = d.getLane m := by
  simp only [getLane, lane]
  rw [Sparse.get_set_ne _ _ _ h]

@[simp] theorem getBundle_bundle_same (k : Nat) (f : Bundle → Bundle) : (d.bundle k f).getBundle k = f (d.getBundle k) := by
  simp [getBundle, bundle, Sparse.get_set_same]

theorem getBundle_bundle_ne {k m : Nat} (h : m ≠ k) (f : Bundle → Bundle) : (d.bundle k f).getBundle m = d.getBundle m := by
  simp only [getBundle, bundle]
  rw [Sparse.get_set_ne _ _ _ h]

/-! ### Registers back at their reset values -/

/-- A register that a reset reaches reads its reset value. -/
theorem rd_resetRegs_in {dom : Nat} {p : Nat → Bool} {l : Loc} (h : l.key / 2 ^ 32 = dom) (hp : p (l.key % 2 ^ 32) = true) (hr : l.reset < 2 ^ 32) :
    (d.resetRegs dom p).rd l = l.reset := by
  have hf : Sparse.find l.key (d.resetRegs dom p).regs = none := by
    simp only [resetRegs]
    generalize d.regs = m
    induction m with
    | nil => rfl
    | cons x m ih =>
      simp only [Sparse.keep, List.filter_cons] at *
      split
      · rename_i hx
        have hne : x.1 ≠ l.key := by
          intro he
          rw [he, h, hp] at hx
          simp at hx
        simpa [Sparse.find, hne] using ih
      · exact ih
  simp only [rd, Sparse.get, hf]
  simpa using Nat.mod_eq_of_lt hr

/-- A register out of its reach is as it was. -/
theorem rd_resetRegs_out {dom : Nat} {p : Nat → Bool} {l : Loc} (h : l.key / 2 ^ 32 ≠ dom ∨ p (l.key % 2 ^ 32) = false) :
    (d.resetRegs dom p).rd l = d.rd l := by
  have hf : Sparse.find l.key (d.resetRegs dom p).regs = Sparse.find l.key d.regs := by
    simp only [resetRegs]
    generalize d.regs = m
    induction m with
    | nil => rfl
    | cons x m ih =>
      simp only [Sparse.keep, List.filter_cons] at *
      split
      · simp only [Sparse.find]
        split
        · rfl
        · exact ih
      · rename_i hx
        have hne : x.1 ≠ l.key := by
          intro he
          apply hx
          rw [he]
          rcases h with h | h
          · rw [beq_false_of_ne h]
            rfl
          · rw [h, Bool.and_false]
            rfl
        rw [ih]
        simp [Sparse.find, hne]
  simp only [rd, Sparse.get, hf]

end Dev

end Sys2Proof.Machine
end

