-- ==== Sys2Proof/Laws/Host.lean ====
section
/-! SUPPORT. What telling a function something may change: its host state, the host's memory, five registers of its HQ page, and what a
worker hands its parent. -/

namespace Sys2Proof.Machine

/-- The registers that a notice, a completion or a message writes: HQ.STAT, CPLTAIL, NLOST and PBA of the nine pages. -/
def hqTold (l : Loc) : Prop :=
  8 * 2 ^ 32 + 0x80000 ≤ l.key ∧ l.key < 8 * 2 ^ 32 + 0x89000 ∧
    (l.key % 4096 = 0x04 ∨ l.key % 4096 = 0x30 ∨ l.key % 4096 = 0x38 ∨ l.key % 4096 = 0xC00 ∨ l.key % 4096 = 0xC04)

/-- The two devices agree but for what telling a function may change. -/
structure Told (d e : Dev) : Prop where
  frame : e = { d with
    regs := e.regs
    host := e.host
    hostMem := e.hostMem
    hostEp := e.hostEp
    bundles := e.bundles }
  regs : ∀ l : Loc, ¬hqTold l → e.rd l = d.rd l

namespace Told

variable {d e c : Dev}

theorem refl (d : Dev) : Told d d := ⟨rfl, fun _ _ => rfl⟩

theorem trans (h : Told d e) (k : Told e c) : Told d c := by
  refine ⟨?_, fun l hl => (k.regs l hl).trans (h.regs l hl)⟩
  have hk := k.frame
  have hh := h.frame
  generalize c.regs = r, c.host = a, c.hostMem = b, c.hostEp = p, c.bundles = m at hk
  generalize e.regs = r', e.host = a', e.hostMem = b', e.hostEp = p', e.bundles = m' at hh
  subst hk hh
  rfl

theorem secs (h : Told d e) : e.secs = d.secs := by rw [h.frame]
theorem clk (h : Told d e) : e.clk = d.clk := by rw [h.frame]
theorem time (h : Told d e) : e.time = d.time := by rw [h.frame]
theorem pow (h : Told d e) : e.pow = d.pow := by rw [h.frame]
theorem boot (h : Told d e) : e.boot = d.boot := by rw [h.frame]
theorem tim (h : Told d e) : e.tim = d.tim := by rw [h.frame]
theorem lanes (h : Told d e) : e.lanes = d.lanes := by rw [h.frame]
theorem sys (h : Told d e) : e.sys = d.sys := by rw [h.frame]
theorem twin (h : Told d e) : e.twin = d.twin := by rw [h.frame]
theorem pins (h : Told d e) : e.pins = d.pins := by rw [h.frame]
theorem loads (h : Told d e) : e.loads = d.loads := by rw [h.frame]
theorem images (h : Told d e) : e.images = d.images := by rw [h.frame]
theorem hdma (h : Told d e) : e.hdma = d.hdma := by rw [h.frame]
theorem htrc (h : Told d e) : e.htrc = d.htrc := by rw [h.frame]
theorem ctl (h : Told d e) : e.ctl = d.ctl := by rw [h.frame]
theorem served (h : Told d e) : e.served = d.served := by rw [h.frame]
theorem free (h : Told d e) : e.free = d.free := by rw [h.frame]

theorem fd (h : Told d e) {l : Loc} (hl : ¬hqTold l) (hi lo : Nat) : e.fd l hi lo = d.fd l hi lo := by
  unfold Dev.fd
  rw [h.regs l hl]

theorem fb (h : Told d e) {l : Loc} (hl : ¬hqTold l) (k : Nat) : e.fb l k = d.fb l k := by
  unfold Dev.fb
  rw [h.regs l hl]

/-- No register of a section is told. -/
theorem of_section {n : Nat} (hn : n < 8) (x : Nat) (hx : x < 2 ^ 32) (v : Nat) : ¬hqTold ⟨n * 2 ^ 32 + x, v⟩ := by
  simp only [hqTold]
  omega

theorem getSec (h : Told d e) {α : Type} (n : Nat) (z : α) (g : Sec → α) : e.getSec n z g = d.getSec n z g := Dev.getSec_congr h.secs n z g

end Told

namespace Dev

variable (d : Dev)

theorem told_wr {l : Loc} (v : Nat) (hl : hqTold l) : Told d (d.wr l v) :=
  ⟨rfl, fun m hm => rd_wr_ne d (fun he => hm (by unfold hqTold at *; rw [he]; exact hl)) v⟩

theorem told_hostWrite (a : Nat) (bs : List Nat) : Told d (d.hostWrite a bs) := ⟨rfl, fun _ _ => rfl⟩

theorem told_fn (f : Nat) (g : HostFn → HostFn) : Told d (d.fn f g) := ⟨rfl, fun _ _ => rfl⟩

theorem told_showBusy {f : Nat} (hf : f < 9) : Told d (d.showBusy f) := by
  refine told_wr d _ ?_
  simp only [hqTold, Row.hubAt, Row.of, Row.dom, Reg.HQ.STAT, idxOff]
  simp
  omega

theorem told_msix {f : Nat} (hf : f < 9) (v : Nat) : Told d (d.msix f v) := by
  unfold msix
  split
  · unfold wr64
    refine (told_wr d _ ?_).trans (told_wr _ _ ?_)
    all_goals
      simp only [hqTold, Row.of, Row.ofHi, Row.dom, Reg.HQ.PBA, idxOff]
      simp
      omega
  · exact told_hostWrite d _ _

theorem told_signal {f : Nat} (hf : f < 9) (v : Nat) : Told d (d.signal f v) := by
  unfold signal
  extract_lets
  split
  · exact (told_fn d _ _).trans (told_msix _ hf v)
  · exact told_fn d _ _

theorem told_writeEntry {f : Nat} (hf : f < 9) (b : Nat) (rest : List Nat) : Told d (d.writeEntry f b rest) := by
  have ht : hqTold (Reg.HQ.CPLTAIL.hubAt [f]) := by
    simp only [hqTold, Row.hubAt, Row.of, Row.dom, Reg.HQ.CPLTAIL, idxOff]
    simp
    omega
  unfold writeEntry
  extract_lets
  split
  · exact ((told_hostWrite d _ _).trans (told_wr _ _ ht)).trans (told_wr _ _ ht)
  · exact (told_hostWrite d _ _).trans (told_wr _ _ ht)

theorem told_putNotice {f : Nat} (hf : f < 9) (n : Notice) : Told d (d.putNotice f n) := by
  unfold putNotice
  exact ((told_writeEntry d hf _ _).trans (told_fn _ _ _)).trans (told_signal _ hf _)

theorem told_drainNotices {f : Nat} (hf : f < 9) (k : Nat) : Told d (drainNotices k d f) := by
  induction k generalizing d with
  | zero => exact Told.refl d
  | succ k ih =>
    unfold drainNotices
    split
    · exact Told.refl d
    · split
      · exact ((told_fn d _ _).trans (told_putNotice _ hf _)).trans (ih _)
      · exact Told.refl d

theorem told_relayNotice (n : Notice) : Told d (d.relayNotice n) := by
  unfold relayNotice
  split
  · exact Told.refl d
  · exact ⟨rfl, fun _ _ => rfl⟩

/-- A notice to a function changes nothing else of the device. -/
theorem told_sendTo {f : Nat} (hf : f < 9) (n : Notice) : Told d (d.sendTo f n) := by
  have hn : hqTold (Reg.HQ.NLOST.hubAt [f]) := by
    simp only [hqTold, Row.hubAt, Row.of, Row.dom, Reg.HQ.NLOST, idxOff]
    simp
    omega
  unfold sendTo
  have hr : Told d (d.when (f == 0 && n.relay == 0 && d.fd Reg.SYS.CFG.hubAt 31 30 == 2) (fun d => d.relayNotice n)) := by
    unfold when
    split
    · exact told_relayNotice d n
    · exact Told.refl d
  refine hr.trans ?_
  generalize d.when _ _ = e
  dsimp only
  split
  · exact Told.refl e
  · split
    · exact (told_fn e _ _).trans (told_drainNotices _ hf _)
    · exact (told_fn e _ _).trans (told_wr _ _ hn)

/-- A section's notice marks the event at the section controller and changes nothing else of the device. -/
theorem told_notice {n : Nat} (hn : n < 8) (code : Nat) (items : List Nat) :
    Told (d.sec n (fun s => { s with ctl := { s.ctl with event := true } })) (d.notice n code items) := by
  unfold notice
  dsimp only
  split
  · exact (told_sendTo _ (by omega) _).trans (told_sendTo _ (by omega) _)
  · exact told_sendTo _ (by omega) _

/-- A hub unit's notice changes nothing else of the device. -/
theorem told_hubNotice (code : Nat) (items : List Nat) : Told d (d.hubNotice code items) := told_sendTo d (by omega) _

/-- A completion changes nothing else of the device. -/
theorem told_complete {f : Nat} (hf : f < 9) (cid status : Nat) (data : List Nat) : Told d (d.complete f cid status data) := by
  unfold complete
  split
  · exact told_showBusy d hf
  · exact (((told_writeEntry d hf _ _).trans (told_signal _ hf _)).trans (told_drainNotices _ hf _)).trans (told_showBusy _ hf)

theorem told_finish {f : Nat} (hf : f < 9) (c : HostCmd) (status : Nat) (data : List Nat) : Told d (d.finish f c status data) :=
  (told_fn d _ _).trans (told_complete _ hf _ _ _)

theorem told_finishLong {f : Nat} (hf : f < 9) (cid status : Nat) (data : List Nat) : Told d (d.finishLong f cid status data) :=
  (told_fn d _ _).trans (told_complete _ hf _ _ _)

end Dev

end Sys2Proof.Machine
end

