-- ==== Sys2Proof/Laws/Memory.lean ====
section
/-! SUPPORT. Section memory: the canonical form and what keeps it, and where the rest of a section is when its memory changes. -/

namespace Sys2Proof.Machine

/-- Reset memory has the canonical form. -/
theorem memWf_reset : State.reset.dev.memWf = true := by decide

namespace Dev

variable (d : Dev)

/-- The sections of a device whose section n has changed. -/
theorem mem_vmod {α : Type} {k : Nat} {v : Vector α k} {i : Nat} {f : α → α} {x : α} (h : x ∈ (vmod v i f).toList) :
    x ∈ v.toList ∨ ∃ y ∈ v.toList, x = f y := by
  unfold vmod at h
  split at h
  · rename_i hi
    rw [Vector.toList_set] at h
    rcases List.mem_or_eq_of_mem_set h with h | h
    · exact .inl h
    · exact .inr ⟨v[i], by simp, h⟩
  · exact .inl h

/-- A change of a section that keeps the form of its memory keeps the form of every memory. -/
theorem memWf_sec {n : Nat} {f : Sec → Sec} (hf : ∀ s, Memory.wf s.mem = true → Memory.wf (f s).mem = true) (h : d.memWf = true) :
    (d.sec n f).memWf = true := by
  simp only [memWf, List.all_eq_true] at h ⊢
  intro x hx
  rcases mem_vmod hx with hx | ⟨y, hy, rfl⟩
  · exact h x hx
  · exact hf y (h y hy)

/-- A change of a section's memory that keeps its form. -/
theorem memWf_mem {n : Nat} {f : SecMem → SecMem} (hf : ∀ m, Memory.wf m = true → Memory.wf (f m) = true) (h : d.memWf = true) :
    (d.mem n f).memWf = true := memWf_sec d (fun s => hf s.mem) h

/-- Nothing but sections holds section memory. -/
theorem memWf_congr {e : Dev} (h : e.secs = d.secs) : e.memWf = d.memWf := by unfold memWf; rw [h]

@[simp] theorem memWf_wr (l : Loc) (v : Nat) : (d.wr l v).memWf = d.memWf := rfl
@[simp] theorem memWf_wf (l : Loc) (hi lo v : Nat) : (d.wf l hi lo v).memWf = d.memWf := rfl
@[simp] theorem memWf_wb (l : Loc) (n : Nat) (b : Bool) : (d.wb l n b).memWf = d.memWf := rfl

theorem memWf_each {α : Type} (l : List α) (f : α → Dev → Dev) (hf : ∀ x e, e.memWf = true → (f x e).memWf = true) (h : d.memWf = true) :
    (d.each l f).memWf = true := by
  unfold each
  induction l generalizing d with
  | nil => exact h
  | cons x l ih => exact ih (f x d) (hf x d h)

theorem memWf_when (c : Bool) (f : Dev → Dev) (hf : ∀ e, e.memWf = true → (f e).memWf = true) (h : d.memWf = true) : (d.when c f).memWf = true := by
  cases c
  · exact h
  · exact hf d h

/-- Storing a byte keeps the form. -/
theorem memWf_setByte (n a v : Nat) (h : d.memWf = true) : (d.setByte n a v).memWf = true := by
  refine memWf_mem d (fun m hm => ?_) h
  simp only [Memory.wf, Bool.and_eq_true] at hm ⊢
  split
  · exact ⟨Sparse.wf_set _ _ _ _ hm.1, hm.2⟩
  · exact ⟨hm.1, Sparse.wf_set _ _ _ _ hm.2⟩

/-- Storing bytes keeps the form. -/
theorem memWf_setBytes (n a : Nat) (bs : List Nat) (h : d.memWf = true) : (d.setBytes n a bs).memWf = true :=
  memWf_each d _ _ (fun _ e he => memWf_setByte e n _ _ he) h

/-- A line's tag lies beside its bytes. -/
theorem memWf_setTag (n line : Nat) (t : LineTag) (h : d.memWf = true) : (d.setTag n line t).memWf = true := by
  refine memWf_mem d (fun m hm => ?_) h
  split <;> exact hm

/-- A write within a line keeps the form. -/
theorem memWf_writeLine (n a : Nat) (bs : List Nat) (tag : Option LineTag) (h : d.memWf = true) : (d.writeLine n a bs tag).memWf = true := by
  have hb := memWf_setBytes d n a bs h
  unfold writeLine
  dsimp only
  split <;> split <;> exact memWf_setTag _ _ _ _ hb

/-- A bank that loses its contents keeps the form. -/
theorem memWf_bankClear (n b : Nat) (h : d.memWf = true) : (d.bankClear n b).memWf = true := by
  refine memWf_mem d (fun m hm => ?_) h
  simp only [Memory.wf, Bool.and_eq_true] at hm ⊢
  exact ⟨Sparse.wf_keep _ _ _ hm.1, hm.2⟩

theorem memWf_bankStart (n b : Nat) (h : d.memWf = true) : (d.bankStart n b).memWf = true := by
  unfold bankStart
  dsimp only
  split
  · exact h
  · exact memWf_mem _ (fun _ hm => hm) (memWf_when _ _ _ (fun _ he => he) h)

/-- A bank transition that ends keeps the form. -/
theorem memWf_bankDone (n b : Nat) (h : d.memWf = true) : (d.bankDone n b).memWf = true := by
  unfold bankDone
  split
  · exact h
  · refine memWf_bankStart _ _ _ (memWf_when _ _ _ (fun e he => memWf_bankClear e n b he) (memWf_when _ _ _ (fun _ he => he) ?_))
    exact memWf_mem (f := fun m => { m with bankMove := Sparse.drop b m.bankMove }) _ (fun _ hm => hm) h

/-- A section whose banks all go OFF keeps the form. -/
theorem memWf_banksOff (n : Nat) (h : d.memWf = true) : (d.banksOff n).memWf = true := by
  refine memWf_mem _ (fun m hm => ?_) h
  simp only [Memory.wf, Bool.and_eq_true] at hm ⊢
  exact ⟨rfl, hm.2⟩

/-- A line poisoned keeps the form. -/
theorem memWf_poisonLine (n line : Nat) (h : d.memWf = true) : (d.poisonLine n line).memWf = true := memWf_setTag d n line _ h

/-- A section controller's cache lines that go to memory keep the form. -/
theorem memWf_flushDirty (n m line : Nat) (h : d.memWf = true) : (d.flushDirty n m line).memWf = true := by
  unfold flushDirty
  split
  · exact h
  · split
    · exact memWf_sec _ (fun _ hs => hs) (memWf_writeLine d n _ _ _ h)
    · exact memWf_sec d (fun _ hs => hs) h

theorem memWf_flushWhere (n : Nat) (p : Nat → Bool) (h : d.memWf = true) : (d.flushWhere n p).memWf = true :=
  memWf_each d _ _ (fun l e he => memWf_flushDirty e n 31 l he) h

/-- The initial values of a section in its reserve keep the form. -/
theorem memWf_putReserve (n : Nat) (perm : Nat → Nat) (ini : List (Nat × Hvx.Init)) (h : d.memWf = true) : (d.putReserve n perm ini).memWf = true := by
  refine memWf_each _ _ _ (fun _ e he => memWf_setBytes e _ _ _ he) ?_
  refine memWf_mem _ (fun m hm => ?_) (memWf_flushWhere d n _ h)
  simp only [Memory.wf, Bool.and_eq_true] at hm ⊢
  exact ⟨hm.1, Sparse.wf_keep _ _ _ hm.2⟩

/-- A stack that loses its contents keeps the form. -/
theorem memWf_stackOff (n : Nat) (h : d.memWf = true) : (d.stackOff n).memWf = true := by
  unfold stackOff
  dsimp only
  split
  · refine memWf_each d _ _ (fun _ e he => memWf_mem e (fun m hm => ?_) he) h
    simp only [Memory.wf, Bool.and_eq_true] at hm ⊢
    exact ⟨hm.1, rfl⟩
  · exact h

/-- A section that loses its supplies keeps the form. -/
theorem memWf_off (n : Nat) (h : d.memWf = true) : (d.sec n Sec.off).memWf = true := by
  refine memWf_sec d (fun s hs => ?_) h
  simp only [Memory.wf, Bool.and_eq_true] at hs ⊢
  exact ⟨rfl, hs.2⟩

end Dev

end Sys2Proof.Machine
end

