-- ==== Sys2Proof/Laws/PerInstr.lean ====
section
/-! SUPPORT. The family of statements about commands as syntax: each constructor has a well-formed command, so that no row of the opcode
table is shut out by well-formedness. -/

namespace Sys2Proof.Laws

/-- Some command of the same constructor is well formed. -/
def Row.Statement (i : Instr) : Prop := ∃ j : Instr, j.ctorIdx = i.ctorIdx ∧ j.wf = true

theorem Row.regPairLowRead (lay : Fin 9) (off : BitVec 26) (size : Fin 3) : Row.Statement (.regPairLowRead lay off size) :=
  ⟨.regPairLowRead 0 0 0, rfl, by decide⟩
theorem Row.regPairLowWrite (lay : Fin 9) (off : BitVec 26) (v : BitVec 32) : Row.Statement (.regPairLowWrite lay off v) :=
  ⟨.regPairLowWrite 0 0 0, rfl, by decide⟩
theorem Row.regPairHighWrite (lay : Fin 9) (off : BitVec 26) (v : BitVec 32) : Row.Statement (.regPairHighWrite lay off v) :=
  ⟨.regPairHighWrite 0 0 0, rfl, by decide⟩
theorem Row.registerWrite (src : Fin 12) (sect : Fin 8) (lay : Fin 9) (off : BitVec 26) (size : Fin 4) (v : BitVec 64) (ph : Fin 4) : Row.Statement (.registerWrite src sect lay off size v ph) :=
  ⟨.registerWrite 0 0 0 0 0 0 0, rfl, by decide⟩
theorem Row.executeStep (n : Fin 8) (ph : Fin 4) : Row.Statement (.executeStep n ph) :=
  ⟨.executeStep 0 0, rfl, by decide⟩
theorem Row.nop (n : Fin 8) (cl : Fin 16) (crs : Fin 64) (bp : Fin 12) : Row.Statement (.nop n cl crs bp) :=
  ⟨.nop 0 0 0 0, rfl, by decide⟩
theorem Row.lut4 (n : Fin 8) (cl : Fin 16) (crs : Fin 64) (bp : Fin 12) : Row.Statement (.lut4 n cl crs bp) :=
  ⟨.lut4 0 0 0 0, rfl, by decide⟩
theorem Row.lut4e (n : Fin 8) (cl : Fin 16) (crs : Fin 64) (bp : Fin 12) : Row.Statement (.lut4e n cl crs bp) :=
  ⟨.lut4e 0 0 0 0, rfl, by decide⟩
theorem Row.muxg (n : Fin 8) (cl : Fin 16) (crs : Fin 64) (bp : Fin 12) : Row.Statement (.muxg n cl crs bp) :=
  ⟨.muxg 0 0 0 0, rfl, by decide⟩
theorem Row.muxr (n : Fin 8) (cl : Fin 16) (crs : Fin 64) (bp : Fin 12) : Row.Statement (.muxr n cl crs bp) :=
  ⟨.muxr 0 0 0 0, rfl, by decide⟩
theorem Row.mrd (n : Fin 8) (cl : Fin 16) (crs : Fin 64) : Row.Statement (.mrd n cl crs) :=
  ⟨.mrd 0 0 0, rfl, by decide⟩
theorem Row.mwr (n : Fin 8) (cl : Fin 16) (crs : Fin 64) : Row.Statement (.mwr n cl crs) :=
  ⟨.mwr 0 0 0, rfl, by decide⟩
theorem Row.qrd (n : Fin 8) (cl : Fin 16) (crs : Fin 64) (errs : List (Fin 1024 × Fin 3)) : Row.Statement (.qrd n cl crs errs) :=
  ⟨.qrd 0 0 0 [], rfl, by decide⟩
theorem Row.qwr (n : Fin 8) (cl : Fin 16) (crs : Fin 64) : Row.Statement (.qwr n cl crs) :=
  ⟨.qwr 0 0 0, rfl, by decide⟩
theorem Row.call (n : Fin 8) (cl : Fin 16) (crs : Fin 64) : Row.Statement (.call n cl crs) :=
  ⟨.call 0 0 0, rfl, by decide⟩
theorem Row.digest (n : Fin 8) (cl : Fin 16) (crs : Fin 64) : Row.Statement (.digest n cl crs) :=
  ⟨.digest 0 0 0, rfl, by decide⟩
theorem Row.qrdReturn (n : Fin 8) (cl : Fin 16) (crs : Fin 64) : Row.Statement (.qrdReturn n cl crs) :=
  ⟨.qrdReturn 0 0 0, rfl, by decide⟩
theorem Row.homePathAccess (n : Fin 8) (cl : Fin 16) (ecc : Fin 3) : Row.Statement (.homePathAccess n cl ecc) :=
  ⟨.homePathAccess 0 0 0, rfl, by decide⟩
theorem Row.homeMrdReturn (n : Fin 8) (cl : Fin 16) (crs : Fin 64) : Row.Statement (.homeMrdReturn n cl crs) :=
  ⟨.homeMrdReturn 0 0 0, rfl, by decide⟩
theorem Row.nonhomeBankAccess (n : Fin 8) (cl : Fin 16) (lost : Fin 128) (ecc : Fin 3) : Row.Statement (.nonhomeBankAccess n cl lost ecc) :=
  ⟨.nonhomeBankAccess 0 0 0 0, rfl, by decide⟩
theorem Row.nonhomeReturn (n : Fin 8) (cl : Fin 16) (crs : Fin 64) : Row.Statement (.nonhomeReturn n cl crs) :=
  ⟨.nonhomeReturn 0 0 0, rfl, by decide⟩
theorem Row.clusterSlotRead (n : Fin 8) (cl : Fin 16) (crs : Fin 64) (p : Fin 2) (ecc : Fin 3) : Row.Statement (.clusterSlotRead n cl crs p ecc) :=
  ⟨.clusterSlotRead 0 0 0 0 0, rfl, by decide⟩
theorem Row.clusterSlotWrite (n : Fin 8) (cl : Fin 16) (crs : Fin 64) (p : Fin 2) : Row.Statement (.clusterSlotWrite n cl crs p) :=
  ⟨.clusterSlotWrite 0 0 0 0, rfl, by decide⟩
theorem Row.exportSlotRead (n : Fin 8) (cl : Fin 16) (e : Fin 16) (ecc : Fin 3) : Row.Statement (.exportSlotRead n cl e ecc) :=
  ⟨.exportSlotRead 0 0 0 0, rfl, by decide⟩
theorem Row.exportSlotWrite (n : Fin 8) (cl : Fin 16) (crs : Fin 64) (p : Fin 2) : Row.Statement (.exportSlotWrite n cl crs p) :=
  ⟨.exportSlotWrite 0 0 0 0, rfl, by decide⟩
theorem Row.inputPinSample (n : Fin 8) (mask : BitVec 12) (level : BitVec 12) : Row.Statement (.inputPinSample n mask level) :=
  ⟨.inputPinSample 0 0 0, rfl, by decide⟩
theorem Row.outputUpdate (n : Fin 8) (bp : Fin 12) : Row.Statement (.outputUpdate n bp) :=
  ⟨.outputUpdate 0 0, rfl, by decide⟩
theorem Row.outputBallChange (c : Fin 96) : Row.Statement (.outputBallChange c) :=
  ⟨.outputBallChange 0, rfl, by decide⟩
theorem Row.holdSample (n : Fin 8) (mask : BitVec 12) (level : BitVec 12) : Row.Statement (.holdSample n mask level) :=
  ⟨.holdSample 0 0 0, rfl, by decide⟩
theorem Row.holdResample (n : Fin 8) : Row.Statement (.holdResample n) :=
  ⟨.holdResample 0, rfl, by decide⟩
theorem Row.holdStall (n : Fin 8) : Row.Statement (.holdStall n) :=
  ⟨.holdStall 0, rfl, by decide⟩
theorem Row.periodEnd (n : Fin 8) : Row.Statement (.periodEnd n) :=
  ⟨.periodEnd 0, rfl, by decide⟩
theorem Row.epilogueDrainEnd (n : Fin 8) : Row.Statement (.epilogueDrainEnd n) :=
  ⟨.epilogueDrainEnd 0, rfl, by decide⟩
theorem Row.start (n : Fin 8) (mode : Fin 4) : Row.Statement (.start n mode) :=
  ⟨.start 0 0, rfl, by decide⟩
theorem Row.pause (n : Fin 8) : Row.Statement (.pause n) :=
  ⟨.pause 0, rfl, by decide⟩
theorem Row.resume (n : Fin 8) : Row.Statement (.resume n) :=
  ⟨.resume 0, rfl, by decide⟩
theorem Row.stepRun (n : Fin 8) (mode : Fin 4) : Row.Statement (.stepRun n mode) :=
  ⟨.stepRun 0 0, rfl, by decide⟩
theorem Row.stop (n : Fin 8) : Row.Statement (.stop n) :=
  ⟨.stop 0, rfl, by decide⟩
theorem Row.restart (n : Fin 8) : Row.Statement (.restart n) :=
  ⟨.restart 0, rfl, by decide⟩
theorem Row.badCmd (n : Fin 8) (op : Fin 16) : Row.Statement (.badCmd n op) :=
  ⟨.badCmd 0 0, rfl, by decide⟩
theorem Row.armedStartFire (n : Fin 8) : Row.Statement (.armedStartFire n) :=
  ⟨.armedStartFire 0, rfl, by decide⟩
theorem Row.pauseEffect (n : Fin 8) : Row.Statement (.pauseEffect n) :=
  ⟨.pauseEffect 0, rfl, by decide⟩
theorem Row.stopEffect (n : Fin 8) : Row.Statement (.stopEffect n) :=
  ⟨.stopEffect 0, rfl, by decide⟩
theorem Row.stepComplete (n : Fin 8) : Row.Statement (.stepComplete n) :=
  ⟨.stepComplete 0, rfl, by decide⟩
theorem Row.restartComplete (n : Fin 8) : Row.Statement (.restartComplete n) :=
  ⟨.restartComplete 0, rfl, by decide⟩
theorem Row.faultHalt (n : Fin 8) : Row.Statement (.faultHalt n) :=
  ⟨.faultHalt 0, rfl, by decide⟩
theorem Row.groupMemberLeave (n : Fin 8) : Row.Statement (.groupMemberLeave n) :=
  ⟨.groupMemberLeave 0, rfl, by decide⟩
theorem Row.hctlClr (n : Fin 8) : Row.Statement (.hctlClr n) :=
  ⟨.hctlClr 0, rfl, by decide⟩
theorem Row.faultRecordClear (n : Fin 8) : Row.Statement (.faultRecordClear n) :=
  ⟨.faultRecordClear 0, rfl, by decide⟩
theorem Row.paceEvent (n : Fin 8) : Row.Statement (.paceEvent n) :=
  ⟨.paceEvent 0, rfl, by decide⟩
theorem Row.pacectlWrite (n : Fin 8) (v : BitVec 32) : Row.Statement (.pacectlWrite n v) :=
  ⟨.pacectlWrite 0 0, rfl, by decide⟩
theorem Row.loadImage (f : Fin 9) (err : Bool) : Row.Statement (.loadImage f err) :=
  ⟨.loadImage 0 false, rfl, by decide⟩
theorem Row.loadPass1Complete : Row.Statement .loadPass1Complete := ⟨.loadPass1Complete, rfl, by decide⟩
theorem Row.loadPass2Complete : Row.Statement .loadPass2Complete := ⟨.loadPass2Complete, rfl, by decide⟩
theorem Row.commit (f : Fin 9) (ph : Fin 4) : Row.Statement (.commit f ph) :=
  ⟨.commit 0 0, rfl, by decide⟩
theorem Row.autostartLoad : Row.Statement .autostartLoad := ⟨.autostartLoad, rfl, by decide⟩
theorem Row.clkctlWrite (n : Fin 8) (cl : Fin 16) (v : BitVec 32) : Row.Statement (.clkctlWrite n cl v) :=
  ⟨.clkctlWrite 0 0 0, rfl, by decide⟩
theorem Row.clockChangeDone (n : Fin 8) (cl : Fin 16) : Row.Statement (.clockChangeDone n cl) :=
  ⟨.clockChangeDone 0 0, rfl, by decide⟩
theorem Row.crst (n : Fin 8) (cl : Fin 16) : Row.Statement (.crst n cl) :=
  ⟨.crst 0 0, rfl, by decide⟩
theorem Row.clusterResetDone (n : Fin 8) (cl : Fin 16) : Row.Statement (.clusterResetDone n cl) :=
  ⟨.clusterResetDone 0 0, rfl, by decide⟩
theorem Row.dstoreWrite (n : Fin 8) (cl : Fin 16) (crs : Fin 64) (w : Fin 1024) (v : BitVec 32) : Row.Statement (.dstoreWrite n cl crs w v) :=
  ⟨.dstoreWrite 0 0 0 0 0, rfl, by decide⟩
theorem Row.dstoreRead (n : Fin 8) (cl : Fin 16) (crs : Fin 64) (w : Fin 1024) : Row.Statement (.dstoreRead n cl crs w) :=
  ⟨.dstoreRead 0 0 0 0, rfl, by decide⟩
theorem Row.codeWordStage (n : Fin 8) (pos : Fin 2) (slot : Fin 393216) (v : BitVec 32) : Row.Statement (.codeWordStage n pos slot v) :=
  ⟨.codeWordStage 0 0 0 0, rfl, by decide⟩
theorem Row.codeInstructionStore (n : Fin 8) (slot : Fin 393216) (v : BitVec 32) : Row.Statement (.codeInstructionStore n slot v) :=
  ⟨.codeInstructionStore 0 0 0, rfl, by decide⟩
theorem Row.serviceAccess (n : Fin 8) (m : Fin 31) (a : BitVec 38) (len : Fin 65) (bs : List (BitVec 8)) (errs : List (Fin 2048 × Fin 3)) (lat : BitVec 16) : Row.Statement (.serviceAccess n m a len bs errs lat) :=
  ⟨.serviceAccess 0 16 0 1 [] [] 0, rfl, by decide⟩
theorem Row.requestUrgent (n : Fin 8) (m : Fin 31) (b : Fin 16) : Row.Statement (.requestUrgent n m b) :=
  ⟨.requestUrgent 0 0 0, rfl, by decide⟩
theorem Row.bankpwrWrite (n : Fin 8) (v : BitVec 32) : Row.Statement (.bankpwrWrite n v) :=
  ⟨.bankpwrWrite 0 0, rfl, by decide⟩
theorem Row.bankPowerDone (n : Fin 8) (b : Fin 16) : Row.Statement (.bankPowerDone n b) :=
  ⟨.bankPowerDone 0 0, rfl, by decide⟩
theorem Row.fabricHbmRequest (n : Fin 8) (q : Fin 8) (ue : BitVec 32) (errs : List (Fin 1024 × Fin 3)) : Row.Statement (.fabricHbmRequest n q ue errs) :=
  ⟨.fabricHbmRequest 0 0 0 [], rfl, by decide⟩
theorem Row.hbmRequestComplete (n : Fin 8) (q : Fin 8) : Row.Statement (.hbmRequestComplete n q) :=
  ⟨.hbmRequestComplete 0 0, rfl, by decide⟩
theorem Row.hbmRefreshRateChange (k : Fin 2) (hot : Bool) : Row.Statement (.hbmRefreshRateChange k hot) :=
  ⟨.hbmRefreshRateChange 0 false, rfl, by decide⟩
theorem Row.queueWordWrite (n : Fin 8) (q : Fin 64) (ws : List (BitVec 12)) (eop : Bool) (tally : Option (BitVec 32)) (poison : Bool) (integ : Bool) : Row.Statement (.queueWordWrite n q ws eop tally poison integ) :=
  ⟨.queueWordWrite 0 8 [0] false none false false, rfl, by decide⟩
theorem Row.queueDequeue (n : Fin 8) (q : Fin 64) (k : Fin 1025) (errs : List (Fin 1024 × Fin 3)) : Row.Statement (.queueDequeue n q k errs) :=
  ⟨.queueDequeue 0 0 0 [], rfl, by decide⟩
theorem Row.ferryRst (n : Fin 8) (q : Fin 64) : Row.Statement (.ferryRst n q) :=
  ⟨.ferryRst 0 0, rfl, by decide⟩
theorem Row.queueTest (n : Fin 8) (q : Fin 64) : Row.Statement (.queueTest n q) :=
  ⟨.queueTest 0 0, rfl, by decide⟩
theorem Row.scrubTestDone (n : Fin 8) (q : Fin 64) (failed : Option (Fin 2)) : Row.Statement (.scrubTestDone n q failed) :=
  ⟨.scrubTestDone 0 0 none, rfl, by decide⟩
theorem Row.mailboxWrite (n : Fin 8) (w : BitVec 12) (eop : Bool) : Row.Statement (.mailboxWrite n w eop) :=
  ⟨.mailboxWrite 0 0 false, rfl, by decide⟩
theorem Row.callPrefetch (n : Fin 8) (x : Fin 8) : Row.Statement (.callPrefetch n x) :=
  ⟨.callPrefetch 0 0, rfl, by decide⟩
theorem Row.callDispatch (n : Fin 8) (x : Fin 8) : Row.Statement (.callDispatch n x) :=
  ⟨.callDispatch 0 0, rfl, by decide⟩
theorem Row.callAgeCheck (n : Fin 8) : Row.Statement (.callAgeCheck n) :=
  ⟨.callAgeCheck 0, rfl, by decide⟩
theorem Row.hvcdone (n : Fin 8) (x : Fin 8) : Row.Statement (.hvcdone n x) :=
  ⟨.hvcdone 0 0, rfl, by decide⟩
theorem Row.watchdogExpiry (n : Fin 8) (x : Fin 8) : Row.Statement (.watchdogExpiry n x) :=
  ⟨.watchdogExpiry 0 0, rfl, by decide⟩
theorem Row.returnEnqueue (n : Fin 8) : Row.Statement (.returnEnqueue n) :=
  ⟨.returnEnqueue 0, rfl, by decide⟩
theorem Row.corectlWrite (n : Fin 8) (v : BitVec 32) : Row.Statement (.corectlWrite n v) :=
  ⟨.corectlWrite 0 0, rfl, by decide⟩
theorem Row.crpoolWrite (n : Fin 8) (cl : Fin 16) (v : BitVec 32) : Row.Statement (.crpoolWrite n cl v) :=
  ⟨.crpoolWrite 0 0 0, rfl, by decide⟩
theorem Row.writebackError (n : Fin 8) (line : BitVec 32) : Row.Statement (.writebackError n line) :=
  ⟨.writebackError 0 0, rfl, by decide⟩
theorem Row.coreInstructionRetire (n : Fin 9) (x : Fin 9) (cyc : BitVec 16) (ph : Fin 4) (short : Bool) (op : CoreOp) (evict : List (BitVec 32)) (ecc : Fin 3) : Row.Statement (.coreInstructionRetire n x cyc ph short op evict ecc) :=
  ⟨.coreInstructionRetire 0 0 0 0 false (.compute 0 0) [] 0, rfl, by decide⟩
theorem Row.captArm (n : Fin 8) (ph : Fin 4) : Row.Statement (.captArm n ph) :=
  ⟨.captArm 0 0, rfl, by decide⟩
theorem Row.captDisarm (n : Fin 8) (ph : Fin 4) : Row.Statement (.captDisarm n ph) :=
  ⟨.captDisarm 0 0, rfl, by decide⟩
theorem Row.captForce (n : Fin 8) : Row.Statement (.captForce n) :=
  ⟨.captForce 0, rfl, by decide⟩
theorem Row.rowEvaluate (n : Fin 8) (ph : Fin 4) (written : BitVec 16) : Row.Statement (.rowEvaluate n ph written) :=
  ⟨.rowEvaluate 0 0 0, rfl, by decide⟩
theorem Row.sequencerRearm (n : Fin 8) (ph : Fin 4) : Row.Statement (.sequencerRearm n ph) :=
  ⟨.sequencerRearm 0 0, rfl, by decide⟩
theorem Row.headerWriteDone (n : Fin 8) : Row.Statement (.headerWriteDone n) :=
  ⟨.headerWriteDone 0, rfl, by decide⟩
theorem Row.captStoreError (n : Fin 8) (ph : Fin 4) : Row.Statement (.captStoreError n ph) :=
  ⟨.captStoreError 0 0, rfl, by decide⟩
theorem Row.actctlWrite (n : Fin 8) (v : BitVec 32) : Row.Statement (.actctlWrite n v) :=
  ⟨.actctlWrite 0 0, rfl, by decide⟩
theorem Row.trgEdge (x : Fin 24) (up : Bool) : Row.Statement (.trgEdge x up) :=
  ⟨.trgEdge 0 false, rfl, by decide⟩
theorem Row.timeTick : Row.Statement .timeTick := ⟨.timeTick, rfl, by decide⟩
theorem Row.timeLoad : Row.Statement .timeLoad := ⟨.timeLoad, rfl, by decide⟩
theorem Row.timeAdd : Row.Statement .timeAdd := ⟨.timeAdd, rfl, by decide⟩
theorem Row.nowfRead : Row.Statement .nowfRead := ⟨.nowfRead, rfl, by decide⟩
theorem Row.offsetSubmit (dm : Fin 2) (hi : BitVec 32) : Row.Statement (.offsetSubmit dm hi) :=
  ⟨.offsetSubmit 0 0, rfl, by decide⟩
theorem Row.domselWrite (v : BitVec 32) : Row.Statement (.domselWrite v) :=
  ⟨.domselWrite 0, rfl, by decide⟩
theorem Row.holdoverTimeout (dm : Fin 2) : Row.Statement (.holdoverTimeout dm) :=
  ⟨.holdoverTimeout 0, rfl, by decide⟩
theorem Row.alarmArm (a : Fin 4) (v : BitVec 32) : Row.Statement (.alarmArm a v) :=
  ⟨.alarmArm 0 0, rfl, by decide⟩
theorem Row.compareFire (a : Fin 4) : Row.Statement (.compareFire a) :=
  ⟨.compareFire 0, rfl, by decide⟩
theorem Row.pulseGenEnable (g : Fin 8) (v : BitVec 31) : Row.Statement (.pulseGenEnable g v) :=
  ⟨.pulseGenEnable 0 0, rfl, by decide⟩
theorem Row.pulseEdge (g : Fin 8) (ph : Fin 4) : Row.Statement (.pulseEdge g ph) :=
  ⟨.pulseEdge 0 0, rfl, by decide⟩
theorem Row.tsinfoRead (p : Fin 2) : Row.Statement (.tsinfoRead p) :=
  ⟨.tsinfoRead 0, rfl, by decide⟩
theorem Row.ptpFrameReceive (p : Fin 2) (event : Option (Fin 4 × BitVec 8 × BitVec 16)) (sub : Fin 32) (meas : Option (BitVec 64)) : Row.Statement (.ptpFrameReceive p event sub meas) :=
  ⟨.ptpFrameReceive 0 none 0 none, rfl, by decide⟩
theorem Row.dreqSend (dm : Fin 2) : Row.Statement (.dreqSend dm) :=
  ⟨.dreqSend 0, rfl, by decide⟩
theorem Row.drespReceive (l : Fin 256) (back : BitVec 8) : Row.Statement (.drespReceive l back) :=
  ⟨.drespReceive 0 0, rfl, by decide⟩
theorem Row.dreqTimeout (dm : Fin 2) : Row.Statement (.dreqTimeout dm) :=
  ⟨.dreqTimeout 0, rfl, by decide⟩
theorem Row.dreqReceive (l : Fin 256) (back : BitVec 8) : Row.Statement (.dreqReceive l back) :=
  ⟨.dreqReceive 0 0, rfl, by decide⟩
theorem Row.laneTrain (l : Fin 256) : Row.Statement (.laneTrain l) :=
  ⟨.laneTrain 0, rfl, by decide⟩
theorem Row.laneDisable (l : Fin 256) : Row.Statement (.laneDisable l) :=
  ⟨.laneDisable 0, rfl, by decide⟩
theorem Row.cdrLock (l : Fin 256) : Row.Statement (.cdrLock l) :=
  ⟨.cdrLock 0, rfl, by decide⟩
theorem Row.commaLock (l : Fin 256) (w : BitVec 40) : Row.Statement (.commaLock l w) :=
  ⟨.commaLock 0 0, rfl, by decide⟩
theorem Row.commaLoss (l : Fin 256) (w : BitVec 40) : Row.Statement (.commaLoss l w) :=
  ⟨.commaLoss 0 0, rfl, by decide⟩
theorem Row.fecLock (l : Fin 256) : Row.Statement (.fecLock l) :=
  ⟨.fecLock 0, rfl, by decide⟩
theorem Row.fecLoss (l : Fin 256) : Row.Statement (.fecLoss l) :=
  ⟨.fecLoss 0, rfl, by decide⟩
theorem Row.tlvExchangeDone (l : Fin 256) (rtt : BitVec 32) : Row.Statement (.tlvExchangeDone l rtt) :=
  ⟨.tlvExchangeDone 0 0, rfl, by decide⟩
theorem Row.frameEndCheck (l : Fin 256) (f : Fin 64) (area : BitVec 20544) (hop : BitVec 16) (fixed : BitVec 16) (bad : BitVec 4) : Row.Statement (.frameEndCheck l f area hop fixed bad) :=
  ⟨.frameEndCheck 0 0 0 0 0 0, rfl, by decide⟩
theorem Row.nakResendTimeout (l : Fin 256) : Row.Statement (.nakResendTimeout l) :=
  ⟨.nakResendTimeout 0, rfl, by decide⟩
theorem Row.nakReceive (l : Fin 256) : Row.Statement (.nakReceive l) :=
  ⟨.nakReceive 0, rfl, by decide⟩
theorem Row.linkFlitReceive (l : Fin 256) : Row.Statement (.linkFlitReceive l) :=
  ⟨.linkFlitReceive 0, rfl, by decide⟩
theorem Row.idleFlitReceive (l : Fin 256) : Row.Statement (.idleFlitReceive l) :=
  ⟨.idleFlitReceive 0, rfl, by decide⟩
theorem Row.tlvFlitReceive (l : Fin 256) : Row.Statement (.tlvFlitReceive l) :=
  ⟨.tlvFlitReceive 0, rfl, by decide⟩
theorem Row.packetFlitReceive (l : Fin 256) : Row.Statement (.packetFlitReceive l) :=
  ⟨.packetFlitReceive 0, rfl, by decide⟩
theorem Row.flitTransmit (l : Fin 256) (sub : Fin 32) : Row.Statement (.flitTransmit l sub) :=
  ⟨.flitTransmit 0 0, rfl, by decide⟩
theorem Row.trainTimeout (l : Fin 256) : Row.Statement (.trainTimeout l) :=
  ⟨.trainTimeout 0, rfl, by decide⟩
theorem Row.trainRetry (l : Fin 256) : Row.Statement (.trainRetry l) :=
  ⟨.trainRetry 0, rfl, by decide⟩
theorem Row.laneEqWrite (l : Fin 256) (which : Fin 3) (v : BitVec 32) : Row.Statement (.laneEqWrite l which v) :=
  ⟨.laneEqWrite 0 0 0, rfl, by decide⟩
theorem Row.laneTest (l : Fin 256) (on : Bool) : Row.Statement (.laneTest l on) :=
  ⟨.laneTest 0 false, rfl, by decide⟩
theorem Row.laneLoop (l : Fin 256) (mode : Fin 4) : Row.Statement (.laneLoop l mode) :=
  ⟨.laneLoop 0 0, rfl, by decide⟩
theorem Row.injectGo (l : Fin 256) : Row.Statement (.injectGo l) :=
  ⟨.injectGo 0, rfl, by decide⟩
theorem Row.eyeScanStart (l : Fin 256) : Row.Statement (.eyeScanStart l) :=
  ⟨.eyeScanStart 0, rfl, by decide⟩
theorem Row.eyeScanDone (l : Fin 256) (count : BitVec 64) : Row.Statement (.eyeScanDone l count) :=
  ⟨.eyeScanDone 0 0, rfl, by decide⟩
theorem Row.lanePllUnlock (q : Fin 64) : Row.Statement (.lanePllUnlock q) :=
  ⟨.lanePllUnlock 0, rfl, by decide⟩
theorem Row.neighbourReceive (k : Fin 256) : Row.Statement (.neighbourReceive k) :=
  ⟨.neighbourReceive 0, rfl, by decide⟩
theorem Row.censusReceive (k : Fin 256) : Row.Statement (.censusReceive k) :=
  ⟨.censusReceive 0, rfl, by decide⟩
theorem Row.registerReceive (k : Fin 256) : Row.Statement (.registerReceive k) :=
  ⟨.registerReceive 0, rfl, by decide⟩
theorem Row.commandReceive (k : Fin 256) : Row.Statement (.commandReceive k) :=
  ⟨.commandReceive 0, rfl, by decide⟩
theorem Row.responseReceive (k : Fin 256) : Row.Statement (.responseReceive k) :=
  ⟨.responseReceive 0, rfl, by decide⟩
theorem Row.noticeReceive (k : Fin 256) : Row.Statement (.noticeReceive k) :=
  ⟨.noticeReceive 0, rfl, by decide⟩
theorem Row.svcForward (k : Fin 256) (vc : Fin 4) : Row.Statement (.svcForward k vc) :=
  ⟨.svcForward 0 0, rfl, by decide⟩
theorem Row.censusTimer : Row.Statement .censusTimer := ⟨.censusTimer, rfl, by decide⟩
theorem Row.systemDeadline : Row.Statement .systemDeadline := ⟨.systemDeadline, rfl, by decide⟩
theorem Row.nodeLostTimeout (node : Fin 128) : Row.Statement (.nodeLostTimeout node) :=
  ⟨.nodeLostTimeout 0, rfl, by decide⟩
theorem Row.pairReceive : Row.Statement .pairReceive := ⟨.pairReceive, rfl, by decide⟩
theorem Row.pairRepeat : Row.Statement .pairRepeat := ⟨.pairRepeat, rfl, by decide⟩
theorem Row.pairingTimeout : Row.Statement .pairingTimeout := ⟨.pairingTimeout, rfl, by decide⟩
theorem Row.heartbeatSend : Row.Statement .heartbeatSend := ⟨.heartbeatSend, rfl, by decide⟩
theorem Row.heartbeatReceive : Row.Statement .heartbeatReceive := ⟨.heartbeatReceive, rfl, by decide⟩
theorem Row.heartbeatMiss : Row.Statement .heartbeatMiss := ⟨.heartbeatMiss, rfl, by decide⟩
theorem Row.digestReceive : Row.Statement .digestReceive := ⟨.digestReceive, rfl, by decide⟩
theorem Row.runcmdReceive : Row.Statement .runcmdReceive := ⟨.runcmdReceive, rfl, by decide⟩
theorem Row.runackReceive : Row.Statement .runackReceive := ⟨.runackReceive, rfl, by decide⟩
theorem Row.loadchkReceive : Row.Statement .loadchkReceive := ⟨.loadchkReceive, rfl, by decide⟩
theorem Row.selfFaultStepdown (cause : BitVec 8) : Row.Statement (.selfFaultStepdown cause) :=
  ⟨.selfFaultStepdown 0, rfl, by decide⟩
theorem Row.stepdownReceive (k : Fin 256) : Row.Statement (.stepdownReceive k) :=
  ⟨.stepdownReceive 0, rfl, by decide⟩
theorem Row.takeoverReceive (k : Fin 256) : Row.Statement (.takeoverReceive k) :=
  ⟨.takeoverReceive 0, rfl, by decide⟩
theorem Row.acceptReceive (k : Fin 256) : Row.Statement (.acceptReceive k) :=
  ⟨.acceptReceive 0, rfl, by decide⟩
theorem Row.rejectReceive (k : Fin 256) : Row.Statement (.rejectReceive k) :=
  ⟨.rejectReceive 0, rfl, by decide⟩
theorem Row.resumeReceive (k : Fin 256) : Row.Statement (.resumeReceive k) :=
  ⟨.resumeReceive 0, rfl, by decide⟩
theorem Row.takeoverTimeout : Row.Statement .takeoverTimeout := ⟨.takeoverTimeout, rfl, by decide⟩
theorem Row.mirrorPacketReceive : Row.Statement .mirrorPacketReceive := ⟨.mirrorPacketReceive, rfl, by decide⟩
theorem Row.mirrorCallReturn : Row.Statement .mirrorCallReturn := ⟨.mirrorCallReturn, rfl, by decide⟩
theorem Row.mirrorMailbox : Row.Statement .mirrorMailbox := ⟨.mirrorMailbox, rfl, by decide⟩
theorem Row.mirrorPinSample : Row.Statement .mirrorPinSample := ⟨.mirrorPinSample, rfl, by decide⟩
theorem Row.disposalReport : Row.Statement .disposalReport := ⟨.disposalReport, rfl, by decide⟩
theorem Row.openCmd (f : Fin 9) : Row.Statement (.openCmd f) :=
  ⟨.openCmd 0, rfl, by decide⟩
theorem Row.closeCmd (f : Fin 9) : Row.Statement (.closeCmd f) :=
  ⟨.closeCmd 0, rfl, by decide⟩
theorem Row.hhpStart (f : Fin 9) : Row.Statement (.hhpStart f) :=
  ⟨.hhpStart 0, rfl, by decide⟩
theorem Row.hhpPause (f : Fin 9) : Row.Statement (.hhpPause f) :=
  ⟨.hhpPause 0, rfl, by decide⟩
theorem Row.hhpResume (f : Fin 9) : Row.Statement (.hhpResume f) :=
  ⟨.hhpResume 0, rfl, by decide⟩
theorem Row.hhpStep (f : Fin 9) : Row.Statement (.hhpStep f) :=
  ⟨.hhpStep 0, rfl, by decide⟩
theorem Row.hhpStop (f : Fin 9) : Row.Statement (.hhpStop f) :=
  ⟨.hhpStop 0, rfl, by decide⟩
theorem Row.hhpRestart (f : Fin 9) : Row.Statement (.hhpRestart f) :=
  ⟨.hhpRestart 0, rfl, by decide⟩
theorem Row.queueReset (f : Fin 9) : Row.Statement (.queueReset f) :=
  ⟨.queueReset 0, rfl, by decide⟩
theorem Row.captureArm (f : Fin 9) (ph : Fin 4) : Row.Statement (.captureArm f ph) :=
  ⟨.captureArm 0 0, rfl, by decide⟩
theorem Row.captureDisarm (f : Fin 9) (ph : Fin 4) : Row.Statement (.captureDisarm f ph) :=
  ⟨.captureDisarm 0 0, rfl, by decide⟩
theorem Row.readFaults (f : Fin 9) : Row.Statement (.readFaults f) :=
  ⟨.readFaults 0, rfl, by decide⟩
theorem Row.timeSet (f : Fin 9) : Row.Statement (.timeSet f) :=
  ⟨.timeSet 0, rfl, by decide⟩
theorem Row.attest (f : Fin 9) (err : Bool) : Row.Statement (.attest f err) :=
  ⟨.attest 0 false, rfl, by decide⟩
theorem Row.systemStatus (f : Fin 9) (err : Bool) : Row.Statement (.systemStatus f err) :=
  ⟨.systemStatus 0 false, rfl, by decide⟩
theorem Row.hqEnable (f : Fin 9) : Row.Statement (.hqEnable f) :=
  ⟨.hqEnable 0, rfl, by decide⟩
theorem Row.cmdtailWrite (f : Fin 9) (v : BitVec 32) : Row.Statement (.cmdtailWrite f v) :=
  ⟨.cmdtailWrite 0 0, rfl, by decide⟩
theorem Row.commandFetch (f : Fin 9) (err : Bool) : Row.Statement (.commandFetch f err) :=
  ⟨.commandFetch 0 false, rfl, by decide⟩
theorem Row.cplheadWrite (f : Fin 9) (v : BitVec 32) : Row.Statement (.cplheadWrite f v) :=
  ⟨.cplheadWrite 0 0, rfl, by decide⟩
theorem Row.msixCoalesceTimeout (f : Fin 9) (vec : Fin 64) : Row.Statement (.msixCoalesceTimeout f vec) :=
  ⟨.msixCoalesceTimeout 0 0, rfl, by decide⟩
theorem Row.bar2Write (n : Fin 8) (off : BitVec 28) (bs : List (BitVec 8)) (ep : Bool) (errs : List (Fin 2048 × Fin 3)) : Row.Statement (.bar2Write n off bs ep errs) :=
  ⟨.bar2Write 0 0 [0] false [], rfl, by decide⟩
theorem Row.bar2Read (n : Fin 8) (off : BitVec 28) (len : Fin 4097) (errs : List (Fin 2048 × Fin 3)) (lat : BitVec 16) : Row.Statement (.bar2Read n off len errs lat) :=
  ⟨.bar2Read 0 0 1 [] 0, rfl, by decide⟩
theorem Row.flr (f : Fin 9) : Row.Statement (.flr f) :=
  ⟨.flr 0, rfl, by decide⟩
theorem Row.hotReset : Row.Statement .hotReset := ⟨.hotReset, rfl, by decide⟩
theorem Row.dmaGo (n : Fin 9) (c : Fin 4) (dspace : Bool) (vec : Fin 64) : Row.Statement (.dmaGo n c dspace vec) :=
  ⟨.dmaGo 0 0 false 0, rfl, by decide⟩
theorem Row.dmaHalt (n : Fin 9) (c : Fin 4) (dspace : Bool) (vec : Fin 64) : Row.Statement (.dmaHalt n c dspace vec) :=
  ⟨.dmaHalt 0 0 false 0, rfl, by decide⟩
theorem Row.dmaWdraw (n : Fin 9) (c : Fin 4) (dspace : Bool) (vec : Fin 64) : Row.Statement (.dmaWdraw n c dspace vec) :=
  ⟨.dmaWdraw 0 0 false 0, rfl, by decide⟩
theorem Row.dmaDoorbell (n : Fin 9) (c : Fin 4) : Row.Statement (.dmaDoorbell n c) :=
  ⟨.dmaDoorbell 0 0, rfl, by decide⟩
theorem Row.descriptorFetched (n : Fin 9) (c : Fin 4) : Row.Statement (.descriptorFetched n c) :=
  ⟨.descriptorFetched 0 0, rfl, by decide⟩
theorem Row.dmaBurstDone (n : Fin 9) (c : Fin 4) (errs : List (Fin 2048 × Fin 3)) (eps : List (Fin 64)) : Row.Statement (.dmaBurstDone n c errs eps) :=
  ⟨.dmaBurstDone 0 0 [] [], rfl, by decide⟩
theorem Row.readbackDone (n : Fin 9) (c : Fin 4) : Row.Statement (.readbackDone n c) :=
  ⟨.readbackDone 0 0, rfl, by decide⟩
theorem Row.nextWordRead (n : Fin 9) (c : Fin 4) : Row.Statement (.nextWordRead n c) :=
  ⟨.nextWordRead 0 0, rfl, by decide⟩
theorem Row.dmaTransferError (n : Fin 9) (c : Fin 4) (k : Fin 64) (errs : List (Fin 2048 × Fin 3)) : Row.Statement (.dmaTransferError n c k errs) :=
  ⟨.dmaTransferError 0 0 0 [], rfl, by decide⟩
theorem Row.rtcmdSwap (n : Fin 8) : Row.Statement (.rtcmdSwap n) :=
  ⟨.rtcmdSwap 0, rfl, by decide⟩
theorem Row.swapDrained (n : Fin 8) : Row.Statement (.swapDrained n) :=
  ⟨.swapDrained 0, rfl, by decide⟩
theorem Row.swapDrainTimeout (n : Fin 8) (p : Fin 45) : Row.Statement (.swapDrainTimeout n p) :=
  ⟨.swapDrainTimeout 0 0, rfl, by decide⟩
theorem Row.packetUrgent (n : Fin 8) (ini : Fin 16) : Row.Statement (.packetUrgent n ini) :=
  ⟨.packetUrgent 0 0, rfl, by decide⟩
theorem Row.stctlClr (n : Fin 8) (v : BitVec 32) : Row.Statement (.stctlClr n v) :=
  ⟨.stctlClr 0 0, rfl, by decide⟩
theorem Row.deltaSync (n : Fin 9) (x : Fin 10) : Row.Statement (.deltaSync n x) :=
  ⟨.deltaSync 0 0, rfl, by decide⟩
theorem Row.coreSleep (n : Fin 9) (x : Fin 9) : Row.Statement (.coreSleep n x) :=
  ⟨.coreSleep 0 0, rfl, by decide⟩
theorem Row.coreWake (n : Fin 9) (x : Fin 9) : Row.Statement (.coreWake n x) :=
  ⟨.coreWake 0 0, rfl, by decide⟩
theorem Row.tctlWrite (n : Fin 9) (x : Fin 10) (v : BitVec 32) : Row.Statement (.tctlWrite n x v) :=
  ⟨.tctlWrite 0 0 0, rfl, by decide⟩
theorem Row.traceBufferAccept (n : Fin 9) : Row.Statement (.traceBufferAccept n) :=
  ⟨.traceBufferAccept 0, rfl, by decide⟩
theorem Row.bctlClr (n : Fin 9) : Row.Statement (.bctlClr n) :=
  ⟨.bctlClr 0, rfl, by decide⟩
theorem Row.traceClearDone (n : Fin 9) : Row.Statement (.traceClearDone n) :=
  ⟨.traceClearDone 0, rfl, by decide⟩
theorem Row.porstN : Row.Statement .porstN := ⟨.porstN, rfl, by decide⟩
theorem Row.sysrstN : Row.Statement .sysrstN := ⟨.sysrstN, rfl, by decide⟩
theorem Row.bootStageComplete (outcome : Fin 4) : Row.Statement (.bootStageComplete outcome) :=
  ⟨.bootStageComplete 0, rfl, by decide⟩
theorem Row.flcmdRead : Row.Statement .flcmdRead := ⟨.flcmdRead, rfl, by decide⟩
theorem Row.flcmdProgram : Row.Statement .flcmdProgram := ⟨.flcmdProgram, rfl, by decide⟩
theorem Row.flcmdErase : Row.Statement .flcmdErase := ⟨.flcmdErase, rfl, by decide⟩
theorem Row.flcmdDone (fail : Bool) : Row.Statement (.flcmdDone fail) :=
  ⟨.flcmdDone false, rfl, by decide⟩
theorem Row.otpProgramSlot (alg : Fin 2) (slot : Fin 4) : Row.Statement (.otpProgramSlot alg slot) :=
  ⟨.otpProgramSlot 0 0, rfl, by decide⟩
theorem Row.otpProgramLock : Row.Statement .otpProgramLock := ⟨.otpProgramLock, rfl, by decide⟩
theorem Row.otpProgramDone (fail : Bool) : Row.Statement (.otpProgramDone fail) :=
  ⟨.otpProgramDone false, rfl, by decide⟩
theorem Row.bootAdvance : Row.Statement .bootAdvance := ⟨.bootAdvance, rfl, by decide⟩
theorem Row.vddCoreWarning (mv : BitVec 10) : Row.Statement (.vddCoreWarning mv) :=
  ⟨.vddCoreWarning 0, rfl, by decide⟩
theorem Row.brownoutAllHolding : Row.Statement .brownoutAllHolding := ⟨.brownoutAllHolding, rfl, by decide⟩
theorem Row.thrSwitchDone : Row.Statement .thrSwitchDone := ⟨.thrSwitchDone, rfl, by decide⟩
theorem Row.vddCoreRecoveryRise : Row.Statement .vddCoreRecoveryRise := ⟨.vddCoreRecoveryRise, rfl, by decide⟩
theorem Row.vddCoreRecoveryFall (mv : BitVec 10) : Row.Statement (.vddCoreRecoveryFall mv) :=
  ⟨.vddCoreRecoveryFall 0, rfl, by decide⟩
theorem Row.recoveryTimerExpire : Row.Statement .recoveryTimerExpire := ⟨.recoveryTimerExpire, rfl, by decide⟩
theorem Row.supplyResetLevel (core : Bool) : Row.Statement (.supplyResetLevel core) :=
  ⟨.supplyResetLevel false, rfl, by decide⟩
theorem Row.tempSensorRead (t : Vector (BitVec 10) 9) : Row.Statement (.tempSensorRead t) :=
  ⟨.tempSensorRead (Vector.replicate 9 0), rfl, by decide⟩
theorem Row.thermalDutyTimer : Row.Statement .thermalDutyTimer := ⟨.thermalDutyTimer, rfl, by decide⟩
theorem Row.sectionPowerOn (n : Fin 8) (srst : Bool) : Row.Statement (.sectionPowerOn n srst) :=
  ⟨.sectionPowerOn 0 false, rfl, by decide⟩
theorem Row.sectionPowerOff (n : Fin 8) (srst : Bool) : Row.Statement (.sectionPowerOff n srst) :=
  ⟨.sectionPowerOff 0 false, rfl, by decide⟩
theorem Row.powerTransitionDone (n : Fin 8) : Row.Statement (.powerTransitionDone n) :=
  ⟨.powerTransitionDone 0, rfl, by decide⟩
theorem Row.sectionSoftReset (n : Fin 8) (on : Bool) : Row.Statement (.sectionSoftReset n on) :=
  ⟨.sectionSoftReset 0 false, rfl, by decide⟩
theorem Row.softResetDone (n : Fin 8) : Row.Statement (.softResetDone n) :=
  ⟨.softResetDone 0, rfl, by decide⟩
theorem Row.refclkLoss : Row.Statement .refclkLoss := ⟨.refclkLoss, rfl, by decide⟩
theorem Row.corePllUnlock : Row.Statement .corePllUnlock := ⟨.corePllUnlock, rfl, by decide⟩
theorem Row.vccioChange (b : Fin 4) (mv : BitVec 12) : Row.Statement (.vccioChange b mv) :=
  ⟨.vccioChange 0 0, rfl, by decide⟩
theorem Row.bypass (len : Fin 4096) (tdi : Nat) : Row.Statement (.bypass len tdi) :=
  ⟨.bypass 0 0, rfl, by decide⟩
theorem Row.idcode (len : Fin 4096) (tdi : Nat) : Row.Statement (.idcode len tdi) :=
  ⟨.idcode 0 0, rfl, by decide⟩
theorem Row.samplePreload (len : Fin 4096) (tdi : Nat) : Row.Statement (.samplePreload len tdi) :=
  ⟨.samplePreload 0 0, rfl, by decide⟩
theorem Row.extest (len : Fin 4096) (tdi : Nat) : Row.Statement (.extest len tdi) :=
  ⟨.extest 0 0, rfl, by decide⟩
theorem Row.extestPulse (len : Fin 4096) (tdi : Nat) : Row.Statement (.extestPulse len tdi) :=
  ⟨.extestPulse 0 0, rfl, by decide⟩
theorem Row.extestTrain (len : Fin 4096) (tdi : Nat) (idle : BitVec 8) : Row.Statement (.extestTrain len tdi idle) :=
  ⟨.extestTrain 0 0 0, rfl, by decide⟩
theorem Row.smbSetAddress (adr : BitVec 7) (pec : Bool) (v : BitVec 32) : Row.Statement (.smbSetAddress adr pec v) :=
  ⟨.smbSetAddress 0 false 0, rfl, by decide⟩
theorem Row.smbReadRegister (adr : BitVec 7) (pec : Bool) : Row.Statement (.smbReadRegister adr pec) :=
  ⟨.smbReadRegister 0 false, rfl, by decide⟩
theorem Row.smbWriteRegister (adr : BitVec 7) (pec : Bool) (v : BitVec 32) : Row.Statement (.smbWriteRegister adr pec v) :=
  ⟨.smbWriteRegister 0 false 0, rfl, by decide⟩
theorem Row.smbReadStage (adr : BitVec 7) (pec : Bool) : Row.Statement (.smbReadStage adr pec) :=
  ⟨.smbReadStage 0 false, rfl, by decide⟩
theorem Row.resetRelease (clock : Bool) : Row.Statement (.resetRelease clock) :=
  ⟨.resetRelease false, rfl, by decide⟩
theorem Row.prbsCheckerLock (l : Fin 256) (bs : List Bool) : Row.Statement (.prbsCheckerLock l bs) :=
  ⟨.prbsCheckerLock 0 [], rfl, by decide⟩
theorem Row.ethPcsLinkChange (p : Fin 2) (up : Bool) : Row.Statement (.ethPcsLinkChange p up) :=
  ⟨.ethPcsLinkChange 0 false, rfl, by decide⟩
theorem Row.ptpMessageTransmit (p : Fin 2) (event : Option (Fin 4 × BitVec 8 × BitVec 16)) (sub : Fin 32) : Row.Statement (.ptpMessageTransmit p event sub) :=
  ⟨.ptpMessageTransmit 0 none 0, rfl, by decide⟩

end Sys2Proof.Laws
end

