-- ==== Sys2Proof/Laws/State.lean ====
section
/-! SUPPORT. What each update of the device leaves and what it changes, field by field. -/

namespace Sys2Proof.Machine.Dev

variable (d : Dev)

@[simp] theorem wr_latch (l : Loc) (v : Nat) : (d.wr l v).latch = d.latch := rfl
@[simp] theorem wr_staging (l : Loc) (v : Nat) : (d.wr l v).staging = d.staging := rfl
@[simp] theorem wr_rdata (l : Loc) (v : Nat) : (d.wr l v).rdata = d.rdata := rfl
@[simp] theorem wr_rstat (l : Loc) (v : Nat) : (d.wr l v).rstat = d.rstat := rfl
@[simp] theorem wr_free (l : Loc) (v : Nat) : (d.wr l v).free = d.free := rfl
@[simp] theorem wr_clk (l : Loc) (v : Nat) : (d.wr l v).clk = d.clk := rfl
@[simp] theorem wr_time (l : Loc) (v : Nat) : (d.wr l v).time = d.time := rfl
@[simp] theorem wr_secs (l : Loc) (v : Nat) : (d.wr l v).secs = d.secs := rfl
@[simp] theorem wr_host (l : Loc) (v : Nat) : (d.wr l v).host = d.host := rfl
@[simp] theorem wr_hostMem (l : Loc) (v : Nat) : (d.wr l v).hostMem = d.hostMem := rfl
@[simp] theorem wr_lanes (l : Loc) (v : Nat) : (d.wr l v).lanes = d.lanes := rfl
@[simp] theorem wr_bundles (l : Loc) (v : Nat) : (d.wr l v).bundles = d.bundles := rfl
@[simp] theorem wr_sys (l : Loc) (v : Nat) : (d.wr l v).sys = d.sys := rfl
@[simp] theorem wr_twin (l : Loc) (v : Nat) : (d.wr l v).twin = d.twin := rfl
@[simp] theorem wr_hdma (l : Loc) (v : Nat) : (d.wr l v).hdma = d.hdma := rfl
@[simp] theorem wr_htrc (l : Loc) (v : Nat) : (d.wr l v).htrc = d.htrc := rfl
@[simp] theorem wr_ctl (l : Loc) (v : Nat) : (d.wr l v).ctl = d.ctl := rfl
@[simp] theorem wr_pins (l : Loc) (v : Nat) : (d.wr l v).pins = d.pins := rfl
@[simp] theorem wr_tim (l : Loc) (v : Nat) : (d.wr l v).tim = d.tim := rfl
@[simp] theorem wr_boot (l : Loc) (v : Nat) : (d.wr l v).boot = d.boot := rfl
@[simp] theorem wr_pow (l : Loc) (v : Nat) : (d.wr l v).pow = d.pow := rfl
@[simp] theorem wr_loads (l : Loc) (v : Nat) : (d.wr l v).loads = d.loads := rfl
@[simp] theorem wr_images (l : Loc) (v : Nat) : (d.wr l v).images = d.images := rfl
@[simp] theorem wr_hostEp (l : Loc) (v : Nat) : (d.wr l v).hostEp = d.hostEp := rfl
@[simp] theorem wr_served (l : Loc) (v : Nat) : (d.wr l v).served = d.served := rfl

@[simp] theorem wf_latch (l : Loc) (hi lo v : Nat) : (d.wf l hi lo v).latch = d.latch := rfl
@[simp] theorem wf_staging (l : Loc) (hi lo v : Nat) : (d.wf l hi lo v).staging = d.staging := rfl
@[simp] theorem wf_rdata (l : Loc) (hi lo v : Nat) : (d.wf l hi lo v).rdata = d.rdata := rfl
@[simp] theorem wf_rstat (l : Loc) (hi lo v : Nat) : (d.wf l hi lo v).rstat = d.rstat := rfl
@[simp] theorem wf_free (l : Loc) (hi lo v : Nat) : (d.wf l hi lo v).free = d.free := rfl
@[simp] theorem wf_clk (l : Loc) (hi lo v : Nat) : (d.wf l hi lo v).clk = d.clk := rfl
@[simp] theorem wf_time (l : Loc) (hi lo v : Nat) : (d.wf l hi lo v).time = d.time := rfl
@[simp] theorem wf_secs (l : Loc) (hi lo v : Nat) : (d.wf l hi lo v).secs = d.secs := rfl
@[simp] theorem wf_host (l : Loc) (hi lo v : Nat) : (d.wf l hi lo v).host = d.host := rfl
@[simp] theorem wf_hostMem (l : Loc) (hi lo v : Nat) : (d.wf l hi lo v).hostMem = d.hostMem := rfl
@[simp] theorem wf_lanes (l : Loc) (hi lo v : Nat) : (d.wf l hi lo v).lanes = d.lanes := rfl
@[simp] theorem wf_bundles (l : Loc) (hi lo v : Nat) : (d.wf l hi lo v).bundles = d.bundles := rfl
@[simp] theorem wf_sys (l : Loc) (hi lo v : Nat) : (d.wf l hi lo v).sys = d.sys := rfl
@[simp] theorem wf_twin (l : Loc) (hi lo v : Nat) : (d.wf l hi lo v).twin = d.twin := rfl
@[simp] theorem wf_hdma (l : Loc) (hi lo v : Nat) : (d.wf l hi lo v).hdma = d.hdma := rfl
@[simp] theorem wf_htrc (l : Loc) (hi lo v : Nat) : (d.wf l hi lo v).htrc = d.htrc := rfl
@[simp] theorem wf_ctl (l : Loc) (hi lo v : Nat) : (d.wf l hi lo v).ctl = d.ctl := rfl
@[simp] theorem wf_pins (l : Loc) (hi lo v : Nat) : (d.wf l hi lo v).pins = d.pins := rfl
@[simp] theorem wf_tim (l : Loc) (hi lo v : Nat) : (d.wf l hi lo v).tim = d.tim := rfl
@[simp] theorem wf_boot (l : Loc) (hi lo v : Nat) : (d.wf l hi lo v).boot = d.boot := rfl
@[simp] theorem wf_pow (l : Loc) (hi lo v : Nat) : (d.wf l hi lo v).pow = d.pow := rfl
@[simp] theorem wf_loads (l : Loc) (hi lo v : Nat) : (d.wf l hi lo v).loads = d.loads := rfl
@[simp] theorem wf_images (l : Loc) (hi lo v : Nat) : (d.wf l hi lo v).images = d.images := rfl
@[simp] theorem wf_hostEp (l : Loc) (hi lo v : Nat) : (d.wf l hi lo v).hostEp = d.hostEp := rfl
@[simp] theorem wf_served (l : Loc) (hi lo v : Nat) : (d.wf l hi lo v).served = d.served := rfl

@[simp] theorem wb_latch (l : Loc) (n : Nat) (b : Bool) : (d.wb l n b).latch = d.latch := rfl
@[simp] theorem wb_staging (l : Loc) (n : Nat) (b : Bool) : (d.wb l n b).staging = d.staging := rfl
@[simp] theorem wb_rdata (l : Loc) (n : Nat) (b : Bool) : (d.wb l n b).rdata = d.rdata := rfl
@[simp] theorem wb_rstat (l : Loc) (n : Nat) (b : Bool) : (d.wb l n b).rstat = d.rstat := rfl
@[simp] theorem wb_free (l : Loc) (n : Nat) (b : Bool) : (d.wb l n b).free = d.free := rfl
@[simp] theorem wb_clk (l : Loc) (n : Nat) (b : Bool) : (d.wb l n b).clk = d.clk := rfl
@[simp] theorem wb_time (l : Loc) (n : Nat) (b : Bool) : (d.wb l n b).time = d.time := rfl
@[simp] theorem wb_secs (l : Loc) (n : Nat) (b : Bool) : (d.wb l n b).secs = d.secs := rfl
@[simp] theorem wb_host (l : Loc) (n : Nat) (b : Bool) : (d.wb l n b).host = d.host := rfl
@[simp] theorem wb_hostMem (l : Loc) (n : Nat) (b : Bool) : (d.wb l n b).hostMem = d.hostMem := rfl
@[simp] theorem wb_lanes (l : Loc) (n : Nat) (b : Bool) : (d.wb l n b).lanes = d.lanes := rfl
@[simp] theorem wb_bundles (l : Loc) (n : Nat) (b : Bool) : (d.wb l n b).bundles = d.bundles := rfl
@[simp] theorem wb_sys (l : Loc) (n : Nat) (b : Bool) : (d.wb l n b).sys = d.sys := rfl
@[simp] theorem wb_twin (l : Loc) (n : Nat) (b : Bool) : (d.wb l n b).twin = d.twin := rfl
@[simp] theorem wb_hdma (l : Loc) (n : Nat) (b : Bool) : (d.wb l n b).hdma = d.hdma := rfl
@[simp] theorem wb_htrc (l : Loc) (n : Nat) (b : Bool) : (d.wb l n b).htrc = d.htrc := rfl
@[simp] theorem wb_ctl (l : Loc) (n : Nat) (b : Bool) : (d.wb l n b).ctl = d.ctl := rfl
@[simp] theorem wb_pins (l : Loc) (n : Nat) (b : Bool) : (d.wb l n b).pins = d.pins := rfl
@[simp] theorem wb_tim (l : Loc) (n : Nat) (b : Bool) : (d.wb l n b).tim = d.tim := rfl
@[simp] theorem wb_boot (l : Loc) (n : Nat) (b : Bool) : (d.wb l n b).boot = d.boot := rfl
@[simp] theorem wb_pow (l : Loc) (n : Nat) (b : Bool) : (d.wb l n b).pow = d.pow := rfl
@[simp] theorem wb_loads (l : Loc) (n : Nat) (b : Bool) : (d.wb l n b).loads = d.loads := rfl
@[simp] theorem wb_images (l : Loc) (n : Nat) (b : Bool) : (d.wb l n b).images = d.images := rfl
@[simp] theorem wb_hostEp (l : Loc) (n : Nat) (b : Bool) : (d.wb l n b).hostEp = d.hostEp := rfl
@[simp] theorem wb_served (l : Loc) (n : Nat) (b : Bool) : (d.wb l n b).served = d.served := rfl

@[simp] theorem bump_latch (l : Loc) (k : Nat) : (d.bump l k).latch = d.latch := rfl
@[simp] theorem bump_staging (l : Loc) (k : Nat) : (d.bump l k).staging = d.staging := rfl
@[simp] theorem bump_rdata (l : Loc) (k : Nat) : (d.bump l k).rdata = d.rdata := rfl
@[simp] theorem bump_rstat (l : Loc) (k : Nat) : (d.bump l k).rstat = d.rstat := rfl
@[simp] theorem bump_free (l : Loc) (k : Nat) : (d.bump l k).free = d.free := rfl
@[simp] theorem bump_clk (l : Loc) (k : Nat) : (d.bump l k).clk = d.clk := rfl
@[simp] theorem bump_time (l : Loc) (k : Nat) : (d.bump l k).time = d.time := rfl
@[simp] theorem bump_secs (l : Loc) (k : Nat) : (d.bump l k).secs = d.secs := rfl
@[simp] theorem bump_host (l : Loc) (k : Nat) : (d.bump l k).host = d.host := rfl
@[simp] theorem bump_hostMem (l : Loc) (k : Nat) : (d.bump l k).hostMem = d.hostMem := rfl
@[simp] theorem bump_lanes (l : Loc) (k : Nat) : (d.bump l k).lanes = d.lanes := rfl
@[simp] theorem bump_bundles (l : Loc) (k : Nat) : (d.bump l k).bundles = d.bundles := rfl
@[simp] theorem bump_sys (l : Loc) (k : Nat) : (d.bump l k).sys = d.sys := rfl
@[simp] theorem bump_twin (l : Loc) (k : Nat) : (d.bump l k).twin = d.twin := rfl
@[simp] theorem bump_hdma (l : Loc) (k : Nat) : (d.bump l k).hdma = d.hdma := rfl
@[simp] theorem bump_htrc (l : Loc) (k : Nat) : (d.bump l k).htrc = d.htrc := rfl
@[simp] theorem bump_ctl (l : Loc) (k : Nat) : (d.bump l k).ctl = d.ctl := rfl
@[simp] theorem bump_pins (l : Loc) (k : Nat) : (d.bump l k).pins = d.pins := rfl
@[simp] theorem bump_tim (l : Loc) (k : Nat) : (d.bump l k).tim = d.tim := rfl
@[simp] theorem bump_boot (l : Loc) (k : Nat) : (d.bump l k).boot = d.boot := rfl
@[simp] theorem bump_pow (l : Loc) (k : Nat) : (d.bump l k).pow = d.pow := rfl
@[simp] theorem bump_loads (l : Loc) (k : Nat) : (d.bump l k).loads = d.loads := rfl
@[simp] theorem bump_images (l : Loc) (k : Nat) : (d.bump l k).images = d.images := rfl
@[simp] theorem bump_hostEp (l : Loc) (k : Nat) : (d.bump l k).hostEp = d.hostEp := rfl
@[simp] theorem bump_served (l : Loc) (k : Nat) : (d.bump l k).served = d.served := rfl

@[simp] theorem wr64_latch (r : Row) (n : Nat) (ix : List Nat) (v : Nat) : (d.wr64 r n ix v).latch = d.latch := rfl
@[simp] theorem wr64_staging (r : Row) (n : Nat) (ix : List Nat) (v : Nat) : (d.wr64 r n ix v).staging = d.staging := rfl
@[simp] theorem wr64_rdata (r : Row) (n : Nat) (ix : List Nat) (v : Nat) : (d.wr64 r n ix v).rdata = d.rdata := rfl
@[simp] theorem wr64_rstat (r : Row) (n : Nat) (ix : List Nat) (v : Nat) : (d.wr64 r n ix v).rstat = d.rstat := rfl
@[simp] theorem wr64_free (r : Row) (n : Nat) (ix : List Nat) (v : Nat) : (d.wr64 r n ix v).free = d.free := rfl
@[simp] theorem wr64_clk (r : Row) (n : Nat) (ix : List Nat) (v : Nat) : (d.wr64 r n ix v).clk = d.clk := rfl
@[simp] theorem wr64_time (r : Row) (n : Nat) (ix : List Nat) (v : Nat) : (d.wr64 r n ix v).time = d.time := rfl
@[simp] theorem wr64_secs (r : Row) (n : Nat) (ix : List Nat) (v : Nat) : (d.wr64 r n ix v).secs = d.secs := rfl
@[simp] theorem wr64_host (r : Row) (n : Nat) (ix : List Nat) (v : Nat) : (d.wr64 r n ix v).host = d.host := rfl
@[simp] theorem wr64_hostMem (r : Row) (n : Nat) (ix : List Nat) (v : Nat) : (d.wr64 r n ix v).hostMem = d.hostMem := rfl
@[simp] theorem wr64_lanes (r : Row) (n : Nat) (ix : List Nat) (v : Nat) : (d.wr64 r n ix v).lanes = d.lanes := rfl
@[simp] theorem wr64_bundles (r : Row) (n : Nat) (ix : List Nat) (v : Nat) : (d.wr64 r n ix v).bundles = d.bundles := rfl
@[simp] theorem wr64_sys (r : Row) (n : Nat) (ix : List Nat) (v : Nat) : (d.wr64 r n ix v).sys = d.sys := rfl
@[simp] theorem wr64_twin (r : Row) (n : Nat) (ix : List Nat) (v : Nat) : (d.wr64 r n ix v).twin = d.twin := rfl
@[simp] theorem wr64_hdma (r : Row) (n : Nat) (ix : List Nat) (v : Nat) : (d.wr64 r n ix v).hdma = d.hdma := rfl
@[simp] theorem wr64_htrc (r : Row) (n : Nat) (ix : List Nat) (v : Nat) : (d.wr64 r n ix v).htrc = d.htrc := rfl
@[simp] theorem wr64_ctl (r : Row) (n : Nat) (ix : List Nat) (v : Nat) : (d.wr64 r n ix v).ctl = d.ctl := rfl
@[simp] theorem wr64_pins (r : Row) (n : Nat) (ix : List Nat) (v : Nat) : (d.wr64 r n ix v).pins = d.pins := rfl
@[simp] theorem wr64_tim (r : Row) (n : Nat) (ix : List Nat) (v : Nat) : (d.wr64 r n ix v).tim = d.tim := rfl
@[simp] theorem wr64_boot (r : Row) (n : Nat) (ix : List Nat) (v : Nat) : (d.wr64 r n ix v).boot = d.boot := rfl
@[simp] theorem wr64_pow (r : Row) (n : Nat) (ix : List Nat) (v : Nat) : (d.wr64 r n ix v).pow = d.pow := rfl
@[simp] theorem wr64_loads (r : Row) (n : Nat) (ix : List Nat) (v : Nat) : (d.wr64 r n ix v).loads = d.loads := rfl
@[simp] theorem wr64_images (r : Row) (n : Nat) (ix : List Nat) (v : Nat) : (d.wr64 r n ix v).images = d.images := rfl
@[simp] theorem wr64_hostEp (r : Row) (n : Nat) (ix : List Nat) (v : Nat) : (d.wr64 r n ix v).hostEp = d.hostEp := rfl
@[simp] theorem wr64_served (r : Row) (n : Nat) (ix : List Nat) (v : Nat) : (d.wr64 r n ix v).served = d.served := rfl

@[simp] theorem bump64_latch (r : Row) (n : Nat) (ix : List Nat) (k : Nat) : (d.bump64 r n ix k).latch = d.latch := rfl
@[simp] theorem bump64_staging (r : Row) (n : Nat) (ix : List Nat) (k : Nat) : (d.bump64 r n ix k).staging = d.staging := rfl
@[simp] theorem bump64_rdata (r : Row) (n : Nat) (ix : List Nat) (k : Nat) : (d.bump64 r n ix k).rdata = d.rdata := rfl
@[simp] theorem bump64_rstat (r : Row) (n : Nat) (ix : List Nat) (k : Nat) : (d.bump64 r n ix k).rstat = d.rstat := rfl
@[simp] theorem bump64_free (r : Row) (n : Nat) (ix : List Nat) (k : Nat) : (d.bump64 r n ix k).free = d.free := rfl
@[simp] theorem bump64_clk (r : Row) (n : Nat) (ix : List Nat) (k : Nat) : (d.bump64 r n ix k).clk = d.clk := rfl
@[simp] theorem bump64_time (r : Row) (n : Nat) (ix : List Nat) (k : Nat) : (d.bump64 r n ix k).time = d.time := rfl
@[simp] theorem bump64_secs (r : Row) (n : Nat) (ix : List Nat) (k : Nat) : (d.bump64 r n ix k).secs = d.secs := rfl
@[simp] theorem bump64_host (r : Row) (n : Nat) (ix : List Nat) (k : Nat) : (d.bump64 r n ix k).host = d.host := rfl
@[simp] theorem bump64_hostMem (r : Row) (n : Nat) (ix : List Nat) (k : Nat) : (d.bump64 r n ix k).hostMem = d.hostMem := rfl
@[simp] theorem bump64_lanes (r : Row) (n : Nat) (ix : List Nat) (k : Nat) : (d.bump64 r n ix k).lanes = d.lanes := rfl
@[simp] theorem bump64_bundles (r : Row) (n : Nat) (ix : List Nat) (k : Nat) : (d.bump64 r n ix k).bundles = d.bundles := rfl
@[simp] theorem bump64_sys (r : Row) (n : Nat) (ix : List Nat) (k : Nat) : (d.bump64 r n ix k).sys = d.sys := rfl
@[simp] theorem bump64_twin (r : Row) (n : Nat) (ix : List Nat) (k : Nat) : (d.bump64 r n ix k).twin = d.twin := rfl
@[simp] theorem bump64_hdma (r : Row) (n : Nat) (ix : List Nat) (k : Nat) : (d.bump64 r n ix k).hdma = d.hdma := rfl
@[simp] theorem bump64_htrc (r : Row) (n : Nat) (ix : List Nat) (k : Nat) : (d.bump64 r n ix k).htrc = d.htrc := rfl
@[simp] theorem bump64_ctl (r : Row) (n : Nat) (ix : List Nat) (k : Nat) : (d.bump64 r n ix k).ctl = d.ctl := rfl
@[simp] theorem bump64_pins (r : Row) (n : Nat) (ix : List Nat) (k : Nat) : (d.bump64 r n ix k).pins = d.pins := rfl
@[simp] theorem bump64_tim (r : Row) (n : Nat) (ix : List Nat) (k : Nat) : (d.bump64 r n ix k).tim = d.tim := rfl
@[simp] theorem bump64_boot (r : Row) (n : Nat) (ix : List Nat) (k : Nat) : (d.bump64 r n ix k).boot = d.boot := rfl
@[simp] theorem bump64_pow (r : Row) (n : Nat) (ix : List Nat) (k : Nat) : (d.bump64 r n ix k).pow = d.pow := rfl
@[simp] theorem bump64_loads (r : Row) (n : Nat) (ix : List Nat) (k : Nat) : (d.bump64 r n ix k).loads = d.loads := rfl
@[simp] theorem bump64_images (r : Row) (n : Nat) (ix : List Nat) (k : Nat) : (d.bump64 r n ix k).images = d.images := rfl
@[simp] theorem bump64_hostEp (r : Row) (n : Nat) (ix : List Nat) (k : Nat) : (d.bump64 r n ix k).hostEp = d.hostEp := rfl
@[simp] theorem bump64_served (r : Row) (n : Nat) (ix : List Nat) (k : Nat) : (d.bump64 r n ix k).served = d.served := rfl

@[simp] theorem sec_regs (n : Nat) (f : Sec → Sec) : (d.sec n f).regs = d.regs := rfl
@[simp] theorem sec_latch (n : Nat) (f : Sec → Sec) : (d.sec n f).latch = d.latch := rfl
@[simp] theorem sec_staging (n : Nat) (f : Sec → Sec) : (d.sec n f).staging = d.staging := rfl
@[simp] theorem sec_rdata (n : Nat) (f : Sec → Sec) : (d.sec n f).rdata = d.rdata := rfl
@[simp] theorem sec_rstat (n : Nat) (f : Sec → Sec) : (d.sec n f).rstat = d.rstat := rfl
@[simp] theorem sec_free (n : Nat) (f : Sec → Sec) : (d.sec n f).free = d.free := rfl
@[simp] theorem sec_clk (n : Nat) (f : Sec → Sec) : (d.sec n f).clk = d.clk := rfl
@[simp] theorem sec_time (n : Nat) (f : Sec → Sec) : (d.sec n f).time = d.time := rfl
@[simp] theorem sec_secs (n : Nat) (f : Sec → Sec) : (d.sec n f).secs = vmod d.secs n f := rfl
@[simp] theorem sec_host (n : Nat) (f : Sec → Sec) : (d.sec n f).host = d.host := rfl
@[simp] theorem sec_hostMem (n : Nat) (f : Sec → Sec) : (d.sec n f).hostMem = d.hostMem := rfl
@[simp] theorem sec_lanes (n : Nat) (f : Sec → Sec) : (d.sec n f).lanes = d.lanes := rfl
@[simp] theorem sec_bundles (n : Nat) (f : Sec → Sec) : (d.sec n f).bundles = d.bundles := rfl
@[simp] theorem sec_sys (n : Nat) (f : Sec → Sec) : (d.sec n f).sys = d.sys := rfl
@[simp] theorem sec_twin (n : Nat) (f : Sec → Sec) : (d.sec n f).twin = d.twin := rfl
@[simp] theorem sec_hdma (n : Nat) (f : Sec → Sec) : (d.sec n f).hdma = d.hdma := rfl
@[simp] theorem sec_htrc (n : Nat) (f : Sec → Sec) : (d.sec n f).htrc = d.htrc := rfl
@[simp] theorem sec_ctl (n : Nat) (f : Sec → Sec) : (d.sec n f).ctl = d.ctl := rfl
@[simp] theorem sec_pins (n : Nat) (f : Sec → Sec) : (d.sec n f).pins = d.pins := rfl
@[simp] theorem sec_tim (n : Nat) (f : Sec → Sec) : (d.sec n f).tim = d.tim := rfl
@[simp] theorem sec_boot (n : Nat) (f : Sec → Sec) : (d.sec n f).boot = d.boot := rfl
@[simp] theorem sec_pow (n : Nat) (f : Sec → Sec) : (d.sec n f).pow = d.pow := rfl
@[simp] theorem sec_loads (n : Nat) (f : Sec → Sec) : (d.sec n f).loads = d.loads := rfl
@[simp] theorem sec_images (n : Nat) (f : Sec → Sec) : (d.sec n f).images = d.images := rfl
@[simp] theorem sec_hostEp (n : Nat) (f : Sec → Sec) : (d.sec n f).hostEp = d.hostEp := rfl
@[simp] theorem sec_served (n : Nat) (f : Sec → Sec) : (d.sec n f).served = d.served := rfl

@[simp] theorem fab_regs (n : Nat) (f : Fabric → Fabric) : (d.fab n f).regs = d.regs := rfl
@[simp] theorem fab_latch (n : Nat) (f : Fabric → Fabric) : (d.fab n f).latch = d.latch := rfl
@[simp] theorem fab_staging (n : Nat) (f : Fabric → Fabric) : (d.fab n f).staging = d.staging := rfl
@[simp] theorem fab_rdata (n : Nat) (f : Fabric → Fabric) : (d.fab n f).rdata = d.rdata := rfl
@[simp] theorem fab_rstat (n : Nat) (f : Fabric → Fabric) : (d.fab n f).rstat = d.rstat := rfl
@[simp] theorem fab_free (n : Nat) (f : Fabric → Fabric) : (d.fab n f).free = d.free := rfl
@[simp] theorem fab_clk (n : Nat) (f : Fabric → Fabric) : (d.fab n f).clk = d.clk := rfl
@[simp] theorem fab_time (n : Nat) (f : Fabric → Fabric) : (d.fab n f).time = d.time := rfl
@[simp] theorem fab_secs (n : Nat) (f : Fabric → Fabric) : (d.fab n f).secs = vmod d.secs n (fun s => { s with fab := f s.fab }) := rfl
@[simp] theorem fab_host (n : Nat) (f : Fabric → Fabric) : (d.fab n f).host = d.host := rfl
@[simp] theorem fab_hostMem (n : Nat) (f : Fabric → Fabric) : (d.fab n f).hostMem = d.hostMem := rfl
@[simp] theorem fab_lanes (n : Nat) (f : Fabric → Fabric) : (d.fab n f).lanes = d.lanes := rfl
@[simp] theorem fab_bundles (n : Nat) (f : Fabric → Fabric) : (d.fab n f).bundles = d.bundles := rfl
@[simp] theorem fab_sys (n : Nat) (f : Fabric → Fabric) : (d.fab n f).sys = d.sys := rfl
@[simp] theorem fab_twin (n : Nat) (f : Fabric → Fabric) : (d.fab n f).twin = d.twin := rfl
@[simp] theorem fab_hdma (n : Nat) (f : Fabric → Fabric) : (d.fab n f).hdma = d.hdma := rfl
@[simp] theorem fab_htrc (n : Nat) (f : Fabric → Fabric) : (d.fab n f).htrc = d.htrc := rfl
@[simp] theorem fab_ctl (n : Nat) (f : Fabric → Fabric) : (d.fab n f).ctl = d.ctl := rfl
@[simp] theorem fab_pins (n : Nat) (f : Fabric → Fabric) : (d.fab n f).pins = d.pins := rfl
@[simp] theorem fab_tim (n : Nat) (f : Fabric → Fabric) : (d.fab n f).tim = d.tim := rfl
@[simp] theorem fab_boot (n : Nat) (f : Fabric → Fabric) : (d.fab n f).boot = d.boot := rfl
@[simp] theorem fab_pow (n : Nat) (f : Fabric → Fabric) : (d.fab n f).pow = d.pow := rfl
@[simp] theorem fab_loads (n : Nat) (f : Fabric → Fabric) : (d.fab n f).loads = d.loads := rfl
@[simp] theorem fab_images (n : Nat) (f : Fabric → Fabric) : (d.fab n f).images = d.images := rfl
@[simp] theorem fab_hostEp (n : Nat) (f : Fabric → Fabric) : (d.fab n f).hostEp = d.hostEp := rfl
@[simp] theorem fab_served (n : Nat) (f : Fabric → Fabric) : (d.fab n f).served = d.served := rfl

@[simp] theorem run_regs (n : Nat) (f : RunSt → RunSt) : (d.run n f).regs = d.regs := rfl
@[simp] theorem run_latch (n : Nat) (f : RunSt → RunSt) : (d.run n f).latch = d.latch := rfl
@[simp] theorem run_staging (n : Nat) (f : RunSt → RunSt) : (d.run n f).staging = d.staging := rfl
@[simp] theorem run_rdata (n : Nat) (f : RunSt → RunSt) : (d.run n f).rdata = d.rdata := rfl
@[simp] theorem run_rstat (n : Nat) (f : RunSt → RunSt) : (d.run n f).rstat = d.rstat := rfl
@[simp] theorem run_free (n : Nat) (f : RunSt → RunSt) : (d.run n f).free = d.free := rfl
@[simp] theorem run_clk (n : Nat) (f : RunSt → RunSt) : (d.run n f).clk = d.clk := rfl
@[simp] theorem run_time (n : Nat) (f : RunSt → RunSt) : (d.run n f).time = d.time := rfl
@[simp] theorem run_secs (n : Nat) (f : RunSt → RunSt) : (d.run n f).secs = vmod d.secs n (fun s => { s with run := f s.run }) := rfl
@[simp] theorem run_host (n : Nat) (f : RunSt → RunSt) : (d.run n f).host = d.host := rfl
@[simp] theorem run_hostMem (n : Nat) (f : RunSt → RunSt) : (d.run n f).hostMem = d.hostMem := rfl
@[simp] theorem run_lanes (n : Nat) (f : RunSt → RunSt) : (d.run n f).lanes = d.lanes := rfl
@[simp] theorem run_bundles (n : Nat) (f : RunSt → RunSt) : (d.run n f).bundles = d.bundles := rfl
@[simp] theorem run_sys (n : Nat) (f : RunSt → RunSt) : (d.run n f).sys = d.sys := rfl
@[simp] theorem run_twin (n : Nat) (f : RunSt → RunSt) : (d.run n f).twin = d.twin := rfl
@[simp] theorem run_hdma (n : Nat) (f : RunSt → RunSt) : (d.run n f).hdma = d.hdma := rfl
@[simp] theorem run_htrc (n : Nat) (f : RunSt → RunSt) : (d.run n f).htrc = d.htrc := rfl
@[simp] theorem run_ctl (n : Nat) (f : RunSt → RunSt) : (d.run n f).ctl = d.ctl := rfl
@[simp] theorem run_pins (n : Nat) (f : RunSt → RunSt) : (d.run n f).pins = d.pins := rfl
@[simp] theorem run_tim (n : Nat) (f : RunSt → RunSt) : (d.run n f).tim = d.tim := rfl
@[simp] theorem run_boot (n : Nat) (f : RunSt → RunSt) : (d.run n f).boot = d.boot := rfl
@[simp] theorem run_pow (n : Nat) (f : RunSt → RunSt) : (d.run n f).pow = d.pow := rfl
@[simp] theorem run_loads (n : Nat) (f : RunSt → RunSt) : (d.run n f).loads = d.loads := rfl
@[simp] theorem run_images (n : Nat) (f : RunSt → RunSt) : (d.run n f).images = d.images := rfl
@[simp] theorem run_hostEp (n : Nat) (f : RunSt → RunSt) : (d.run n f).hostEp = d.hostEp := rfl
@[simp] theorem run_served (n : Nat) (f : RunSt → RunSt) : (d.run n f).served = d.served := rfl

@[simp] theorem mem_regs (n : Nat) (f : SecMem → SecMem) : (d.mem n f).regs = d.regs := rfl
@[simp] theorem mem_latch (n : Nat) (f : SecMem → SecMem) : (d.mem n f).latch = d.latch := rfl
@[simp] theorem mem_staging (n : Nat) (f : SecMem → SecMem) : (d.mem n f).staging = d.staging := rfl
@[simp] theorem mem_rdata (n : Nat) (f : SecMem → SecMem) : (d.mem n f).rdata = d.rdata := rfl
@[simp] theorem mem_rstat (n : Nat) (f : SecMem → SecMem) : (d.mem n f).rstat = d.rstat := rfl
@[simp] theorem mem_free (n : Nat) (f : SecMem → SecMem) : (d.mem n f).free = d.free := rfl
@[simp] theorem mem_clk (n : Nat) (f : SecMem → SecMem) : (d.mem n f).clk = d.clk := rfl
@[simp] theorem mem_time (n : Nat) (f : SecMem → SecMem) : (d.mem n f).time = d.time := rfl
@[simp] theorem mem_secs (n : Nat) (f : SecMem → SecMem) : (d.mem n f).secs = vmod d.secs n (fun s => { s with mem := f s.mem }) := rfl
@[simp] theorem mem_host (n : Nat) (f : SecMem → SecMem) : (d.mem n f).host = d.host := rfl
@[simp] theorem mem_hostMem (n : Nat) (f : SecMem → SecMem) : (d.mem n f).hostMem = d.hostMem := rfl
@[simp] theorem mem_lanes (n : Nat) (f : SecMem → SecMem) : (d.mem n f).lanes = d.lanes := rfl
@[simp] theorem mem_bundles (n : Nat) (f : SecMem → SecMem) : (d.mem n f).bundles = d.bundles := rfl
@[simp] theorem mem_sys (n : Nat) (f : SecMem → SecMem) : (d.mem n f).sys = d.sys := rfl
@[simp] theorem mem_twin (n : Nat) (f : SecMem → SecMem) : (d.mem n f).twin = d.twin := rfl
@[simp] theorem mem_hdma (n : Nat) (f : SecMem → SecMem) : (d.mem n f).hdma = d.hdma := rfl
@[simp] theorem mem_htrc (n : Nat) (f : SecMem → SecMem) : (d.mem n f).htrc = d.htrc := rfl
@[simp] theorem mem_ctl (n : Nat) (f : SecMem → SecMem) : (d.mem n f).ctl = d.ctl := rfl
@[simp] theorem mem_pins (n : Nat) (f : SecMem → SecMem) : (d.mem n f).pins = d.pins := rfl
@[simp] theorem mem_tim (n : Nat) (f : SecMem → SecMem) : (d.mem n f).tim = d.tim := rfl
@[simp] theorem mem_boot (n : Nat) (f : SecMem → SecMem) : (d.mem n f).boot = d.boot := rfl
@[simp] theorem mem_pow (n : Nat) (f : SecMem → SecMem) : (d.mem n f).pow = d.pow := rfl
@[simp] theorem mem_loads (n : Nat) (f : SecMem → SecMem) : (d.mem n f).loads = d.loads := rfl
@[simp] theorem mem_images (n : Nat) (f : SecMem → SecMem) : (d.mem n f).images = d.images := rfl
@[simp] theorem mem_hostEp (n : Nat) (f : SecMem → SecMem) : (d.mem n f).hostEp = d.hostEp := rfl
@[simp] theorem mem_served (n : Nat) (f : SecMem → SecMem) : (d.mem n f).served = d.served := rfl

@[simp] theorem calls_regs (n : Nat) (f : CallUnit → CallUnit) : (d.calls n f).regs = d.regs := rfl
@[simp] theorem calls_latch (n : Nat) (f : CallUnit → CallUnit) : (d.calls n f).latch = d.latch := rfl
@[simp] theorem calls_staging (n : Nat) (f : CallUnit → CallUnit) : (d.calls n f).staging = d.staging := rfl
@[simp] theorem calls_rdata (n : Nat) (f : CallUnit → CallUnit) : (d.calls n f).rdata = d.rdata := rfl
@[simp] theorem calls_rstat (n : Nat) (f : CallUnit → CallUnit) : (d.calls n f).rstat = d.rstat := rfl
@[simp] theorem calls_free (n : Nat) (f : CallUnit → CallUnit) : (d.calls n f).free = d.free := rfl
@[simp] theorem calls_clk (n : Nat) (f : CallUnit → CallUnit) : (d.calls n f).clk = d.clk := rfl
@[simp] theorem calls_time (n : Nat) (f : CallUnit → CallUnit) : (d.calls n f).time = d.time := rfl
@[simp] theorem calls_secs (n : Nat) (f : CallUnit → CallUnit) : (d.calls n f).secs = vmod d.secs n (fun s => { s with calls := f s.calls }) := rfl
@[simp] theorem calls_host (n : Nat) (f : CallUnit → CallUnit) : (d.calls n f).host = d.host := rfl
@[simp] theorem calls_hostMem (n : Nat) (f : CallUnit → CallUnit) : (d.calls n f).hostMem = d.hostMem := rfl
@[simp] theorem calls_lanes (n : Nat) (f : CallUnit → CallUnit) : (d.calls n f).lanes = d.lanes := rfl
@[simp] theorem calls_bundles (n : Nat) (f : CallUnit → CallUnit) : (d.calls n f).bundles = d.bundles := rfl
@[simp] theorem calls_sys (n : Nat) (f : CallUnit → CallUnit) : (d.calls n f).sys = d.sys := rfl
@[simp] theorem calls_twin (n : Nat) (f : CallUnit → CallUnit) : (d.calls n f).twin = d.twin := rfl
@[simp] theorem calls_hdma (n : Nat) (f : CallUnit → CallUnit) : (d.calls n f).hdma = d.hdma := rfl
@[simp] theorem calls_htrc (n : Nat) (f : CallUnit → CallUnit) : (d.calls n f).htrc = d.htrc := rfl
@[simp] theorem calls_ctl (n : Nat) (f : CallUnit → CallUnit) : (d.calls n f).ctl = d.ctl := rfl
@[simp] theorem calls_pins (n : Nat) (f : CallUnit → CallUnit) : (d.calls n f).pins = d.pins := rfl
@[simp] theorem calls_tim (n : Nat) (f : CallUnit → CallUnit) : (d.calls n f).tim = d.tim := rfl
@[simp] theorem calls_boot (n : Nat) (f : CallUnit → CallUnit) : (d.calls n f).boot = d.boot := rfl
@[simp] theorem calls_pow (n : Nat) (f : CallUnit → CallUnit) : (d.calls n f).pow = d.pow := rfl
@[simp] theorem calls_loads (n : Nat) (f : CallUnit → CallUnit) : (d.calls n f).loads = d.loads := rfl
@[simp] theorem calls_images (n : Nat) (f : CallUnit → CallUnit) : (d.calls n f).images = d.images := rfl
@[simp] theorem calls_hostEp (n : Nat) (f : CallUnit → CallUnit) : (d.calls n f).hostEp = d.hostEp := rfl
@[simp] theorem calls_served (n : Nat) (f : CallUnit → CallUnit) : (d.calls n f).served = d.served := rfl

@[simp] theorem noc_regs (n : Nat) (f : Noc → Noc) : (d.noc n f).regs = d.regs := rfl
@[simp] theorem noc_latch (n : Nat) (f : Noc → Noc) : (d.noc n f).latch = d.latch := rfl
@[simp] theorem noc_staging (n : Nat) (f : Noc → Noc) : (d.noc n f).staging = d.staging := rfl
@[simp] theorem noc_rdata (n : Nat) (f : Noc → Noc) : (d.noc n f).rdata = d.rdata := rfl
@[simp] theorem noc_rstat (n : Nat) (f : Noc → Noc) : (d.noc n f).rstat = d.rstat := rfl
@[simp] theorem noc_free (n : Nat) (f : Noc → Noc) : (d.noc n f).free = d.free := rfl
@[simp] theorem noc_clk (n : Nat) (f : Noc → Noc) : (d.noc n f).clk = d.clk := rfl
@[simp] theorem noc_time (n : Nat) (f : Noc → Noc) : (d.noc n f).time = d.time := rfl
@[simp] theorem noc_secs (n : Nat) (f : Noc → Noc) : (d.noc n f).secs = vmod d.secs n (fun s => { s with noc := f s.noc }) := rfl
@[simp] theorem noc_host (n : Nat) (f : Noc → Noc) : (d.noc n f).host = d.host := rfl
@[simp] theorem noc_hostMem (n : Nat) (f : Noc → Noc) : (d.noc n f).hostMem = d.hostMem := rfl
@[simp] theorem noc_lanes (n : Nat) (f : Noc → Noc) : (d.noc n f).lanes = d.lanes := rfl
@[simp] theorem noc_bundles (n : Nat) (f : Noc → Noc) : (d.noc n f).bundles = d.bundles := rfl
@[simp] theorem noc_sys (n : Nat) (f : Noc → Noc) : (d.noc n f).sys = d.sys := rfl
@[simp] theorem noc_twin (n : Nat) (f : Noc → Noc) : (d.noc n f).twin = d.twin := rfl
@[simp] theorem noc_hdma (n : Nat) (f : Noc → Noc) : (d.noc n f).hdma = d.hdma := rfl
@[simp] theorem noc_htrc (n : Nat) (f : Noc → Noc) : (d.noc n f).htrc = d.htrc := rfl
@[simp] theorem noc_ctl (n : Nat) (f : Noc → Noc) : (d.noc n f).ctl = d.ctl := rfl
@[simp] theorem noc_pins (n : Nat) (f : Noc → Noc) : (d.noc n f).pins = d.pins := rfl
@[simp] theorem noc_tim (n : Nat) (f : Noc → Noc) : (d.noc n f).tim = d.tim := rfl
@[simp] theorem noc_boot (n : Nat) (f : Noc → Noc) : (d.noc n f).boot = d.boot := rfl
@[simp] theorem noc_pow (n : Nat) (f : Noc → Noc) : (d.noc n f).pow = d.pow := rfl
@[simp] theorem noc_loads (n : Nat) (f : Noc → Noc) : (d.noc n f).loads = d.loads := rfl
@[simp] theorem noc_images (n : Nat) (f : Noc → Noc) : (d.noc n f).images = d.images := rfl
@[simp] theorem noc_hostEp (n : Nat) (f : Noc → Noc) : (d.noc n f).hostEp = d.hostEp := rfl
@[simp] theorem noc_served (n : Nat) (f : Noc → Noc) : (d.noc n f).served = d.served := rfl

@[simp] theorem queue_regs (n q : Nat) (f : Queue → Queue) : (d.queue n q f).regs = d.regs := rfl
@[simp] theorem queue_latch (n q : Nat) (f : Queue → Queue) : (d.queue n q f).latch = d.latch := rfl
@[simp] theorem queue_staging (n q : Nat) (f : Queue → Queue) : (d.queue n q f).staging = d.staging := rfl
@[simp] theorem queue_rdata (n q : Nat) (f : Queue → Queue) : (d.queue n q f).rdata = d.rdata := rfl
@[simp] theorem queue_rstat (n q : Nat) (f : Queue → Queue) : (d.queue n q f).rstat = d.rstat := rfl
@[simp] theorem queue_free (n q : Nat) (f : Queue → Queue) : (d.queue n q f).free = d.free := rfl
@[simp] theorem queue_clk (n q : Nat) (f : Queue → Queue) : (d.queue n q f).clk = d.clk := rfl
@[simp] theorem queue_time (n q : Nat) (f : Queue → Queue) : (d.queue n q f).time = d.time := rfl
@[simp] theorem queue_secs (n q : Nat) (f : Queue → Queue) : (d.queue n q f).secs = vmod d.secs n (fun s => { s with queues := vmod s.queues q f }) := rfl
@[simp] theorem queue_host (n q : Nat) (f : Queue → Queue) : (d.queue n q f).host = d.host := rfl
@[simp] theorem queue_hostMem (n q : Nat) (f : Queue → Queue) : (d.queue n q f).hostMem = d.hostMem := rfl
@[simp] theorem queue_lanes (n q : Nat) (f : Queue → Queue) : (d.queue n q f).lanes = d.lanes := rfl
@[simp] theorem queue_bundles (n q : Nat) (f : Queue → Queue) : (d.queue n q f).bundles = d.bundles := rfl
@[simp] theorem queue_sys (n q : Nat) (f : Queue → Queue) : (d.queue n q f).sys = d.sys := rfl
@[simp] theorem queue_twin (n q : Nat) (f : Queue → Queue) : (d.queue n q f).twin = d.twin := rfl
@[simp] theorem queue_hdma (n q : Nat) (f : Queue → Queue) : (d.queue n q f).hdma = d.hdma := rfl
@[simp] theorem queue_htrc (n q : Nat) (f : Queue → Queue) : (d.queue n q f).htrc = d.htrc := rfl
@[simp] theorem queue_ctl (n q : Nat) (f : Queue → Queue) : (d.queue n q f).ctl = d.ctl := rfl
@[simp] theorem queue_pins (n q : Nat) (f : Queue → Queue) : (d.queue n q f).pins = d.pins := rfl
@[simp] theorem queue_tim (n q : Nat) (f : Queue → Queue) : (d.queue n q f).tim = d.tim := rfl
@[simp] theorem queue_boot (n q : Nat) (f : Queue → Queue) : (d.queue n q f).boot = d.boot := rfl
@[simp] theorem queue_pow (n q : Nat) (f : Queue → Queue) : (d.queue n q f).pow = d.pow := rfl
@[simp] theorem queue_loads (n q : Nat) (f : Queue → Queue) : (d.queue n q f).loads = d.loads := rfl
@[simp] theorem queue_images (n q : Nat) (f : Queue → Queue) : (d.queue n q f).images = d.images := rfl
@[simp] theorem queue_hostEp (n q : Nat) (f : Queue → Queue) : (d.queue n q f).hostEp = d.hostEp := rfl
@[simp] theorem queue_served (n q : Nat) (f : Queue → Queue) : (d.queue n q f).served = d.served := rfl

@[simp] theorem cap_regs (n : Nat) (f : CapSt → CapSt) : (d.cap n f).regs = d.regs := rfl
@[simp] theorem cap_latch (n : Nat) (f : CapSt → CapSt) : (d.cap n f).latch = d.latch := rfl
@[simp] theorem cap_staging (n : Nat) (f : CapSt → CapSt) : (d.cap n f).staging = d.staging := rfl
@[simp] theorem cap_rdata (n : Nat) (f : CapSt → CapSt) : (d.cap n f).rdata = d.rdata := rfl
@[simp] theorem cap_rstat (n : Nat) (f : CapSt → CapSt) : (d.cap n f).rstat = d.rstat := rfl
@[simp] theorem cap_free (n : Nat) (f : CapSt → CapSt) : (d.cap n f).free = d.free := rfl
@[simp] theorem cap_clk (n : Nat) (f : CapSt → CapSt) : (d.cap n f).clk = d.clk := rfl
@[simp] theorem cap_time (n : Nat) (f : CapSt → CapSt) : (d.cap n f).time = d.time := rfl
@[simp] theorem cap_secs (n : Nat) (f : CapSt → CapSt) : (d.cap n f).secs = vmod d.secs n (fun s => { s with cap := f s.cap }) := rfl
@[simp] theorem cap_host (n : Nat) (f : CapSt → CapSt) : (d.cap n f).host = d.host := rfl
@[simp] theorem cap_hostMem (n : Nat) (f : CapSt → CapSt) : (d.cap n f).hostMem = d.hostMem := rfl
@[simp] theorem cap_lanes (n : Nat) (f : CapSt → CapSt) : (d.cap n f).lanes = d.lanes := rfl
@[simp] theorem cap_bundles (n : Nat) (f : CapSt → CapSt) : (d.cap n f).bundles = d.bundles := rfl
@[simp] theorem cap_sys (n : Nat) (f : CapSt → CapSt) : (d.cap n f).sys = d.sys := rfl
@[simp] theorem cap_twin (n : Nat) (f : CapSt → CapSt) : (d.cap n f).twin = d.twin := rfl
@[simp] theorem cap_hdma (n : Nat) (f : CapSt → CapSt) : (d.cap n f).hdma = d.hdma := rfl
@[simp] theorem cap_htrc (n : Nat) (f : CapSt → CapSt) : (d.cap n f).htrc = d.htrc := rfl
@[simp] theorem cap_ctl (n : Nat) (f : CapSt → CapSt) : (d.cap n f).ctl = d.ctl := rfl
@[simp] theorem cap_pins (n : Nat) (f : CapSt → CapSt) : (d.cap n f).pins = d.pins := rfl
@[simp] theorem cap_tim (n : Nat) (f : CapSt → CapSt) : (d.cap n f).tim = d.tim := rfl
@[simp] theorem cap_boot (n : Nat) (f : CapSt → CapSt) : (d.cap n f).boot = d.boot := rfl
@[simp] theorem cap_pow (n : Nat) (f : CapSt → CapSt) : (d.cap n f).pow = d.pow := rfl
@[simp] theorem cap_loads (n : Nat) (f : CapSt → CapSt) : (d.cap n f).loads = d.loads := rfl
@[simp] theorem cap_images (n : Nat) (f : CapSt → CapSt) : (d.cap n f).images = d.images := rfl
@[simp] theorem cap_hostEp (n : Nat) (f : CapSt → CapSt) : (d.cap n f).hostEp = d.hostEp := rfl
@[simp] theorem cap_served (n : Nat) (f : CapSt → CapSt) : (d.cap n f).served = d.served := rfl

@[simp] theorem fn_regs (f : Nat) (g : HostFn → HostFn) : (d.fn f g).regs = d.regs := rfl
@[simp] theorem fn_latch (f : Nat) (g : HostFn → HostFn) : (d.fn f g).latch = d.latch := rfl
@[simp] theorem fn_staging (f : Nat) (g : HostFn → HostFn) : (d.fn f g).staging = d.staging := rfl
@[simp] theorem fn_rdata (f : Nat) (g : HostFn → HostFn) : (d.fn f g).rdata = d.rdata := rfl
@[simp] theorem fn_rstat (f : Nat) (g : HostFn → HostFn) : (d.fn f g).rstat = d.rstat := rfl
@[simp] theorem fn_free (f : Nat) (g : HostFn → HostFn) : (d.fn f g).free = d.free := rfl
@[simp] theorem fn_clk (f : Nat) (g : HostFn → HostFn) : (d.fn f g).clk = d.clk := rfl
@[simp] theorem fn_time (f : Nat) (g : HostFn → HostFn) : (d.fn f g).time = d.time := rfl
@[simp] theorem fn_secs (f : Nat) (g : HostFn → HostFn) : (d.fn f g).secs = d.secs := rfl
@[simp] theorem fn_host (f : Nat) (g : HostFn → HostFn) : (d.fn f g).host = vmod d.host f g := rfl
@[simp] theorem fn_hostMem (f : Nat) (g : HostFn → HostFn) : (d.fn f g).hostMem = d.hostMem := rfl
@[simp] theorem fn_lanes (f : Nat) (g : HostFn → HostFn) : (d.fn f g).lanes = d.lanes := rfl
@[simp] theorem fn_bundles (f : Nat) (g : HostFn → HostFn) : (d.fn f g).bundles = d.bundles := rfl
@[simp] theorem fn_sys (f : Nat) (g : HostFn → HostFn) : (d.fn f g).sys = d.sys := rfl
@[simp] theorem fn_twin (f : Nat) (g : HostFn → HostFn) : (d.fn f g).twin = d.twin := rfl
@[simp] theorem fn_hdma (f : Nat) (g : HostFn → HostFn) : (d.fn f g).hdma = d.hdma := rfl
@[simp] theorem fn_htrc (f : Nat) (g : HostFn → HostFn) : (d.fn f g).htrc = d.htrc := rfl
@[simp] theorem fn_ctl (f : Nat) (g : HostFn → HostFn) : (d.fn f g).ctl = d.ctl := rfl
@[simp] theorem fn_pins (f : Nat) (g : HostFn → HostFn) : (d.fn f g).pins = d.pins := rfl
@[simp] theorem fn_tim (f : Nat) (g : HostFn → HostFn) : (d.fn f g).tim = d.tim := rfl
@[simp] theorem fn_boot (f : Nat) (g : HostFn → HostFn) : (d.fn f g).boot = d.boot := rfl
@[simp] theorem fn_pow (f : Nat) (g : HostFn → HostFn) : (d.fn f g).pow = d.pow := rfl
@[simp] theorem fn_loads (f : Nat) (g : HostFn → HostFn) : (d.fn f g).loads = d.loads := rfl
@[simp] theorem fn_images (f : Nat) (g : HostFn → HostFn) : (d.fn f g).images = d.images := rfl
@[simp] theorem fn_hostEp (f : Nat) (g : HostFn → HostFn) : (d.fn f g).hostEp = d.hostEp := rfl
@[simp] theorem fn_served (f : Nat) (g : HostFn → HostFn) : (d.fn f g).served = d.served := rfl

@[simp] theorem lane_regs (l : Nat) (f : Lane → Lane) : (d.lane l f).regs = d.regs := rfl
@[simp] theorem lane_latch (l : Nat) (f : Lane → Lane) : (d.lane l f).latch = d.latch := rfl
@[simp] theorem lane_staging (l : Nat) (f : Lane → Lane) : (d.lane l f).staging = d.staging := rfl
@[simp] theorem lane_rdata (l : Nat) (f : Lane → Lane) : (d.lane l f).rdata = d.rdata := rfl
@[simp] theorem lane_rstat (l : Nat) (f : Lane → Lane) : (d.lane l f).rstat = d.rstat := rfl
@[simp] theorem lane_free (l : Nat) (f : Lane → Lane) : (d.lane l f).free = d.free := rfl
@[simp] theorem lane_clk (l : Nat) (f : Lane → Lane) : (d.lane l f).clk = d.clk := rfl
@[simp] theorem lane_time (l : Nat) (f : Lane → Lane) : (d.lane l f).time = d.time := rfl
@[simp] theorem lane_secs (l : Nat) (f : Lane → Lane) : (d.lane l f).secs = d.secs := rfl
@[simp] theorem lane_host (l : Nat) (f : Lane → Lane) : (d.lane l f).host = d.host := rfl
@[simp] theorem lane_hostMem (l : Nat) (f : Lane → Lane) : (d.lane l f).hostMem = d.hostMem := rfl
@[simp] theorem lane_bundles (l : Nat) (f : Lane → Lane) : (d.lane l f).bundles = d.bundles := rfl
@[simp] theorem lane_sys (l : Nat) (f : Lane → Lane) : (d.lane l f).sys = d.sys := rfl
@[simp] theorem lane_twin (l : Nat) (f : Lane → Lane) : (d.lane l f).twin = d.twin := rfl
@[simp] theorem lane_hdma (l : Nat) (f : Lane → Lane) : (d.lane l f).hdma = d.hdma := rfl
@[simp] theorem lane_htrc (l : Nat) (f : Lane → Lane) : (d.lane l f).htrc = d.htrc := rfl
@[simp] theorem lane_ctl (l : Nat) (f : Lane → Lane) : (d.lane l f).ctl = d.ctl := rfl
@[simp] theorem lane_pins (l : Nat) (f : Lane → Lane) : (d.lane l f).pins = d.pins := rfl
@[simp] theorem lane_tim (l : Nat) (f : Lane → Lane) : (d.lane l f).tim = d.tim := rfl
@[simp] theorem lane_boot (l : Nat) (f : Lane → Lane) : (d.lane l f).boot = d.boot := rfl
@[simp] theorem lane_pow (l : Nat) (f : Lane → Lane) : (d.lane l f).pow = d.pow := rfl
@[simp] theorem lane_loads (l : Nat) (f : Lane → Lane) : (d.lane l f).loads = d.loads := rfl
@[simp] theorem lane_images (l : Nat) (f : Lane → Lane) : (d.lane l f).images = d.images := rfl
@[simp] theorem lane_hostEp (l : Nat) (f : Lane → Lane) : (d.lane l f).hostEp = d.hostEp := rfl
@[simp] theorem lane_served (l : Nat) (f : Lane → Lane) : (d.lane l f).served = d.served := rfl

@[simp] theorem bundle_regs (k : Nat) (f : Bundle → Bundle) : (d.bundle k f).regs = d.regs := rfl
@[simp] theorem bundle_latch (k : Nat) (f : Bundle → Bundle) : (d.bundle k f).latch = d.latch := rfl
@[simp] theorem bundle_staging (k : Nat) (f : Bundle → Bundle) : (d.bundle k f).staging = d.staging := rfl
@[simp] theorem bundle_rdata (k : Nat) (f : Bundle → Bundle) : (d.bundle k f).rdata = d.rdata := rfl
@[simp] theorem bundle_rstat (k : Nat) (f : Bundle → Bundle) : (d.bundle k f).rstat = d.rstat := rfl
@[simp] theorem bundle_free (k : Nat) (f : Bundle → Bundle) : (d.bundle k f).free = d.free := rfl
@[simp] theorem bundle_clk (k : Nat) (f : Bundle → Bundle) : (d.bundle k f).clk = d.clk := rfl
@[simp] theorem bundle_time (k : Nat) (f : Bundle → Bundle) : (d.bundle k f).time = d.time := rfl
@[simp] theorem bundle_secs (k : Nat) (f : Bundle → Bundle) : (d.bundle k f).secs = d.secs := rfl
@[simp] theorem bundle_host (k : Nat) (f : Bundle → Bundle) : (d.bundle k f).host = d.host := rfl
@[simp] theorem bundle_hostMem (k : Nat) (f : Bundle → Bundle) : (d.bundle k f).hostMem = d.hostMem := rfl
@[simp] theorem bundle_lanes (k : Nat) (f : Bundle → Bundle) : (d.bundle k f).lanes = d.lanes := rfl
@[simp] theorem bundle_sys (k : Nat) (f : Bundle → Bundle) : (d.bundle k f).sys = d.sys := rfl
@[simp] theorem bundle_twin (k : Nat) (f : Bundle → Bundle) : (d.bundle k f).twin = d.twin := rfl
@[simp] theorem bundle_hdma (k : Nat) (f : Bundle → Bundle) : (d.bundle k f).hdma = d.hdma := rfl
@[simp] theorem bundle_htrc (k : Nat) (f : Bundle → Bundle) : (d.bundle k f).htrc = d.htrc := rfl
@[simp] theorem bundle_ctl (k : Nat) (f : Bundle → Bundle) : (d.bundle k f).ctl = d.ctl := rfl
@[simp] theorem bundle_pins (k : Nat) (f : Bundle → Bundle) : (d.bundle k f).pins = d.pins := rfl
@[simp] theorem bundle_tim (k : Nat) (f : Bundle → Bundle) : (d.bundle k f).tim = d.tim := rfl
@[simp] theorem bundle_boot (k : Nat) (f : Bundle → Bundle) : (d.bundle k f).boot = d.boot := rfl
@[simp] theorem bundle_pow (k : Nat) (f : Bundle → Bundle) : (d.bundle k f).pow = d.pow := rfl
@[simp] theorem bundle_loads (k : Nat) (f : Bundle → Bundle) : (d.bundle k f).loads = d.loads := rfl
@[simp] theorem bundle_images (k : Nat) (f : Bundle → Bundle) : (d.bundle k f).images = d.images := rfl
@[simp] theorem bundle_hostEp (k : Nat) (f : Bundle → Bundle) : (d.bundle k f).hostEp = d.hostEp := rfl
@[simp] theorem bundle_served (k : Nat) (f : Bundle → Bundle) : (d.bundle k f).served = d.served := rfl

@[simp] theorem sendPkt_regs (k c : Nat) (ws : List Nat) : (d.sendPkt k c ws).regs = d.regs := rfl
@[simp] theorem sendPkt_latch (k c : Nat) (ws : List Nat) : (d.sendPkt k c ws).latch = d.latch := rfl
@[simp] theorem sendPkt_staging (k c : Nat) (ws : List Nat) : (d.sendPkt k c ws).staging = d.staging := rfl
@[simp] theorem sendPkt_rdata (k c : Nat) (ws : List Nat) : (d.sendPkt k c ws).rdata = d.rdata := rfl
@[simp] theorem sendPkt_rstat (k c : Nat) (ws : List Nat) : (d.sendPkt k c ws).rstat = d.rstat := rfl
@[simp] theorem sendPkt_free (k c : Nat) (ws : List Nat) : (d.sendPkt k c ws).free = d.free := rfl
@[simp] theorem sendPkt_clk (k c : Nat) (ws : List Nat) : (d.sendPkt k c ws).clk = d.clk := rfl
@[simp] theorem sendPkt_time (k c : Nat) (ws : List Nat) : (d.sendPkt k c ws).time = d.time := rfl
@[simp] theorem sendPkt_secs (k c : Nat) (ws : List Nat) : (d.sendPkt k c ws).secs = d.secs := rfl
@[simp] theorem sendPkt_host (k c : Nat) (ws : List Nat) : (d.sendPkt k c ws).host = d.host := rfl
@[simp] theorem sendPkt_hostMem (k c : Nat) (ws : List Nat) : (d.sendPkt k c ws).hostMem = d.hostMem := rfl
@[simp] theorem sendPkt_lanes (k c : Nat) (ws : List Nat) : (d.sendPkt k c ws).lanes = d.lanes := rfl
@[simp] theorem sendPkt_sys (k c : Nat) (ws : List Nat) : (d.sendPkt k c ws).sys = d.sys := rfl
@[simp] theorem sendPkt_twin (k c : Nat) (ws : List Nat) : (d.sendPkt k c ws).twin = d.twin := rfl
@[simp] theorem sendPkt_hdma (k c : Nat) (ws : List Nat) : (d.sendPkt k c ws).hdma = d.hdma := rfl
@[simp] theorem sendPkt_htrc (k c : Nat) (ws : List Nat) : (d.sendPkt k c ws).htrc = d.htrc := rfl
@[simp] theorem sendPkt_ctl (k c : Nat) (ws : List Nat) : (d.sendPkt k c ws).ctl = d.ctl := rfl
@[simp] theorem sendPkt_pins (k c : Nat) (ws : List Nat) : (d.sendPkt k c ws).pins = d.pins := rfl
@[simp] theorem sendPkt_tim (k c : Nat) (ws : List Nat) : (d.sendPkt k c ws).tim = d.tim := rfl
@[simp] theorem sendPkt_boot (k c : Nat) (ws : List Nat) : (d.sendPkt k c ws).boot = d.boot := rfl
@[simp] theorem sendPkt_pow (k c : Nat) (ws : List Nat) : (d.sendPkt k c ws).pow = d.pow := rfl
@[simp] theorem sendPkt_loads (k c : Nat) (ws : List Nat) : (d.sendPkt k c ws).loads = d.loads := rfl
@[simp] theorem sendPkt_images (k c : Nat) (ws : List Nat) : (d.sendPkt k c ws).images = d.images := rfl
@[simp] theorem sendPkt_hostEp (k c : Nat) (ws : List Nat) : (d.sendPkt k c ws).hostEp = d.hostEp := rfl
@[simp] theorem sendPkt_served (k c : Nat) (ws : List Nat) : (d.sendPkt k c ws).served = d.served := rfl

@[simp] theorem sysg_regs (f : SysSt → SysSt) : (d.sysg f).regs = d.regs := rfl
@[simp] theorem sysg_latch (f : SysSt → SysSt) : (d.sysg f).latch = d.latch := rfl
@[simp] theorem sysg_staging (f : SysSt → SysSt) : (d.sysg f).staging = d.staging := rfl
@[simp] theorem sysg_rdata (f : SysSt → SysSt) : (d.sysg f).rdata = d.rdata := rfl
@[simp] theorem sysg_rstat (f : SysSt → SysSt) : (d.sysg f).rstat = d.rstat := rfl
@[simp] theorem sysg_free (f : SysSt → SysSt) : (d.sysg f).free = d.free := rfl
@[simp] theorem sysg_clk (f : SysSt → SysSt) : (d.sysg f).clk = d.clk := rfl
@[simp] theorem sysg_time (f : SysSt → SysSt) : (d.sysg f).time = d.time := rfl
@[simp] theorem sysg_secs (f : SysSt → SysSt) : (d.sysg f).secs = d.secs := rfl
@[simp] theorem sysg_host (f : SysSt → SysSt) : (d.sysg f).host = d.host := rfl
@[simp] theorem sysg_hostMem (f : SysSt → SysSt) : (d.sysg f).hostMem = d.hostMem := rfl
@[simp] theorem sysg_lanes (f : SysSt → SysSt) : (d.sysg f).lanes = d.lanes := rfl
@[simp] theorem sysg_bundles (f : SysSt → SysSt) : (d.sysg f).bundles = d.bundles := rfl
@[simp] theorem sysg_sys (f : SysSt → SysSt) : (d.sysg f).sys = f d.sys := rfl
@[simp] theorem sysg_twin (f : SysSt → SysSt) : (d.sysg f).twin = d.twin := rfl
@[simp] theorem sysg_hdma (f : SysSt → SysSt) : (d.sysg f).hdma = d.hdma := rfl
@[simp] theorem sysg_htrc (f : SysSt → SysSt) : (d.sysg f).htrc = d.htrc := rfl
@[simp] theorem sysg_ctl (f : SysSt → SysSt) : (d.sysg f).ctl = d.ctl := rfl
@[simp] theorem sysg_pins (f : SysSt → SysSt) : (d.sysg f).pins = d.pins := rfl
@[simp] theorem sysg_tim (f : SysSt → SysSt) : (d.sysg f).tim = d.tim := rfl
@[simp] theorem sysg_boot (f : SysSt → SysSt) : (d.sysg f).boot = d.boot := rfl
@[simp] theorem sysg_pow (f : SysSt → SysSt) : (d.sysg f).pow = d.pow := rfl
@[simp] theorem sysg_loads (f : SysSt → SysSt) : (d.sysg f).loads = d.loads := rfl
@[simp] theorem sysg_images (f : SysSt → SysSt) : (d.sysg f).images = d.images := rfl
@[simp] theorem sysg_hostEp (f : SysSt → SysSt) : (d.sysg f).hostEp = d.hostEp := rfl
@[simp] theorem sysg_served (f : SysSt → SysSt) : (d.sysg f).served = d.served := rfl

@[simp] theorem twn_regs (f : TwinSt → TwinSt) : (d.twn f).regs = d.regs := rfl
@[simp] theorem twn_latch (f : TwinSt → TwinSt) : (d.twn f).latch = d.latch := rfl
@[simp] theorem twn_staging (f : TwinSt → TwinSt) : (d.twn f).staging = d.staging := rfl
@[simp] theorem twn_rdata (f : TwinSt → TwinSt) : (d.twn f).rdata = d.rdata := rfl
@[simp] theorem twn_rstat (f : TwinSt → TwinSt) : (d.twn f).rstat = d.rstat := rfl
@[simp] theorem twn_free (f : TwinSt → TwinSt) : (d.twn f).free = d.free := rfl
@[simp] theorem twn_clk (f : TwinSt → TwinSt) : (d.twn f).clk = d.clk := rfl
@[simp] theorem twn_time (f : TwinSt → TwinSt) : (d.twn f).time = d.time := rfl
@[simp] theorem twn_secs (f : TwinSt → TwinSt) : (d.twn f).secs = d.secs := rfl
@[simp] theorem twn_host (f : TwinSt → TwinSt) : (d.twn f).host = d.host := rfl
@[simp] theorem twn_hostMem (f : TwinSt → TwinSt) : (d.twn f).hostMem = d.hostMem := rfl
@[simp] theorem twn_lanes (f : TwinSt → TwinSt) : (d.twn f).lanes = d.lanes := rfl
@[simp] theorem twn_bundles (f : TwinSt → TwinSt) : (d.twn f).bundles = d.bundles := rfl
@[simp] theorem twn_sys (f : TwinSt → TwinSt) : (d.twn f).sys = d.sys := rfl
@[simp] theorem twn_twin (f : TwinSt → TwinSt) : (d.twn f).twin = f d.twin := rfl
@[simp] theorem twn_hdma (f : TwinSt → TwinSt) : (d.twn f).hdma = d.hdma := rfl
@[simp] theorem twn_htrc (f : TwinSt → TwinSt) : (d.twn f).htrc = d.htrc := rfl
@[simp] theorem twn_ctl (f : TwinSt → TwinSt) : (d.twn f).ctl = d.ctl := rfl
@[simp] theorem twn_pins (f : TwinSt → TwinSt) : (d.twn f).pins = d.pins := rfl
@[simp] theorem twn_tim (f : TwinSt → TwinSt) : (d.twn f).tim = d.tim := rfl
@[simp] theorem twn_boot (f : TwinSt → TwinSt) : (d.twn f).boot = d.boot := rfl
@[simp] theorem twn_pow (f : TwinSt → TwinSt) : (d.twn f).pow = d.pow := rfl
@[simp] theorem twn_loads (f : TwinSt → TwinSt) : (d.twn f).loads = d.loads := rfl
@[simp] theorem twn_images (f : TwinSt → TwinSt) : (d.twn f).images = d.images := rfl
@[simp] theorem twn_hostEp (f : TwinSt → TwinSt) : (d.twn f).hostEp = d.hostEp := rfl
@[simp] theorem twn_served (f : TwinSt → TwinSt) : (d.twn f).served = d.served := rfl

@[simp] theorem timg_regs (f : TimeSt → TimeSt) : (d.timg f).regs = d.regs := rfl
@[simp] theorem timg_latch (f : TimeSt → TimeSt) : (d.timg f).latch = d.latch := rfl
@[simp] theorem timg_staging (f : TimeSt → TimeSt) : (d.timg f).staging = d.staging := rfl
@[simp] theorem timg_rdata (f : TimeSt → TimeSt) : (d.timg f).rdata = d.rdata := rfl
@[simp] theorem timg_rstat (f : TimeSt → TimeSt) : (d.timg f).rstat = d.rstat := rfl
@[simp] theorem timg_free (f : TimeSt → TimeSt) : (d.timg f).free = d.free := rfl
@[simp] theorem timg_clk (f : TimeSt → TimeSt) : (d.timg f).clk = d.clk := rfl
@[simp] theorem timg_time (f : TimeSt → TimeSt) : (d.timg f).time = d.time := rfl
@[simp] theorem timg_secs (f : TimeSt → TimeSt) : (d.timg f).secs = d.secs := rfl
@[simp] theorem timg_host (f : TimeSt → TimeSt) : (d.timg f).host = d.host := rfl
@[simp] theorem timg_hostMem (f : TimeSt → TimeSt) : (d.timg f).hostMem = d.hostMem := rfl
@[simp] theorem timg_lanes (f : TimeSt → TimeSt) : (d.timg f).lanes = d.lanes := rfl
@[simp] theorem timg_bundles (f : TimeSt → TimeSt) : (d.timg f).bundles = d.bundles := rfl
@[simp] theorem timg_sys (f : TimeSt → TimeSt) : (d.timg f).sys = d.sys := rfl
@[simp] theorem timg_twin (f : TimeSt → TimeSt) : (d.timg f).twin = d.twin := rfl
@[simp] theorem timg_hdma (f : TimeSt → TimeSt) : (d.timg f).hdma = d.hdma := rfl
@[simp] theorem timg_htrc (f : TimeSt → TimeSt) : (d.timg f).htrc = d.htrc := rfl
@[simp] theorem timg_ctl (f : TimeSt → TimeSt) : (d.timg f).ctl = d.ctl := rfl
@[simp] theorem timg_pins (f : TimeSt → TimeSt) : (d.timg f).pins = d.pins := rfl
@[simp] theorem timg_tim (f : TimeSt → TimeSt) : (d.timg f).tim = f d.tim := rfl
@[simp] theorem timg_boot (f : TimeSt → TimeSt) : (d.timg f).boot = d.boot := rfl
@[simp] theorem timg_pow (f : TimeSt → TimeSt) : (d.timg f).pow = d.pow := rfl
@[simp] theorem timg_loads (f : TimeSt → TimeSt) : (d.timg f).loads = d.loads := rfl
@[simp] theorem timg_images (f : TimeSt → TimeSt) : (d.timg f).images = d.images := rfl
@[simp] theorem timg_hostEp (f : TimeSt → TimeSt) : (d.timg f).hostEp = d.hostEp := rfl
@[simp] theorem timg_served (f : TimeSt → TimeSt) : (d.timg f).served = d.served := rfl

@[simp] theorem pin_regs (f : PinSt → PinSt) : (d.pin f).regs = d.regs := rfl
@[simp] theorem pin_latch (f : PinSt → PinSt) : (d.pin f).latch = d.latch := rfl
@[simp] theorem pin_staging (f : PinSt → PinSt) : (d.pin f).staging = d.staging := rfl
@[simp] theorem pin_rdata (f : PinSt → PinSt) : (d.pin f).rdata = d.rdata := rfl
@[simp] theorem pin_rstat (f : PinSt → PinSt) : (d.pin f).rstat = d.rstat := rfl
@[simp] theorem pin_free (f : PinSt → PinSt) : (d.pin f).free = d.free := rfl
@[simp] theorem pin_clk (f : PinSt → PinSt) : (d.pin f).clk = d.clk := rfl
@[simp] theorem pin_time (f : PinSt → PinSt) : (d.pin f).time = d.time := rfl
@[simp] theorem pin_secs (f : PinSt → PinSt) : (d.pin f).secs = d.secs := rfl
@[simp] theorem pin_host (f : PinSt → PinSt) : (d.pin f).host = d.host := rfl
@[simp] theorem pin_hostMem (f : PinSt → PinSt) : (d.pin f).hostMem = d.hostMem := rfl
@[simp] theorem pin_lanes (f : PinSt → PinSt) : (d.pin f).lanes = d.lanes := rfl
@[simp] theorem pin_bundles (f : PinSt → PinSt) : (d.pin f).bundles = d.bundles := rfl
@[simp] theorem pin_sys (f : PinSt → PinSt) : (d.pin f).sys = d.sys := rfl
@[simp] theorem pin_twin (f : PinSt → PinSt) : (d.pin f).twin = d.twin := rfl
@[simp] theorem pin_hdma (f : PinSt → PinSt) : (d.pin f).hdma = d.hdma := rfl
@[simp] theorem pin_htrc (f : PinSt → PinSt) : (d.pin f).htrc = d.htrc := rfl
@[simp] theorem pin_ctl (f : PinSt → PinSt) : (d.pin f).ctl = d.ctl := rfl
@[simp] theorem pin_pins (f : PinSt → PinSt) : (d.pin f).pins = f d.pins := rfl
@[simp] theorem pin_tim (f : PinSt → PinSt) : (d.pin f).tim = d.tim := rfl
@[simp] theorem pin_boot (f : PinSt → PinSt) : (d.pin f).boot = d.boot := rfl
@[simp] theorem pin_pow (f : PinSt → PinSt) : (d.pin f).pow = d.pow := rfl
@[simp] theorem pin_loads (f : PinSt → PinSt) : (d.pin f).loads = d.loads := rfl
@[simp] theorem pin_images (f : PinSt → PinSt) : (d.pin f).images = d.images := rfl
@[simp] theorem pin_hostEp (f : PinSt → PinSt) : (d.pin f).hostEp = d.hostEp := rfl
@[simp] theorem pin_served (f : PinSt → PinSt) : (d.pin f).served = d.served := rfl

@[simp] theorem bootg_regs (f : BootSt → BootSt) : (d.bootg f).regs = d.regs := rfl
@[simp] theorem bootg_latch (f : BootSt → BootSt) : (d.bootg f).latch = d.latch := rfl
@[simp] theorem bootg_staging (f : BootSt → BootSt) : (d.bootg f).staging = d.staging := rfl
@[simp] theorem bootg_rdata (f : BootSt → BootSt) : (d.bootg f).rdata = d.rdata := rfl
@[simp] theorem bootg_rstat (f : BootSt → BootSt) : (d.bootg f).rstat = d.rstat := rfl
@[simp] theorem bootg_free (f : BootSt → BootSt) : (d.bootg f).free = d.free := rfl
@[simp] theorem bootg_clk (f : BootSt → BootSt) : (d.bootg f).clk = d.clk := rfl
@[simp] theorem bootg_time (f : BootSt → BootSt) : (d.bootg f).time = d.time := rfl
@[simp] theorem bootg_secs (f : BootSt → BootSt) : (d.bootg f).secs = d.secs := rfl
@[simp] theorem bootg_host (f : BootSt → BootSt) : (d.bootg f).host = d.host := rfl
@[simp] theorem bootg_hostMem (f : BootSt → BootSt) : (d.bootg f).hostMem = d.hostMem := rfl
@[simp] theorem bootg_lanes (f : BootSt → BootSt) : (d.bootg f).lanes = d.lanes := rfl
@[simp] theorem bootg_bundles (f : BootSt → BootSt) : (d.bootg f).bundles = d.bundles := rfl
@[simp] theorem bootg_sys (f : BootSt → BootSt) : (d.bootg f).sys = d.sys := rfl
@[simp] theorem bootg_twin (f : BootSt → BootSt) : (d.bootg f).twin = d.twin := rfl
@[simp] theorem bootg_hdma (f : BootSt → BootSt) : (d.bootg f).hdma = d.hdma := rfl
@[simp] theorem bootg_htrc (f : BootSt → BootSt) : (d.bootg f).htrc = d.htrc := rfl
@[simp] theorem bootg_ctl (f : BootSt → BootSt) : (d.bootg f).ctl = d.ctl := rfl
@[simp] theorem bootg_pins (f : BootSt → BootSt) : (d.bootg f).pins = d.pins := rfl
@[simp] theorem bootg_tim (f : BootSt → BootSt) : (d.bootg f).tim = d.tim := rfl
@[simp] theorem bootg_boot (f : BootSt → BootSt) : (d.bootg f).boot = f d.boot := rfl
@[simp] theorem bootg_pow (f : BootSt → BootSt) : (d.bootg f).pow = d.pow := rfl
@[simp] theorem bootg_loads (f : BootSt → BootSt) : (d.bootg f).loads = d.loads := rfl
@[simp] theorem bootg_images (f : BootSt → BootSt) : (d.bootg f).images = d.images := rfl
@[simp] theorem bootg_hostEp (f : BootSt → BootSt) : (d.bootg f).hostEp = d.hostEp := rfl
@[simp] theorem bootg_served (f : BootSt → BootSt) : (d.bootg f).served = d.served := rfl

@[simp] theorem powg_regs (f : PowSt → PowSt) : (d.powg f).regs = d.regs := rfl
@[simp] theorem powg_latch (f : PowSt → PowSt) : (d.powg f).latch = d.latch := rfl
@[simp] theorem powg_staging (f : PowSt → PowSt) : (d.powg f).staging = d.staging := rfl
@[simp] theorem powg_rdata (f : PowSt → PowSt) : (d.powg f).rdata = d.rdata := rfl
@[simp] theorem powg_rstat (f : PowSt → PowSt) : (d.powg f).rstat = d.rstat := rfl
@[simp] theorem powg_free (f : PowSt → PowSt) : (d.powg f).free = d.free := rfl
@[simp] theorem powg_clk (f : PowSt → PowSt) : (d.powg f).clk = d.clk := rfl
@[simp] theorem powg_time (f : PowSt → PowSt) : (d.powg f).time = d.time := rfl
@[simp] theorem powg_secs (f : PowSt → PowSt) : (d.powg f).secs = d.secs := rfl
@[simp] theorem powg_host (f : PowSt → PowSt) : (d.powg f).host = d.host := rfl
@[simp] theorem powg_hostMem (f : PowSt → PowSt) : (d.powg f).hostMem = d.hostMem := rfl
@[simp] theorem powg_lanes (f : PowSt → PowSt) : (d.powg f).lanes = d.lanes := rfl
@[simp] theorem powg_bundles (f : PowSt → PowSt) : (d.powg f).bundles = d.bundles := rfl
@[simp] theorem powg_sys (f : PowSt → PowSt) : (d.powg f).sys = d.sys := rfl
@[simp] theorem powg_twin (f : PowSt → PowSt) : (d.powg f).twin = d.twin := rfl
@[simp] theorem powg_hdma (f : PowSt → PowSt) : (d.powg f).hdma = d.hdma := rfl
@[simp] theorem powg_htrc (f : PowSt → PowSt) : (d.powg f).htrc = d.htrc := rfl
@[simp] theorem powg_ctl (f : PowSt → PowSt) : (d.powg f).ctl = d.ctl := rfl
@[simp] theorem powg_pins (f : PowSt → PowSt) : (d.powg f).pins = d.pins := rfl
@[simp] theorem powg_tim (f : PowSt → PowSt) : (d.powg f).tim = d.tim := rfl
@[simp] theorem powg_boot (f : PowSt → PowSt) : (d.powg f).boot = d.boot := rfl
@[simp] theorem powg_pow (f : PowSt → PowSt) : (d.powg f).pow = f d.pow := rfl
@[simp] theorem powg_loads (f : PowSt → PowSt) : (d.powg f).loads = d.loads := rfl
@[simp] theorem powg_images (f : PowSt → PowSt) : (d.powg f).images = d.images := rfl
@[simp] theorem powg_hostEp (f : PowSt → PowSt) : (d.powg f).hostEp = d.hostEp := rfl
@[simp] theorem powg_served (f : PowSt → PowSt) : (d.powg f).served = d.served := rfl

end Sys2Proof.Machine.Dev

namespace Sys2Proof.Machine.State

variable (s : State) (f : Dev → Dev)

@[simp] theorem act_eq : s.act f = .next { s with dev := f s.dev } := rfl

end Sys2Proof.Machine.State
end

