-- ==== Sys2Proof/Tests/Slice0.lean ====
section
/-! SUPPORT. Tests: ill-formed commands, what some commands do on small states, and a witness for the hypotheses of every statement. -/

set_option Elab.async false

namespace Sys2Proof.Tests

open Sys2Proof.Machine Sys2Proof.Machine.Dev

/-! ### States that tests and witnesses start from -/

/-- A device at boot stage 5 with section 0 ON and PARKED. -/
def base : Dev := ((Dev.atReset.wf Reg.BOOT.STAT.hubAt 31 28 5).wf (sectStat 0) 30 29 2).wf (sctlState 0) 2 0 stPARKED

/-- A machine of that device. -/
def at_ (d : Dev) : State := { State.reset with dev := d }

/-- Section 0 of the base alone in its run group in run state k, period 32. -/
def inRun (k : Nat) : Dev := ((base.wf (sctlState 0) 2 0 k).wf (sctlState 0) 23 16 1).wr (Reg.SCTL.PERIOD.of 0) 32

/-- Section 0 RUNNING, its step in progress at step k. -/
def inStepAt (k : Nat) : Dev := ((inRun stRUNNING).wf (Reg.SCTL.POS.of 0) 8 0 k).run 0 (fun r => { r with inStep := true })

/-- What a command leaves. -/
def after (c : Instr) (d : Dev) : Dev := match exec c (at_ d) with | .next t => t.dev | _ => d

/-! ### Witnesses: states and operands that meet the hypotheses of the statements, a line for each clause -/

theorem witness_StepRunsFrontCommand : ({ at_ base with pending := [.timeTick] } : State).pending = .timeTick :: [] := by decide

theorem witness_CountStaysInRange : (at_ base).otp.count ≤ 64 ∧ (at_ base).otp.count = 0 := by decide

theorem witness_BadCmdRefused : (at_ base).upIn 0 ∧ ((0 : Fin 16).val = 0 ∨ 6 < (0 : Fin 16).val) ∧ ((15 : Fin 16).val = 0 ∨ 6 < (15 : Fin 16).val) := by
  decide

def armedRun (m : ArmMode) (hit seen : Bool) : Dev := ((inRun stLOADED).wb (sctlState 0) 4 true).run 0 (fun r => { r with
  armed := some m
  timeHit := hit
  trigSeen := seen })

/-- Half of an active twin pair. -/
def pairOf (d : Dev) (pri : Bool) : Dev := ((d.wr Reg.TWIN.CTL.hubAt 0x8007001F).wf Reg.TWIN.STAT.hubAt 31 28 2).wb Reg.TWIN.STAT.hubAt 0 pri

theorem witness_RunCommandsAccepted :
    (at_ (inRun stRUNNING)).upIn 0 ∧ (inRun stRUNNING).pairedPrimary = false ∧ (pairOf (inRun stLOADED) true).pairedPrimary = true ∧
    (inRun stRUNNING).runErr 0 rcPAUSE 0 false = 0 ∧
    (∀ st ∈ [stRUNNING, stPAUSED], (inRun st).runErr 0 rcSTOP 0 false = 0 ∧ (inRun st).runState 0 = st ∧ (inRun st).getSec 0 none (fun x => x.run.armed) = none) ∧
    (∀ m ∈ [ArmMode.onTrigger, .atTime], (armedRun m false false).runErr 0 rcSTOP 0 false = 0 ∧ (armedRun m false false).runState 0 = stLOADED ∧
      (armedRun m false false).getSec 0 none (fun x => x.run.armed) = some m) ∧
    (inRun stLOADED).runErr 0 rcRESTART 0 false = 0 ∧ (∀ d ∈ [inRun stLOADED, pairOf (inRun stLOADED) true], ∀ mode < 3, d.runErr 0 rcSTART mode false = 0) ∧
    (∀ d ∈ [inRun stLOADED, pairOf (inRun stLOADED) true], ∀ mode < 3, (d.wr (Reg.SCTL.STEPK.of 0) 1).runErr 0 rcSTEP mode false = 0 ∧
      (d.wr (Reg.SCTL.STEPK.of 0) 1).runState 0 = stLOADED) ∧
    (let d := (inRun stPAUSED).wr (Reg.SCTL.STEPK.of 0) 1; d.runErr 0 rcSTEP 0 false = 0 ∧ d.runState 0 = stPAUSED) ∧
    (inRun stPAUSED).runErr 0 rcRESUME 0 false = 0 := by decide

theorem witness_RunCommandsAccepted_armed :
    ∀ m ∈ [ArmMode.onTrigger, .atTime], let d := armedRun m true true
      (at_ d).upIn 0 ∧ d.haltDue 0 = false ∧ (∀ m ∈ d.group 0, d.clocksReady m = true) ∧ d.getSec 0 none (fun x => x.run.armed) = some m ∧
      d.getSec 0 false (fun x => x.run.timeHit) = true ∧ d.getSec 0 false (fun x => x.run.trigSeen) = true ∧ d.pairedPrimary = false ∧
      (pairOf d true).pairedPrimary = true ∧ 0 ∈ d.group 0 := by decide

/-- A period has ended with something due. -/
def due (stop pause : Bool) (left : Option Nat) : Dev :=
  (((inRun stRUNNING).wb (sctlState 0) 5 stop).wb (sctlState 0) 6 pause).run 0 (fun r => { r with effectDue := true, stepsLeft := left })

theorem witness_PeriodEnds :
    (∀ p ∈ [(true, none), (false, some 0), (true, some 0)], (at_ (due false p.1 p.2)).upIn 0 ∧ (due false p.1 p.2).effectDue 0 = true ∧
      (due false p.1 p.2).leader 0 = 0 ∧ (due false p.1 p.2).fb (sctlState 0) 5 = false ∧ (due false p.1 p.2).fb (sctlState 0) 6 = p.1 ∧
      (due false p.1 p.2).getSec 0 none (fun x => x.run.stepsLeft) = p.2) ∧
    (due true false none).effectDue 0 = true ∧ (due true false none).fb (sctlState 0) 5 = true ∧
    0 ∈ (inRun stRUNNING).group 0 ∧ (inRun stRUNNING).leader 0 < 8 ∧ (∀ m < 8, (inRun stRUNNING).getSec m [] (fun x => x.run.reads) = []) ∧
    (inRun stRUNNING).haltDue 0 = false ∧ (inRun stRUNNING).twinState ≠ 2 ∧
    (let d := (inRun stRUNNING).run 0 (fun r => { r with atEnd := true })
     d.getSec 0 false (fun x => x.run.atEnd) = true ∧ d.running 0 = true ∧ d.fb (sctlState 0) 8 = false ∧ (d.wb (sctlState 0) 8 true).fb (sctlState 0) 8 = true) ∧
    ((inRun stRUNNING).run 0 (fun r => { r with drain := some 16 })).getSec 0 none (fun x => x.run.drain) = some 16 := by decide

/-- Section 0 holds, with a sample that pacing leaves not ready where `p` says so. -/
def held0 (p : Bool) : Dev := ((inRun stRUNNING).wb (sctlState 0) 3 true).wb (Reg.SCTL.PACECTL.of 0) 31 p

/-- Section 0 between steps 7 and 8. -/
def ahead0 : Dev := ((inRun stRUNNING).wf (Reg.SCTL.POS.of 0) 8 0 8)

theorem witness_HoldEvents :
    (at_ ahead0).upIn 0 ∧ (ahead0.boardDrive 0 0 0).inStep 0 = false ∧ ((ahead0.boardDrive 0 0 0).openStep 0).inStep 0 = true ∧
    ((ahead0.boardDrive 0 0 0).openStep 0).sampled 0 = false ∧ (((ahead0.boardDrive 0 0 0).openStep 0).fretAhead 0).isSome = true ∧
    (held0 false).holding 0 = true ∧ (held0 false).getSec 0 true (fun x => x.run.resampled) = false ∧
    ((held0 false).sampleGroup 0 ((held0 false).fretHere 0)).groupReady 0 = true ∧
    ((held0 true).sampleGroup 0 ((held0 true).fretHere 0)).groupReady 0 = false ∧
    ((held0 true).sampleGroup 0 ((held0 true).fretHere 0)).haltDue 0 = false ∧
    (let d := ((held0 true).wr (Reg.SCTL.HLIMIT.of 0) 3).run 0 (fun r => { r with holdRun := 3 })
     d.holding 0 = true ∧ d.rd (Reg.SCTL.HLIMIT.of 0) ≠ 0 ∧ d.getSec 0 true (fun x => x.run.stallSent) = false ∧
     d.rd (Reg.SCTL.HLIMIT.of 0) ≤ d.getSec 0 0 (fun x => x.run.holdRun)) ∧
    (inRun stRUNNING).group 0 = [0] ∧ (inRun stRUNNING).haltDue 0 = false ∧
    ((inRun stRUNNING).run 0 (fun r => { r with sample := some 0 })).groupReady 0 = true ∧ (let d := (inRun stRUNNING).run 0 (fun r => { r with sample := some 4 }); d.groupReady 0 = false ∧ d.haltDue 0 = false) := by decide

def faulted : Dev := (inRun stRUNNING).run 0 (fun r => { r with haltDue := true, lastStep := 31, memberLeft := [1] })
def restarting : Dev := (inRun stPAUSED).run 0 (fun r => { r with restarting := true })

theorem witness_HaltsAndRestarts :
    (∀ d ∈ [faulted, faulted.wb (sctlState 0) 3 true, faulted.run 0 (fun r => { r with drain := some 16 })],
      (at_ d).up ∧ (∀ x ∈ d.group 0, d.running x = true) ∧ d.running 0 = true ∧ d.inStep 0 = false ∧ d.haltDue 0 = true ∧ d.sectionOn 0 = true ∧
      (d.getSec 0 none (fun x => x.run.drain) = some 16 ∨ (d.getSec 0 none (fun x => x.run.drain) = none ∧ (d.holding 0 = true ∨ d.posStep 0 % 16 = 0))) ∧
      (List.range 8).find? (fun x => d.getSec x false (fun y => y.run.memberLeft.contains 1)) = some 0) ∧
    (let d := faulted.wr (Reg.SFLT.FSTAT.of 0) 0x80000000; d.fb (Reg.SFLT.FSTAT.of 0) 31 = true ∧ d.getSec 0 true (fun x => x.run.restarting) = false) ∧
    (at_ restarting).upIn 0 ∧ restarting.group 0 = [0] ∧ restarting.leader 0 = 0 ∧ restarting.getSec 0 false (fun x => x.run.restarting) = true ∧
    restarting.nhCount 0 = 0 ∧ (∀ i < 8, restarting.getSlot 0 i true (fun x => x.cur.isNone) = true) := by decide

def paced (k : Nat) : Dev := ((inRun stRUNNING).wf (Reg.SCTL.PACEPEND.of 0) 15 0 k).run 0 (fun r => { r with paceDue := [5] })

theorem witness_RunRegisters :
    (at_ (inRun stLOADED)).upIn 0 ∧ (inRun stLOADED).runState 0 ≠ stRUNNING ∧ (inRun stRUNNING).runState 0 = stRUNNING ∧
    (paced 0xFFFE).getSec 0 [] (fun x => x.run.paceDue) = 5 :: [] ∧ (paced 0xFFFE).fd (Reg.SCTL.PACEPEND.of 0) 15 0 < 0xFFFF ∧
    (paced 0xFFFF).fd (Reg.SCTL.PACEPEND.of 0) 15 0 = 0xFFFF ∧ (inRun stLOADED).runState 0 = stLOADED ∧ (inRun stHALTED).runState 0 = stHALTED := by
  decide

/-- Section 0 in step k with cluster 0 used, its instruction and slot tables filled with zeros, and row 2 due for reading. -/
def fabAt (k : Nat) : Dev := ((inStepAt k).wb (clkctl 0 0) 4 true).fab 0 (fun f => { f with
  code := f.code.fill codeCl codeRow 0 512
  cslot := f.cslot.fill (fun k => k / 65536) cslotRow 0 512
  gslot := f.gslot.fill (fun k => k / 8192) gslotRow 0 512
  row := some 2 })

/-- An instruction of opcode `op` with TT, PORT and operands A to D, its parity even (R39, R40). -/
def insn (op tt port a b c d : Nat) : Nat :=
  let i := op * 2 ^ 90 + port * 2 ^ 78 + tt * 2 ^ 56 + a * 2 ^ 42 + b * 2 ^ 28 + c * 2 ^ 14 + d
  if oddOnes 96 i then i + 2 ^ 95 else i

/-- Section 0 in step 3 with instructions placed in course 0 of cluster 0. -/
def coded (is : List (Nat × Nat)) : Dev := (fabAt 3).fab 0 (fun f => { f with
  code := is.foldl (fun t e => t.set (codeKey 0 0 e.1 3) (BitVec.ofNat 96 e.2)) f.code })

/-- The operand that reads as bit v without a store (R42). -/
def k0 : Nat := 12
def k1 : Nat := 13

/-- A complete gang at BP0 to BP4: four MUXG and the MUXR that selects operand B of member 2. -/
def gang : List (Nat × Nat) := [(0, insn opMUXG 0 0 k0 k0 k0 k0), (1, insn opMUXG 0 0 k0 k0 k0 k0), (2, insn opMUXG 0 0 k0 k1 k0 k0),
  (3, insn opMUXG 0 0 k0 k0 k0 k0), (4, insn opMUXR 0 0 k1 k0 k0 k1)]

def place (n cl crs : Nat) : At := ⟨n, cl, crs, 3, 0, 32⟩

theorem witness_LogicOpsIssue :
    (∀ e ∈ [(opNOP, 0), (opLUT4, insn opLUT4 0x8000 0 k1 k1 k1 k1), (opLUT4E, insn opLUT4E 0x80 0 k1 k1 k1 k1)],
      let d := coded [(1, e.2)]
      (at_ d).upIn 0 ∧ d.issuing 0 = true ∧ d.used 0 0 = true ∧ d.getSec 0 true (fun x => x.fab.issued.any (fun p => p.1 == bpKey 0 0 1)) = false ∧
      d.suppressed 0 (stageOf (d.insns (d.atStep 0 0 0))) = false ∧ (d.bpOut (d.atStep 0 0 0) 1 (d.suppressed 0)).fault = none ∧
      iOP (d.code 0 0 0 1 (d.posStep 0)) = e.1) ∧
    (∀ p ∈ [(opNOP, 1), (opLUT4, insn opLUT4 0 1 k1 k1 k1 k1), (opLUT4E, insn opLUT4E 0 1 k1 k1 k1 k1), (opMUXG, insn opMUXG 0 1 k1 k1 k1 k1), (opMUXR, insn opMUXR 0 1 k1 k1 k1 k1)],
      let d := coded [(11, p.2)]
      iOP (d.code 0 0 0 11 (d.posStep 0)) = p.1 ∧ (d.bpOut (d.atStep 0 0 0) 11 (d.suppressed 0)).fault ≠ none) ∧
    (let d := (coded [(0, insn opLUT4 0 0 k1 k1 k1 k1 + 2 ^ 89 + 2 ^ 95)]).wb (sctlState 0) 7 true
     d.issuing 0 = true ∧ d.suppressed 0 (stageOf (d.insns (d.atStep 0 0 0))) = true) ∧
    ((inRun stRUNNING).runState 0 = stRUNNING ∧ (inRun stRUNNING).fb (Reg.SFLT.FSTAT.of 0) 31 = false) ∧
    (let d := coded gang
     (d.bpOut (d.atStep 0 0 0) 3 (d.suppressed 0)).fault = none ∧ iOP (d.code 0 0 0 3 (d.posStep 0)) = opMUXG ∧
     (d.bpOut (d.atStep 0 0 0) 4 (d.suppressed 0)).fault = none ∧ iOP (d.code 0 0 0 4 (d.posStep 0)) = opMUXR) ∧
    (let d := coded gang
     let a := place 0 0 0
     let i := insn opMUXR 0 0 k1 k0 k0 k1
     (d.insns a).getD 4 0 = i ∧ iparOk i = true ∧ opBad (d.insns a) 4 false = false ∧ badOperand a.p i = none ∧ iPORT i = 0 ∧ iTT i = 0 ∧
     d.readBits a i = .inl [true, false, false, true] ∧ (∀ m < 4, ((d.member a (d.insns a) m).1).fault = none)) := by decide

/-- Word ops at BP0 of course 0: addresses in store words that hold zeros with good parity. -/
def wordDev (i : Nat) : Dev := (((coded [(0, i)]).setWord 0 0 0 600 (mkWord 5 0 1)).setWord 0 0 0 601 (mkWord 0 0 1)).wf
  (Reg.SPAD.BANKSTAT.of 0) 31 0 0

def wordOps : List Nat := [insn opMRD 0 0 (600 * 16) (601 * 16) (700 * 16) 0, insn opMWR 0 0 (600 * 16) (601 * 16) (600 * 16) 0,
  insn opQRD 0 8 (700 * 16) 0 0 0, insn opQWR 16 0 (600 * 16) 0 0 0, insn opCALL 0 3 (600 * 16) (600 * 16) (600 * 16) (600 * 16), insn opDIGEST 0 0 (600 * 16) 0 0 0]

theorem witness_WordOpsIssue :
    (∀ i ∈ wordOps, let d := wordDev i
      (at_ d).upIn 0 ∧ d.issuing 0 = true ∧ d.used 0 0 = true ∧ d.getSec 0 true (fun x => x.fab.issued.any (fun p => p.1 == bpKey 0 0 0)) = false ∧
      d.suppressed 0 (stageOf (d.insns (d.atStep 0 0 0))) = false ∧ (d.bpOut (d.atStep 0 0 0) 0 (d.suppressed 0)).fault = none ∧
      iOP (d.code 0 0 0 0 (d.posStep 0)) = iOP i ∧ isWordOp (iOP i) = true ∧ iparOk i = true ∧
      (∀ k < 4, wordOperandBad 32 i k = false) ∧ portOk (iOP i) (iPORT i) = true ∧ iTT i &&& (0xFFFF - ttUse (iOP i)) = 0 ∧
      (∃ ws ∈ (match d.readAll (d.atStep 0 0 0) i with | .inl ws => [ws] | .inr _ => []), ws.length = ws.length)) ∧
    (∀ op ∈ [opMRD, opMWR, opQRD, opQWR, opCALL, opDIGEST], let d := wordDev (insn op 0x8000 0 0 0 0 0)
      iOP (d.code 0 0 0 0 (d.posStep 0)) = op ∧ (d.bpOut (d.atStep 0 0 0) 0 (d.suppressed 0)).fault ≠ none) ∧
    (∀ c ∈ (wordDev 0).usedClusters 0, c ≤ 0 → ∀ x < 0, iOP ((wordDev 0).code 0 c x 0 3) ≠ opCALL) := by decide +kernel

/-- The window of port 0 of cluster 0 is the scratchpad's first lines, which cluster 0 may read and write; bank 0 is ON as `on` says. -/
def homed (d : Dev) (on : Bool) : Dev := ((((d.wr (Reg.SPAD.REG.CTL.of 0 [0, 0]) 0x80000003).wr (Reg.SPAD.REG.BASE.of 0 [0, 0]) 0).wr
  (Reg.SPAD.REG.LIMIT.of 0 [0, 0]) 0x1FFFF).wr (Reg.SPAD.BANKSTAT.of 0) (if on then 0 else 0xAAAAAAAA))

def qw (v : Nat) (eop : Bool) : QWord := ⟨BitVec.ofNat 12 v, eop, false, false, none, none⟩
def qwBad (integ : Bool) : QWord := { qw 1 true with
  poison := true
  integ := integ }

theorem witness_WordOpsIssue_effects :
    (∀ i ∈ wordOps.take 2, (wordDev i).portAddr 0 0 0 5 1 (iOP i == opMWR) false = none ∧
      ((homed (wordDev i) true).portAddr 0 0 0 5 1 (iOP i == opMWR) false).isSome = true) ∧
    (∀ w ∈ [qw 1 true, qwBad false, qwBad true], let d := (wordDev (insn opQRD 0 8 (700 * 16) 0 0 0)).queue 0 8 (fun q => { q with
        mode := 0
        drain := [w] })
      (d.getQ 0 8 [] Queue.words).take (min 1 (d.getQ 0 8 0 Queue.avail)) = [w]) ∧
    (let d := (wordDev (insn opQWR 16 0 (600 * 16) 0 0 0)).queue 0 0 (fun q => { q with mode := 0 })
     1 ≤ d.getQ 0 0 0 Queue.free ∧ d.getQ 0 0 1024 (fun x => x.openLen) + 1 < 1024 ∧ d.getQ 0 0 [qw 0 false] (fun x => x.chain) = []) ∧
    (let d := wordDev (insn opCALL 0 3 (600 * 16) (600 * 16) (600 * 16) (600 * 16))
     d.fb (classLoc 0 3) 31 = false ∧ (d.wb (classLoc 0 3) 31 true).fb (classLoc 0 3) 31 = true ∧ (d.wr (Reg.CALL.CRPOOL.of 0 [0]) 0).credits 0 0 = 0 ∧
     (d.wr (Reg.CALL.CRPOOL.of 0 [0]) 16).credits 0 0 ≠ 0 ∧ d.secondary = false ∧ d.getSec 0 [0] (fun x => x.calls.mirror.map (fun _ => 0)) = []) := by decide +kernel

/-- Entries of row 2: cluster slot (63, 1) from course 7 word 3 to import word 9, and export entry 15 to cluster 1. They are valid as `v` says, the export entry toward section `m` over a bridge as `br` says. -/
def slotDev (v br : Bool) (m : Nat) : Dev := ((fabAt 3).wb (clkctl 0 1) 4 true).fab 0 (fun f => { f with
  cslot := f.cslot.set (cslotKey 0 2 63 1) (BitVec.ofNat 32 (b2n v * 2 ^ 31 + 7 * 2 ^ 25 + 3 * 2 ^ 16 + 9))
  gslot := f.gslot.set (gslotKey 0 2 15) (BitVec.ofNat 64 (b2n v * 2 ^ 63 + b2n br * 2 ^ 39 + m * 2 ^ 36 + 1 * 2 ^ 32 + 3 * 2 ^ 22 + 7 * 2 ^ 16 + 8 * 2 ^ 10 + 2 ^ 9 + 9)) })

def arrival (g : Bool) (p : SlotPort) : Xfer := ⟨false, g, p, 0, 7, 0, 15, 1, 8, 9, mkWord 77 0 1, 2, 0, 0, false⟩
def ret (k : RetKind) : Ret := ⟨k, 1, 8, 600, [(0, 1), (1, 2)], 1, 0, false, false⟩
def arrived (k : Nat) (xs : List Xfer) (rs : List Ret) : Dev := ((inRun k).wb (clkctl 0 1) 4 true).fab 0 (fun f => { f with xfers := xs, rets := rs })

theorem witness_SlotTransfers :
    (∀ v : Bool, let d := slotDev v false 0
      (at_ d).upIn 0 ∧ d.inStep 0 = true ∧ d.used 0 0 = true ∧ d.getSec 0 none (fun y => y.fab.row) = some 2 ∧
      (d.getSec 0 [] (fun y => y.fab.rowDone)).contains (cslotDone 0 63 1) = false ∧ (d.cslot 0 0 2 63 1).testBit 31 = v ∧
      wordBad (d.word 0 0 7 3) = false ∧ (d.getSec 0 [] (fun y => y.fab.rowDone)).contains (gslotDone 0 15) = false ∧
      (d.gslot 0 0 2 15).testBit 63 = v ∧ exBridge (d.gslot 0 0 2 15) = false) ∧
    wordBad (((slotDev true false 0).setWord 0 0 7 3 (mkWord 0 0 1 ^^^ 1)).word 0 0 7 3) = true ∧
    (∀ m ∈ [0, 7], let d := slotDev true true m
      exBridge (d.gslot 0 0 2 15) = true ∧ bits (d.gslot 0 0 2 15) 38 36 = m ∧ d.fb (Reg.SCTL.BROPEN.of 0) 7 = false ∧
      (d.wb (Reg.SCTL.BROPEN.of 0) 7 true).fb (Reg.SCTL.BROPEN.of 0) 7 = true ∧ d.bridgeRank 0 2 0 15 7 < 8) ∧
    (let d := ((slotDev true true 7).wb (Reg.SCTL.BROPEN.of 0) 7 true).fab 0 (fun f => { f with
        gslot := (List.range 8).foldl (fun g e => g.set (gslotKey 0 2 e) (BitVec.ofNat 64 (2 ^ 63 + 2 ^ 39 + 7 * 2 ^ 36 + 3 * 2 ^ 22 + 7 * 2 ^ 16))) f.gslot })
     8 ≤ d.bridgeRank 0 2 0 15 7) ∧
    (∀ x ∈ [arrival false .cl0, arrival false .cl1, arrival true .gb0, arrival true .gb1],
      let d := arrived stRUNNING [x] []
      d.inStep 0 = false ∧ d.holding 0 = false ∧ d.dueXfers 0 = [x] ∧ x.done = false ∧ d.used 0 1 = true ∧
      (d.wb (clkctl 0 1) 4 false).used 0 1 = false ∧ d.writes 0 (d.dueXfers 0) x = true) ∧
    (∀ x ∈ [arrival false .cl1, arrival true .gb0, arrival true .gb1], let d := arrived stRUNNING [x, arrival false .cl0] []
      d.writes 0 (d.dueXfers 0) x = false) ∧
    (∀ r ∈ [ret .qrd, ret .home], let d := arrived stRUNNING [] [r]; d.dueXfers 0 = [] ∧ d.dueRets 0 = [r] ∧ r.done = false ∧ hasPort [r] r = true ∧
      hasPort [{ r with kind := .pin }, r] r = false) ∧
    (∀ st ∈ [stPARKED, stSLIPWAY, stLOADED, stPAUSED, stHALTED, stRUNNING], let d := arrived st [] [ret .nonhome]
     d.runState 0 = st ∧ d.getSec 0 false (fun x => x.run.restarting) = false ∧ d.getSec 0 (some 0) (fun x => x.fab.clearDue.map (fun _ => 0)) = none ∧
     d.inStep 0 = false ∧ d.getSec 0 [] (fun x => x.fab.rets) = [ret .nonhome] ∧ (ret .nonhome).left = 0 ∧
     d.getSec 0 none (fun x => x.fab.rets.find? (fun r => r.kind == .nonhome && r.cl == 1 && r.crs == 8 && !r.done)) = some (ret .nonhome) ∧
     d.getSec 0 none (fun x => x.fab.rets.findIdx? (fun r => (r.kind == .nonhome && r.cl == 1 && r.crs == 8 && !r.done) && !r.waiting)) = some 0) := by decide +kernel

def acc (write home path : Bool) : MemAcc := ⟨write, home, path, 0, 8, 0, 5, if write then [0xABC] else [], 1, 600, 0, 3, 0, 0, false⟩
def accDev (k : Nat) (a : MemAcc) (on : Bool) : Dev := (homed ((inRun k).wb (clkctl 0 0) 4 true) on).mem 0 (fun m => { m with acc := [a] })
def pinDev (out : Bool) : Dev := (fabAt 3).fab 0 (fun f => { f with pinMap := [⟨out, 11, 0, 3, 0, 7, 3, 0⟩] })

theorem witness_PortsAndPins :
    (∀ w on : Bool, let d := accDev stPAUSED (acc w false false) on
      (at_ d).upIn 0 ∧ d.getSec 0 none (fun x => x.mem.acc.findIdx? (fun a => !a.home && !a.path && a.cl == 0)) = some 0 ∧
      d.accAddr 0 (acc w false false) = some 10 ∧ d.bankOn 0 (bankOf 10) = on ∧ d.wins 0 (bankOf 10) 0 false = true) ∧
    (accDev stPAUSED (acc true true false) true).accAddr 0 { acc true true false with w := 2 ^ 24 - 1 } = none ∧
    (let d := (accDev stPAUSED (acc true false false) true).mem 0 (fun m => { m with urgent := [(16, 0)] }); d.wins 0 (bankOf 10) 0 false = false) ∧
    (∀ w : Bool, let d := accDev stPAUSED (acc w false true) true
      d.runState 0 ≠ stRUNNING ∧ d.getSec 0 none (fun x => x.mem.acc.findIdx? (fun a => a.path && a.cl == 0 && !a.home)) = some 0) ∧
    (∀ w : Bool, let d := accDev stRUNNING (acc w true true) true
      d.runState 0 = stRUNNING ∧ (d.beginStep 0).inStep 0 = true ∧
      (d.beginStep 0).getSec 0 none (fun x => x.mem.acc.findIdx? (fun a => a.path && a.cl == 0 && a.left == 0)) = some 0) ∧
    (accDev stPAUSED (acc true false false) true).getSec 0 (some 0) (fun x => x.fab.clearDue.map (fun _ => 0)) = none := by decide +kernel

theorem witness_PortsAndPins_pins :
    Sparse.find 11 ((pinDev true).pin (fun p => { p with out := [(11, true)] })).pins.out = some true ∧
    (pinDev true).issuing 0 = true ∧ ((pinDev true).duePins 0 true).find? (fun p => p.2.cell == 11) = some (0, ⟨true, 11, 0, 3, 0, 7, 3, 0⟩) ∧
    (((pinDev false).boardDrive 0 0xFFF 5).beginStep 0).issuing 0 = true ∧ (pinDev false).secondary = false ∧ (pairOf (pinDev false) false).secondary = true ∧
    ((pinDev false).duePins 0 false).filter (fun p => p.2.stg == 0) ≠ [] ∧ (pinDev false).bankGood 0 = false ∧
    (let d := (pinDev false).wr (Reg.DIO.BANK.hubAt [0]) 0xB0000000; d.bankGood 0 = true ∧ d.ownDrive 0 = none) := by decide

/-- In step 3, with a course that has not issued. -/
def stepDev (k : Nat) : Dev := (fabAt k).wf (Reg.SCTL.POS.of 0) 20 16 (k / 16)

theorem witness_StepsAdvance :
    (∀ k ∈ [3, 15, 31], let b := stepDev k
      (at_ b).upIn 0 ∧ b.inStep 0 = true ∧ b.group 0 = [0] ∧ b.runState 0 = stRUNNING ∧ b.posStep 0 = k ∧ b.getSec 0 (some 0) (fun x => x.run.drain) = none ∧
      (k < 511 ∨ k + 1 = b.period 0) ∧ b.used 0 0 = true ∧ (b.getSec 0 none (fun x => x.fab.row)).isSome = true ∧ b.suppressed 0 0 = false ∧
      (b.wb (sctlState 0) 8 true).suppressed 0 0 = true ∧ b.getSec 0 [(0, true)] (fun x => x.fab.issued) = []) ∧
    ((stepDev 0).run 0 (fun r => { r with drain := some 15 })).getSec 0 none (fun x => x.run.drain) = some 15 ∧ (stepDev 3).leader 0 < 8 := by decide +kernel

/-- A host command as it stands in a function's queue. -/
def hcmd (opc : Nat) (arg : List Nat) : HostCmd := ⟨opc, 9, 0, 0x10000, 0x4000, 0, arg ++ List.replicate (32 - arg.length) 0, true⟩

/-- Function f with an open session and a command that is next to begin. -/
def hostDev (d : Dev) (f : Nat) (c : HostCmd) : Dev := (d.wb (Reg.HQ.CTL.hubAt [f]) 1 true).fn f (fun h => { h with queued := [c] })

/-- A load in a stage, of an empty image for section 0. -/
def load0 (stage : Nat) (rej : Option (List Nat)) : LoadSt :=
  { newLoad 1 9 false 0x10000 0 0 with stage := stage, rej := rej, place := [0], perms := [List.range 16], masks := [1], digest := Hvx.digestNow [] }
def loading (k : Nat) (x : LoadSt) : Dev := { inRun k with loads := [x] }

theorem witness_LoadPasses :
    (∀ c ∈ [{ hcmd ocLOAD [] with buf := 0 }, { hcmd ocLOAD [] with buf := 32 }, { hcmd ocLOAD [] with blen := 0 }, { hcmd ocLOAD [] with buf2 := 1 }, hcmd ocLOAD []],
      let d := hostDev (inRun stPARKED) 1 c
      d.getFn 1 none (fun h => h.long) = none ∧ d.frontCmd 1 = some c ∧ c.opc = ocLOAD ∧
      d.loads.any (fun x => x.fn == 1 && !x.auto && decide (x.stage < 5)) = false ∧
      ((d.popCmd 1).fn 1 (fun h => { h with long := some c })).cmdErr 1 c = 0 ∧
      (let e := (d.popCmd 1).fn 1 (fun h => { h with long := some c })
       e.getFn 1 none (fun h => h.long) = some c ∧ (e.wb (Reg.HQ.CTL.hubAt [1]) 1 false).cmdErr 1 c ≠ 0)) ∧
    ((inRun stPARKED).loads.any (fun y => decide (y.stage < 5)) = false ∧
     (let d := loading stPARKED (load0 2 none)
      d.loads.any (fun y => decide (y.stage < 5)) = true ∧ 0 ∈ ((d.loads.filter (fun y => decide (y.stage < 5))).map (fun y => y.place)).flatten)) ∧
    (hcmd ocLOAD []).buf ≠ 0 ∧ (hcmd ocLOAD []).buf % 64 = 0 ∧ (hcmd ocLOAD []).blen ≠ 0 ∧ (hcmd ocLOAD []).buf2 % 64 = 0 ∧
    (loading stPARKED (load0 2 (some [1, 2, 0, 0]))).loadNow.map (fun x => (x.stage, x.rej)) = some (2, some [1, 2, 0, 0]) ∧
    (loading stPARKED (load0 2 none)).loadNow.map (fun x => (x.stage, x.rej)) = some (2, none) ∧
    (∀ n ∈ (load0 2 none).place, (loading stPARKED (load0 2 none)).eligibleIn 1 [0] n = true) ∧ (loading stRUNNING (load0 2 none)).eligibleIn 1 [0] 0 = false ∧
    (loading stSLIPWAY (load0 4 none)).loadReady (load0 4 none) = true ∧
    relocate [] (Hvx.segs []) [0] [List.range 16] = .inl [] ∧
    ((loading stSLIPWAY (load0 4 none)).loads.find? (fun x => x.auto && x.stage == 5)).isNone = true ∧
    ((loading stSLIPWAY { load0 5 none with auto := true }).loads.find? (fun x => x.auto && x.stage == 5)).isSome = true := by decide

theorem witness_LoadPasses_digest : Hvx.digestNow ((loading stSLIPWAY (load0 4 none)).imageBytes (load0 4 none)) = (load0 4 none).digest := rfl

/-- The booted record of a device whose autostart image lies at 0x1000. -/
def booted : BootRec := Hvbr.record [] 0 0

/-- A load whose digest is longer than that of its image now. -/
def changed0 : LoadSt := { load0 4 none with digest := Hvx.digestNow [] ++ [0] }

theorem witness_LoadPasses_changed : Hvx.digestNow ((loading stSLIPWAY changed0).imageBytes changed0) ≠ changed0.digest := by
  intro h
  have : (Hvx.digestNow []).length = (Hvx.digestNow [] ++ [0]).length := congrArg List.length h
  simp at this

theorem witness_LoadPasses_auto :
    let d := { inRun stPARKED with boot := { (inRun stPARKED).boot with booted := some { booted with auto := List.replicate 16 0 } } }
    d.bootStage = 5 ∧ d.loads.any (fun x => x.auto) = false ∧ d.fd Reg.BOOT.ASTAT.hubAt 2 0 ≤ 1 ∧
    (d.boot.booted.any (fun r => r.auto != [])) = true := by decide

/-- A commit's load agreed on with the twin. -/
def agreed (d : Dev) : Dev := (pairOf d true).twn (fun t => { t with loadChk := some (loadChkWords (load0 5 none)) })

theorem witness_CommitFormsGroup :
    let c := hcmd ocCOMMIT []
    let d := hostDev (loading stSLIPWAY (load0 5 none)) 1 c
    (at_ d).up ∧ d.frontIs 1 ocCOMMIT = some c ∧ d.cmdErr 1 c = 0 ∧ (∀ y ∈ d.twin.fwd, y.asker ≠ some (.host 1 9)) ∧ d.pairedPrimary = false ∧
    (d.wb (Reg.HQ.CTL.hubAt [1]) 1 false).cmdErr 1 c ≠ 0 ∧
    (d.loads.find? (fun x => x.stage == 5 && x.fn == 1 && !x.auto)).isSome = true ∧
    ((hostDev base 1 c).loads.find? (fun x => x.stage == 5 && x.fn == 1 && !x.auto)).isNone = true ∧
    (hostDev base 1 c).frontIs 1 ocCOMMIT = some c ∧ (∀ m ∈ (load0 5 none).place, m < 8) ∧ 0 ∈ (load0 5 none).place ∧ (load0 5 none).place.Nodup ∧
    (pairOf d true).pairedPrimary = true ∧ ((pairOf d true).twin.loadChk.map List.length) = none ∧
    ((List.range 64).foldl (fun d q => d.queue 0 q (fun x => { x with passed := true })) d).queuesTested 0 = true ∧ d.queuesTested 0 = false ∧
    d.memWf = true ∧ d.getSec 0 [(0, [])] (fun y => y.ctl.dirty) = [] ∧ ((load0 5 none).masks.getD 0 0).testBit 0 = true := by decide +kernel

theorem witness_CommitFormsGroup_agreed : (agreed base).twin.loadChk = some (loadChkWords (load0 5 none)) := rfl

def clk0 (ctl stat : Nat) (st : Nat) : Dev := ((inRun st).wr (clkctl 0 0) ctl).wr (clkstat 0 0) stat

theorem witness_ClockAndResetOfACluster :
    (at_ (clk0 0x10 0 stRUNNING)).upIn 0 ∧ ((clk0 0x10 0 stRUNNING).runState 0 = stRUNNING ∨ False) ∧
    ((clk0 0x10 0 stRUNNING).rd (clkctl 0 0)).testBit 4 = true ∧ (clk0 0x10 0 stRUNNING).rd (clkctl 0 0) ≠ 0x11 ∧
    (clk0 0x10 0 stPAUSED).runState 0 = stPAUSED ∧ ((clk0 0 0 stPAUSED).rd (clkctl 0 0)).testBit 4 = false ∧
    (clk0 0x10 0 stPAUSED).rd (clkctl 0 0) % 16 = 0 ∧ (clk0 0 0x10 stLOADED).fb (clkstat 0 0) 4 = true ∧ (clk0 0 0 stLOADED).fb (clkstat 0 0) 4 = false ∧
    (clk0 0 0x10 stLOADED).getSec 0 none (fun x => Sparse.find 0 x.fab.clkNext) = none ∧ ((clk0 0 0x10 stLOADED).fab 0 (fun f => { f with clkNext := [(0, 5)] })).getSec 0 none (fun x => Sparse.find 0 x.fab.clkNext) = some 5 ∧
    (clk0 0 0 stLOADED).fb (clkstat 0 0) 5 = false ∧ (clk0 0 0 stLOADED).runState 0 ∈ [stPARKED, stSLIPWAY, stLOADED, stHALTED] ∧
    (clk0 0 0 stPAUSED).runState 0 ∉ [stPARKED, stSLIPWAY, stLOADED, stHALTED] ∧ (clk0 0 0x20 stLOADED).fb (clkstat 0 0) 5 = true := by decide

/-- Section 0 executes step 3, with a probe of cluster 0 in it. -/
def tapped : Dev := ((inStepAt 3).wr (Reg.CAPT.CFG.of 0) 1).wr (Reg.CAPT.PROBE.of 0 [0]) 3

theorem witness_StoreWindows :
    (at_ (inRun stRUNNING)).upIn 0 ∧ (inRun stRUNNING).runState 0 = stRUNNING ∧ ¬(inRun stPAUSED).runState 0 = stRUNNING ∧
    (tapped.runState 0 = stRUNNING ∧ tapped.holding 0 = false ∧ tapped.getSec 0 (some 0) (fun x => x.run.drain) = none ∧ 0 < min 512 (tapped.nProbe 0) ∧
     bits (tapped.rd (Reg.CAPT.PROBE.of 0 [0])) 8 0 = tapped.posStep 0 ∧ bits (tapped.rd (Reg.CAPT.PROBE.of 0 [0])) 29 26 = 0 ∧
     tapped.suppressed 0 (bits (tapped.rd (Reg.CAPT.PROBE.of 0 [0])) 30 30) = false) ∧
    (tapped.run 0 (fun r => { r with reads := [⟨0, 1, 2, 0, 4⟩] })).getSec 0 [] (fun x => x.run.reads) = [⟨0, 1, 2, 0, 4⟩] := by decide

/-- Master 21 may read and write the scratchpad lines 0 to 0x1FFFF of a section whose banks are ON. -/
def svcDev : Dev := ((((inRun stLOADED).wr (Reg.SPAD.REG.CTL.of 0 [21, 0]) 0x80000003).wr (Reg.SPAD.REG.BASE.of 0 [21, 0]) 0).wr
  (Reg.SPAD.REG.LIMIT.of 0 [21, 0]) 0x1FFFF).wr (Reg.SPAD.BANKSTAT.of 0) 0

def svcAt (k : Nat) : Dev := svcDev.nocStat 0 21 k (some 5)

theorem witness_ServiceAccesses :
    (at_ svcDev).upIn 0 ∧ svcDev.allow 0 21 0x800000 8 false = none ∧ svcDev.fb (Reg.SPAD.RVIOL.of 0) 31 = false ∧
    (svcDev.wb (Reg.SPAD.RVIOL.of 0) 31 true).fb (Reg.SPAD.RVIOL.of 0) 31 = true ∧ initiatorOf 21 = some 1 ∧ svcDev.fb (Reg.SNOC.STCTL.of 0) 31 = false ∧
    (∀ w : Bool, svcDev.allow 0 21 0x7FFFC0 64 w = some 0) ∧
    (∀ i < 64, ∃ x ∈ [0x7FFFC0 + i], svcDev.region 0 21 0 (0x7FFFC0 + i) = some x ∧ inSpad x = true ∧ svcDev.reachable 0 x = true ∧
      svcDev.wins 0 (bankOf x) 21 (svcDev.getSec 0 false (fun y => y.mem.urgent.contains (21, bankOf x))) = true) ∧
    (svcDev.mem 0 (fun m => { m with urgent := [(16, 15)] })).wins 0 15 21 false = false ∧ bankOf 0x7FFFC0 = 15 ∧
    svcDev.bankOn 0 (bankOf 0x7FFFC0) = true ∧ (svcDev.wr (Reg.SPAD.BANKSTAT.of 0) 0xAAAAAAAA).reachable 0 0x7FFFC0 = false ∧
    (∃ e ∈ errPairs [((31 : Fin 2048), (2 : Fin 3))], 2 * (0x7FFFC0 / 2 + e.1) < 0x7FFFC0 + 64 ∧ e.2 = 2) ∧
    svcDev.getSec 0 [(0, [])] (fun x => x.ctl.dirty) = [] := by decide +kernel

theorem witness_StoredBytesReadBack :
    0x7FFFC0 / 64 = (0x7FFFC0 + [1, 2, 3].length - 1) / 64 ∧ inSpad 0x7FFFC0 = true ∧ inSpad 0 = true ∧ hbmBase ≤ hbmBase := by decide

theorem witness_BankPowerAndUrgency :
    16 ≤ (30 : Fin 31).val ∧ (∀ u ∈ svcDev.getSec 0 [] (fun x => x.mem.urgent), u.1 ≠ 30) ∧
    (∃ u ∈ (svcDev.mem 0 (fun m => { m with urgent := [(30, 15)] })).getSec 0 [] (fun x => x.mem.urgent), u.1 = 30) ∧
    (∀ u : Bool, let d := accDev stPAUSED { acc true false false with urgent := u } true
      d.getSec 0 none (fun x => x.mem.acc.findIdx? (fun a => !a.home && !a.path && a.cl == 0)) = some 0 ∧
      d.getSec 0 none (fun x => x.mem.acc[0]?) = some { acc true false false with urgent := u }) ∧
    (let cur := svcDev.fd (Reg.SPAD.BANKSTAT.of 0) 31 30; cur ≠ 3 ∧ cur ≠ 2) ∧
    (∀ p ∈ [0x80000000, 0], let d := (svcDev.wr (Reg.SPAD.BANKSTAT.of 0) 0xC0000000).mem 0 (fun m => { m with bankMove := [(15, (0, 2))] })
     d.getSec 0 none (fun x => Sparse.find 15 x.mem.bankMove) = some (0, 2) ∧ ((d.wr (Reg.SPAD.BANKPWR.of 0) p).bankTarget 0 15 = 2) = (p = 0x80000000)) := by decide

/-- A request packet of queue 0, its last word marked. -/
def reqDev (poison : Bool) (ws : List Nat) : Dev :=
  ((((inRun stLOADED).wr (Reg.HBMC.FREG.CTL.of 0 [0]) 0x80000001).wr (Reg.HBMC.FREG.BASE.of 0 [0]) (hbmBase / 64)).wr (Reg.HBMC.FREG.LIMIT.of 0 [0])
    (hbmBase / 64 + 1)).queue 0 0 (fun q => { q with
      mode := 0
      drain := ws.zipIdx.map (fun p => ⟨BitVec.ofNat 12 p.1, p.2 + 1 == ws.length, poison, false, none, none⟩) })

/-- What the memory engine holds of it. -/
def taken (d : Dev) : List QWord :=
  let t := d.queueTake 0 0 (d.requestPacket 0 0).get!.2 []
  t.1.getQ 0 0 [] (fun x => x.taken) ++ t.2
def reqOf (d : Dev) : Request := Request.read ((taken d).map (fun w => w.data.toNat))

def writeReq (cmd a : Nat) : List Nat := [cmd * 256, 5, a / 2 % 4096, a / 2 / 2 ^ 12 % 4096, a / 2 / 2 ^ 24 % 4096, a / 2 / 2 ^ 36 % 4096, 0xABC]

def readReq (a : Nat) : List Nat := [0x100, 5, a / 2 % 4096, a / 2 / 2 ^ 12 % 4096, a / 2 / 2 ^ 24 % 4096, a / 2 / 2 ^ 36 % 4096]

theorem witness_MemoryEngineRequests :
    (∀ ws ∈ [readReq hbmBase, readReq 0, [0x400, 7], [0x900, 1]], ∀ p : Bool,
      (at_ (reqDev p ws)).upIn 0 ∧ (reqDev p ws).hasTag 0 0 = true ∧ (reqDev p ws).requestPacket 0 0 = some (0, ws.length)) ∧
    (∃ w ∈ taken (reqDev true [0x400, 7]), w.poison = true) ∧ (reqOf (reqDev true [0x400, 7])).cmd = 4 ∧
    (∀ w ∈ taken (reqDev false [0x400, 7]), w.poison = false) ∧ (reqOf (reqDev false [0x400, 7])).malformed = false ∧
    (reqOf (reqDev false [0x900, 1])).malformed = true ∧
    (reqOf (reqDev false (readReq 0))).malformed = false ∧ ((reqDev false (readReq 0)).fregCheck 0 0 2 false).1 ≠ rOK ∧
    (reqOf (reqDev false (readReq hbmBase))).malformed = false ∧ (reqOf (reqDev false (readReq hbmBase))).sma = hbmBase ∧
    (reqOf (reqDev false (readReq hbmBase))).cmd = 1 ∧ ((reqDev false (readReq hbmBase)).fregCheck 0 hbmBase 2 false).1 = rOK ∧
    (∀ k ∈ [2, 3], let d := ((reqDev false (writeReq k hbmBase)).wr (Reg.HBMC.FREG.CTL.of 0 [0]) 0x80000003)
      (reqOf d).malformed = false ∧ (reqOf d).cmd = k ∧ (reqOf d).sma = hbmBase ∧ (d.fregCheck 0 hbmBase 2 true).1 = rOK) ∧
    ((reqDev false (readReq 0)).getSec 0 [(0, [])] (fun x => x.ctl.dirty) = []) ∧
    (let d := (inRun stLOADED).sec 0 (fun x => { x with eng := [⟨7, [0, 5, 1], 0, false, false⟩] })
     d.getSec 0 none (fun x => x.eng.findIdx? (fun e => e.queue == 7)) = some 0 ∧ (d.getSec 0 none (fun x => x.eng[0]?)).isSome = true ∧
     (d.queue 0 15 (fun x => { x with mode := 0 })).getQ 0 15 0 Queue.free ≥ 3 ∧ d.getQ 0 15 1024 (fun x => x.openLen) + 3 < 1024 ∧
     (d.queue 0 15 (fun x => { x with mode := 2, chain := List.replicate 7 (qw 0 false) })).getQ 0 15 9 Queue.free < 3 ∧
     d.getQ 0 15 [qw 0 false] (fun x => x.chain) = []) := by decide +kernel

def queueIn (f : Queue → Queue) : Dev := (inRun stLOADED).queue 0 63 (fun q => f { q with mode := 0 })

theorem witness_QueueIsFifo :
    let q := { Queue.start with mode := 0, drain := [qw 1 false, qw 2 true], fill := [qw 3 true] }
    3 ≤ q.avail ∧ q.avail = 3 := by decide

theorem witness_QueueCommands :
    (unitFills 0 = false ∧ unitFills 8 = true ∧ unitDrains 8 = false ∧ unitDrains 55 = true) ∧
    (let x := (queueIn id).getQ 0 63 Queue.start id; 0 < x.free ∧ x.openLen < 1023 ∧ x.toBanks = true ∧ x.chain = [] ∧
      x.taken.getLast?.all (fun w => !w.eop) = true ∧ x.mode = 0 ∧ x.bad = false ∧ x.long = false) ∧
    (∀ k ∈ [7, 8], let x := (queueIn (fun q => { q with mode := 2, chain := List.replicate k (qw 0 false) })).getQ 0 63 Queue.start id
      x.free = 8 - k ∧ x.openLen + x.free < 1024 ∧ x.free < 2) ∧
    (∀ m ∈ [1, 2, 3], ∀ l ∈ [[], [qw 1 true]], let x := (queueIn (fun q => { q with mode := m, chain := l })).getQ 0 63 Queue.start id
     x.mode ≠ 0 ∧ x.passed = false ∧ x.retired = false ∧ x.banks = [] ∧ x.words = l) ∧
    (queueIn id).secondary = false ∧ (queueIn id).pairedPrimary = false ∧ (pairOf (queueIn id) true).pairedPrimary = true ∧
    (pairOf (queueIn id) true).secondary = false ∧ (pairOf (queueIn id) false).secondary = true := by decide +kernel

def ent (seq cluster level : Nat) (urg : Bool) : CallEnt := ⟨seq, 0, cluster * 64, 3, [], 7, level, 0, 0, urg⟩

/-- Entries that wait for class 3, which blocks, returns two words and runs on cores 0 and 1. -/
def callDev (es : List CallEnt) : Dev :=
  ((((inRun stLOADED).wr (classLoc 0 3) 0xC2000003).wr (Reg.CALL.CORECTL.of 0) 3).wf (Reg.CALL.CORESTAT.of 0 [0]) 28 28 0 |>.wf (Reg.CALL.CORESTAT.of 0 [1]) 28 28 0).calls 0
    (fun c => { c with ready := es })

/-- The device at a later time. -/
def late (d : Dev) (t : Nat) : Dev := { d with clk := d.clk + t }

def curDev : Dev := late ((callDev []).slot 0 1 (fun y => { y with
  cur := some (ent 5 2 0 false)
  limit := 1024
  rets := [1, 2] })) 2000

theorem witness_PrefetchAndDispatch :
    (let d := callDev [ent 1 0 2 false, ent 2 0 3 false]
     (at_ d).upIn 0 ∧ stLOADED ≤ d.runState 0 ∧ d.getSec 0 true (fun y => y.run.restarting) = false ∧ d.secondary = false ∧
     (∀ x < 1, d.getSlot 0 x none (fun y => y.pref) = none) ∧ d.bestFor 0 0 = some (ent 2 0 3 false) ∧ (d.wr (Reg.CALL.TRCTL.of 0) 0).fb (Reg.CALL.TRCTL.of 0) 5 = false) ∧
    (let d := (callDev [ent 1 0 2 false]).slot 0 0 (fun y => { y with pref := some (ent 3 0 2 true) })
     (d.getSlot 0 0 none (fun y => y.pref)).isSome = true ∧ d.getSlot 0 1 none (fun y => y.pref) = none ∧ d.bestFor 0 1 = some (ent 1 0 2 false)) ∧
    (let d := (callDev []).slot 0 7 (fun y => { y with pref := some (ent 1 0 2 true) })
     d.getSlot 0 7 none (fun y => y.cur) = none ∧ d.getSlot 0 7 none (fun y => y.pref) = some (ent 1 0 2 true)) := by decide

theorem witness_BestEntryIsBest :
    let d := callDev [ent 1 0 3 false, ent 2 0 0 true, ent 3 0 0 true]
    d.bestFor 0 0 = some (ent 2 0 0 true) ∧ (∀ y ∈ d.ready 0, y.level < 4) ∧ (d.ready 0).Pairwise (fun a b => a.seq < b.seq) ∧
      (callDev [ent 1 0 1 false, ent 2 0 3 false]).bestFor 0 0 = some (ent 2 0 3 false) ∧ (callDev []).bestFor 0 0 = none := by decide

/-- Entries older than their limit. -/
def agedDev (es : List CallEnt) : Dev := late ((callDev es).wr (Reg.CALL.AGELIM.of 0) 0x0A0A0A0A) 1025

/-- A return that has finished. -/
def retDev (room : Bool) : Dev := ((inRun stLOADED).calls 0 (fun c => { c with rets := [⟨5, [7, 1, 2]⟩] })).queue 0 62 (fun q => { q with
  mode := if room then 0 else 2
  chain := if room then [] else List.replicate 8 (qw 0 false) })

theorem witness_CallsCompleteAndRegisters :
    (at_ curDev).upIn 0 ∧ stLOADED ≤ curDev.runState 0 ∧ (inRun stSLIPWAY).runState 0 < stLOADED ∧
    (∀ l < 3, let d := agedDev [ent 1 0 l false]
     d.undispatched 0 = [ent 1 0 l false] ∧ ((d.undispatched 0).map (fun y => y.seq)).Nodup ∧ log2Limit (d.fd (Reg.CALL.AGELIM.of 0) (8 * l + 4) (8 * l)) = 1024 ∧
     1024 < d.clk - (ent 1 0 l false).levelT) ∧
    (let d := agedDev [ent 1 0 3 false]
     d.ready 0 = [ent 1 0 3 false] ∧ (∀ i < 8, d.getSlot 0 i none (fun y => y.pref) = none) ∧ log2Limit (d.fd (Reg.CALL.AGELIM.of 0) 28 24) = 1024 ∧
     (List.range 8).filter (fun i => d.eligible 0 i 3) = [0, 1] ∧ d.serving 0 = true ∧
     (let y := (d.slot 0 0 (fun y => { y with pref := some { ent 2 0 0 false with levelT := 1025 } })).slot 0 1 (fun y => { y with
        pref := some { ent 3 0 0 false with levelT := 1025 } })
      y.getSlot 0 0 none (fun y => y.pref) = some { ent 2 0 0 false with levelT := 1025 } ∧ y.clk - 1025 = 0)) ∧
    curDev.getSlot 0 1 none (fun y => y.cur) = some (ent 5 2 0 false) ∧
    (let lim := curDev.getSlot 0 1 0 (fun y => y.limit); lim ≠ 0 ∧ lim < curDev.clk - curDev.getSlot 0 1 0 (fun y => y.curT)) ∧
    (curDev.slot 0 1 (fun y => { y with limit := 0 })).getSlot 0 1 1 (fun y => y.limit) = 0 := by decide +kernel

theorem witness_CallsCompleteAndRegisters_returns :
    (∀ room : Bool, let d := retDev room
     minBy (fun (r : CallRet) => r.seq) (d.getSec 0 [] (fun y => y.calls.rets)) = some ⟨5, [7, 1, 2]⟩ ∧ d.undispatched 0 = [] ∧
     (∀ i < 8, d.getSlot 0 i (some (ent 0 0 0 false)) (fun z => z.cur) = none) ∧ d.pairedPrimary = false ∧ (pairOf d true).pairedPrimary = true ∧
     (d.getQ 0 62 0 Queue.free < 3) = (room = false) ∧ d.getQ 0 62 1024 (fun y => y.openLen) + 3 < 1024 ∧ (retDev true).getQ 0 62 [qw 0 true] (fun y => y.chain) = []) ∧
    (let d := (callDev [ent 1 0 2 false]).calls 0 (fun c => { c with rets := [⟨5, [7, 1, 2]⟩] })
     (∃ y ∈ d.undispatched 0, y.seq < 5 ∧ d.blocking 0 y.cls = true)) ∧
    (∀ i < 8, curDev.getSlot 0 i none (fun y => y.pref) = none) ∧ (curDev.fb (Reg.CALL.CORECTL.of 0) 0 = true ∧ (0#32).toNat.testBit 0 = false) ∧
    (let d := curDev.slot 0 0 (fun y => { y with pref := some (ent 1 0 2 false) }); d.getSlot 0 0 none (fun y => y.pref) = some (ent 1 0 2 false)) ∧
    (inRun stRUNNING).runState 0 = stRUNNING ∧ (inRun stPAUSED).runState 0 = stPAUSED ∧ curDev.runState 0 ≠ stRUNNING ∧ curDev.runState 0 ≠ stPAUSED ∧
    (∀ v ∈ [16, 17], let d := (List.range 15).foldl (fun d y => d.wr (Reg.CALL.CRPOOL.of 0 [y]) 16) curDev
     let pool := fun y => if y = 15 then v else d.fd (Reg.CALL.CRPOOL.of 0 [y]) 7 0
     (256 < ((List.range 16).map (fun y => max (pool y) (((d.undispatched 0).filter (fun e => e.cluster == y)).length))).sum) = (v = 17)) := by
  decide +kernel

/-- A core that runs, its trace disabled. -/
def coreDev (x : Nat) : Dev := (base.wf (Reg.CALL.CORESTAT.of 0 [7]) 28 28 0).wf (tctl 0 x) 31 31 0

/-- Call core 7's region of the scratchpad, its banks ON. -/
def coreMem : Dev := ((((coreDev 7).wr (Reg.SPAD.REG.CTL.of 0 [30, 0]) 0x80000003).wr (Reg.SPAD.REG.BASE.of 0 [30, 0]) 0).wr
  (Reg.SPAD.REG.LIMIT.of 0 [30, 0]) 0x1FFFF).wr (Reg.SPAD.BANKSTAT.of 0) 0

theorem witness_CoreRetiresAndWritesBack :
    (∀ x ∈ [7, 8], let d := coreDev x
     let c := d.getCore 0 x
     d.coreRuns 0 x = true ∧ d.fb (tctl 0 (traceIx 0 x)) 31 = false ∧ c.user = false ∧ d.csrHeld 0 x 0x3A0 = 0 ∧ (d.csrHeld 0 x csrSTATUS).testBit 17 = false ∧
     (∃ y ∈ [c.pc, c.pc - 0x1000000], d.place 0 x c.pc = .ram y) ∧ (∃ a ∈ [c.pc, c.pc + 8], a % 8 = 0 ∧ ∃ y ∈ [a, a - 0x1000000], d.place 0 x a = .ram y) ∧
     d.place 0 x 0x70000000 = .nowhere ∧ c.resv ≠ some 0x100 ∧ d.interrupts 0 x = false) ∧
    (((coreDev 8).core 0 8 (fun c => { c with resv := some 0x100 })).getCore 0 8).resv = some 0x100 := by decide +kernel

/-- The section controller's cache holds a changed line 3. -/
def ctlDev (bs : List Nat) : Dev := ((svcDev.wr (Reg.SPAD.REG.CTL.of 0 [22, 0]) 0x80000003).wr (Reg.SPAD.REG.LIMIT.of 0 [22, 0]) 0x1FFFF).core 0 8 (fun c => { c with
  dirty := Sparse.put 3 bs c.dirty })

theorem witness_CoreRetiresAndWritesBack_memory :
    (∀ w : Bool, coreMem.allow 0 30 0x100 8 w = some 0 ∧ coreMem.allow 0 30 0x800000 8 w = none ∧ coreMem.svcWaits 0 30 0x100 8 w = false) ∧
    (∃ p ∈ [0x100], ∃ a ∈ [0x80000100, 0x40000100, 0x20000100, 0x10000100], coreMem.place 0 7 a = .mem p) ∧
    (∀ i < 8, coreMem.region 0 30 0 (0x100 + i) = some (0x100 + i) ∧ coreMem.reachable 0 (0x100 + i) = true ∧ inSpad (0x100 + i) = true) ∧
    coreMem.getSec 0 [(0, [])] (fun y => y.ctl.dirty) = [] ∧
    (let d := (coreDev 7).slot 0 7 (fun y => { y with cur := some (ent 5 2 0 false) }); d.getSlot 0 7 none (fun y => y.cur) = some (ent 5 2 0 false)) ∧
    (at_ (ctlDev (List.replicate 64 9))).upIn 0 ∧ Sparse.find 3 ((ctlDev (List.replicate 64 9)).getCore 0 8).dirty = some (List.replicate 64 9) ∧
    (ctlDev []).allow 0 22 192 64 true = some 0 ∧ (∀ i < 64, (ctlDev []).region 0 22 0 (192 + i) = some (192 + i) ∧ (ctlDev []).reachable 0 (192 + i) = true) ∧
    ((ctlDev []).wr (Reg.SPAD.BANKSTAT.of 0) 0xAAAAAAAA).reachable 0 192 = false ∧ svcDev.allow 0 22 192 64 true = none := by decide +kernel

/-- A section with one probe in cluster 0, records of 15 + 1 rows in one slot, and a region of the capture engine's master. -/
def capDev : Dev := ((((((((((((inRun stLOADED).wr (Reg.SPAD.REG.CTL.of 0 [16, 0]) 0x80000003).wr (Reg.SPAD.REG.LIMIT.of 0 [16, 0]) 0x1FFFF).wb
  (Reg.CLUS.CLKCTL.of 0 [0]) 4 true).wr (Reg.CAPT.CFG.of 0) 1).wr (Reg.CAPT.PRE.of 0) 15).wr (Reg.CAPT.POST.of 0) 1).wr (Reg.CAPT.NSEG.of 0) 1).wr
  (Reg.CAPT.HBASE.of 0) 64).wr (Reg.SPAD.BANKSTAT.of 0) 0).wr (Reg.CAPT.ABASE.of 0) 128).wr (Reg.SNOC.STCTL.of 0) 0x80000000).wr (Reg.CAPT.ANB.of 0) 1

def armedCap : Dev := (capDev.wb (capStat 0) 5 true).wb (capStat 0) 6 true
def aRow (j : Nat) : CapRow := ⟨j, [(0, 5)], ⟨0, 0, 0⟩, 0, false⟩
def aTrig (post : Nat) : CapTrig := ⟨3, ⟨0, 0, 0⟩, 0, false, 0, 0, 0, false, [], post⟩
def postCap (post rows : Nat) : Dev := ((armedCap.wb (capStat 0) 6 false).wr (Reg.CAPT.POST.of 0) post).cap 0 (fun c => { c with
  ready := [aRow 4]
  trig := some (aTrig rows) })
def capItem (k : CapKind) (a : Nat) : CapItem := ⟨k, a, List.replicate 64 7, 0, 0, 3, false⟩
def writeCap (k : CapKind) (a : Nat) : Dev := capDev.cap 0 (fun c => { c with queue := [capItem k a] })
def holdCap (h : Nat) : Dev := late ((capDev.wb (capStat 0) 5 true).wr (Reg.CAPT.HOLDOFF.of 0) h) 100

theorem witness_CaptureControl :
    (at_ capDev).upIn 0 ∧ (inRun stLOADED).armErr 0 = 2 ∧ capDev.armErr 0 = 0 ∧ capDev.capActive 0 = false ∧ armedCap.armErr 0 = 1 ∧
    (let d := (capDev.wr (Reg.CAPT.CFG.of 0) 2).wr (Reg.CAPT.PROBE.of 0 [1]) 0; d.armErr 0 = 3) ∧ (capDev.wr (Reg.CAPT.POST.of 0) 0).armErr 0 = 4 ∧
    (capDev.wr (Reg.SPAD.REG.CTL.of 0 [16, 0]) 0).armErr 0 = 5 ∧
    armedCap.capActive 0 = true ∧ armedCap.capArmed 0 = true ∧ capDev.capArmed 0 = false ∧ armedCap.getCap 0 true (fun c => c.trig.isSome) = false ∧
    (postCap 1 0).getCap 0 none (fun c => c.trig) = some (aTrig 0) := by decide

/-- The branch that a source makes true in S0 when `src` enables it; ACT as given. -/
def seqCap (cond act : Nat) (force : Bool) : Dev := ((armedCap.wr (Reg.CAPT.SEQ.COND.of 0 [0, 0]) cond).wr (Reg.CAPT.SEQ.ACT.of 0 [0, 0]) act |>.wr
  (Reg.CAPT.POST.of 0) 2).cap 0 (fun c => { c with
    ready := [aRow 4]
    force := force })

def branchOf (d : Dev) : Option Nat :=
  let y := (d.cap 0 (fun c => { c with ready := [] })).decAll 0 (aRow 4).units
  y.1.capBranch 0 (y.1.capSources 0 (aRow 4) y.2)

theorem witness_CaptureControl_rows :
    (let d := capDev.cap 0 (fun c => { c with ready := [aRow 4] }); d.getCap 0 [] (fun c => c.ready) = [aRow 4] ∧ d.capActive 0 = false ∧
      d.fb (Reg.CAPT.ACTCTL.of 0) 31 = false ∧ d.getCap 0 true (fun c => c.queue.isEmpty) = true) ∧
    (∀ p ∈ [1, 2], let d := postCap p 0
      d.getCap 0 [] (fun c => c.ready) = [aRow 4] ∧ d.capActive 0 = true ∧ d.getCap 0 none (fun c => c.trig) = some (aTrig 0) ∧
      0 + d.rowStride 0 ≤ 65536 ∧ (0 + 1 = d.capPost 0) = (p = 1)) ∧
    (let d := (postCap 2 0).cap 0 (fun c => { c with queue := [⟨.row, 0x1000, List.replicate 65536 0, 0, 0, 0, false⟩] })
     ¬((d.getCap 0 [] (fun c => c.queue)).foldl (fun a i => if i.kind = .header then a else a + i.bytes.length) 0) + d.rowStride 0 ≤ 65536) ∧
    (let d := seqCap 0 0 true; d.capActive 0 = true ∧ d.capArmed 0 = true ∧ d.getCap 0 true (fun c => c.trig.isSome) = false ∧
      d.getCap 0 false (fun c => c.force) = true ∧ d.capPost 0 ≠ 1) ∧
    branchOf (seqCap 0 0 false) = none ∧ (seqCap 0 0 false).getCap 0 true (fun c => c.force) = false ∧
    (∀ a ∈ [0x20, 0xC5], branchOf (seqCap 0x83FFFFFF a false) = some 0 ∧
      ((seqCap 0x83FFFFFF a false).rd (Reg.CAPT.SEQ.ACT.of 0 [0, 0])).testBit 5 = (a == 0x20)) ∧
    (let d := (seqCap 0 0 false).wb (capStat 0) 6 false; d.capArmed 0 = false ∧ d.getCap 0 true (fun c => c.trig.isSome) = false) ∧
    (∀ h ∈ [100, 0x80000000], (holdCap h).capActive 0 = true ∧ (holdCap h).capArmed 0 = false ∧ (holdCap h).fb (capStat 0) 7 = false ∧
      ((h.testBit 31 = true ∧ bits h 25 0 ≤ (holdCap h).getCap 0 0 (fun c => c.holdRows)) ∨
       (h.testBit 31 = false ∧ (holdCap h).getCap 0 0 (fun c => c.closeT) + bits h 25 0 ≤ (holdCap h).clk + 0))) := by decide +kernel

/-- What the write path meets at its front item. -/
def linesOf (d : Dev) (i : CapItem) : Option Nat := (d.capLines 0 (chunks 64 (i.bytes.length / 64 + 1) i.bytes).zipIdx i.addr).2

theorem witness_CaptureWrites :
    (let i := capItem .header 0x1000
     let d := writeCap .header 0x1000
     d.getCap 0 [] (fun c => c.queue) = [i] ∧ d.itemWaits 0 i = false ∧ linesOf d i = none ∧ i.bytes.length = 64 ∧ (∀ b ∈ i.bytes, b < 256) ∧
     d.allow 0 16 0x1000 64 true = some 0 ∧ (∀ k < 64, d.region 0 16 0 (0x1000 + k) = some (0x1000 + k) ∧ d.reachable 0 (0x1000 + k) = true) ∧
     d.getSec 0 [(0, [])] (fun x => x.ctl.dirty) = []) ∧
    (∀ k ∈ [CapKind.header, .row, .block], let i := capItem k 0x800000
     let d := writeCap k 0x800000
     d.getCap 0 [] (fun c => c.queue) = [i] ∧ d.itemWaits 0 i = false ∧ linesOf d i = some 0x20000 ∧ d.fb (capStat 0) 7 = false) ∧
    (let d := ((writeCap .row 0x800000).wb (capStat 0) 7 true).cap 0 (fun c => { c with trig := some (aTrig 0) })
     d.fb (capStat 0) 7 = true ∧ d.getCap 0 false (fun c => c.trig.isSome) = true) ∧
    capDev.fb (Reg.CAPT.ACTCTL.of 0) 31 = false ∧ (0x04000400#32).toNat.testBit 31 = false ∧ (0x84000401#32).toNat.testBit 31 = true ∧
    capDev.nProbe 0 < bits (0x84000401#32).toNat 8 0 + bits (0x84000401#32).toNat 19 10 ∧
    (let w := (0x84000400#32).toNat &&& 0x9FFFFDFF
     ¬bits w 28 24 < 4 ∧ ¬16 < bits w 28 24 ∧ bits w 19 10 = 1 ∧ ¬capDev.nProbe 0 < bits w 8 0 + 1 ∧ capDev.covered 0 9 8192 (8192 + 1 * (64 + 64) - 1) = true ∧
     64 * capDev.rd (Reg.CAPT.ABASE.of 0) = 8192) ∧
    (let d := capDev.wr (Reg.CAPT.ACTCTL.of 0) 0x84000400
     d.fb (Reg.CAPT.ACTCTL.of 0) 31 = true ∧ (0x04000400#32).toNat &&& 0x9FFFFDFF = d.rd (Reg.CAPT.ACTCTL.of 0) % 2 ^ 31) := by decide +kernel

def extDev : Dev := (((inRun stLOADED).wr (Reg.CAPT.EXTSEL.of 0) 0x000F000F).wr (Reg.SCTL.STRIG.of 0) 15).run 0 (fun r => { r with armed := some .onTrigger })

theorem witness_TriggerEdgeReaches :
    (at_ extDev).up ∧ (15 : Fin 24).val < 16 ∧ extDev.trgDriven 15 = false ∧ extDev.trgIn 15 ≠ true ∧
    extDev.fd (Reg.CAPT.EXTSEL.of 0) 4 0 = 15 ∧ extDev.fb (Reg.CAPT.EXTSEL.of 0) 7 ≠ true ∧
    extDev.fd (Reg.CAPT.EXTSEL.of 0) 20 16 = 15 ∧ extDev.fb (Reg.CAPT.EXTSEL.of 0) 23 ≠ true ∧
    extDev.fd (Reg.SCTL.STRIG.of 0) 4 0 = 15 ∧ extDev.fb (Reg.SCTL.STRIG.of 0) 8 ≠ true ∧
    extDev.getSec 0 none (fun y => y.run.armed) = some .onTrigger ∧ extDev.trgIn 15 = false ∧
    ((extDev.wb (Reg.TRG.PIN.hubAt [15]) 8 true).wf bootStat 31 28 5).trgDriven 15 = true ∧ 16 ≤ (23 : Fin 24).val := by decide

def timeDev (due : Option Bool) : Dev := (((base.setStage 7).wr64 Reg.TIME.INC 8 [] 0x4_0000_0001).wr
  Reg.TIME.SETL.hubAt 9).timg (fun t => { t with setDue := due })

theorem witness_TickMovesTime :
    (∀ due ∈ [none, some false, some true], let d := timeDev due
      (at_ d).up ∧ d.tim.switchDue = false ∧ d.tim.servo = false ∧ d.tim.stepDue = none ∧ d.tim.setDue = due ∧ 7 ≤ d.stage ∧ d.role = 0) ∧
    (let d := (timeDev none).timg (fun t => { t with
      stepDue := some (1, -5)
      switchDue := true })
     (at_ d).up ∧ d.tim.setDue = none ∧ d.tim.stepDue = some (1, -5) ∧ d.tim.switchDue = true) := by decide

/-- An alarm at TGT 7; a domain A whose holdover time runs out at clock 1000, AUTOSW set and domain B locked or not. -/
def alarmDev (past hit : Bool) : Dev := base.timg (fun t => { t with alarms := [(3, ⟨7, past, hit⟩)] })
def oldDev (sw : Bool) : Dev := late (((base.wr (domLoc Reg.TIME.D.LOCK 0) 0x10000).wb (domLoc Reg.TIME.D.STAT 0) 31 true).when sw (fun d =>
  (d.wb Reg.TIME.CTL.hubAt 8 true).wb (domLoc Reg.TIME.D.STAT 1) 31 true)) 1000

/-- TIME at NS ns; a measurement at MNS 0 that shows an offset of 2^(k - 16) ns, STEPTH 1 ns, LOCKTH of 2^29 units. -/
def measDev (ns : Nat) (servo : Bool) : Dev := { ((base.wr (domLoc Reg.TIME.D.STEPTH 0) 1).wr (domLoc Reg.TIME.D.LOCK 0) 1).timg (fun t => { t with
  servo := servo }) with time := ⟨0, ns, 0⟩ }

theorem witness_TimeEngineCommands :
    (at_ base).hubUp ∧ (base.wf (domLoc Reg.TIME.D.CFG 0) 31 30 1).fd (domLoc Reg.TIME.D.CFG 0) 31 30 = 1 ∧ base.fd (domLoc Reg.TIME.D.CFG 0) 31 30 ≠ 1 ∧
    (measDev 1048576 true).nsDiff 0 = -1048576 ∧ (measDev 1048577 true).nsDiff 0 < -1048576 ∧ 0 < (measDev 0 true).nsDiff 1 ∧
    (∀ hi ∈ [0, 1, 2, 0x10000], let e := wrap80 (sext 64 (hi * 2 ^ 32) * 65536 - (measDev 0 true).ofsAt 0 0)
      let far := (measDev 0 true).rd (domLoc Reg.TIME.D.STEPTH 0) ≠ 0 ∧ (measDev 0 true).rd (domLoc Reg.TIME.D.STEPTH 0) * 2 ^ 32 < e.natAbs
      (far ↔ hi ≠ 0) ∧ (e.natAbs ≤ (measDev 0 true).fd (domLoc Reg.TIME.D.LOCK 0) 15 0 * 2 ^ 29 ↔ hi = 0)) ∧
    (let d := (measDev 0 true).wr (domLoc Reg.TIME.D.STEPTH 0) 0; d.rd (domLoc Reg.TIME.D.STEPTH 0) = 0) ∧
    (∀ b : Bool, (measDev 0 b).tim.servo = b ∧ (measDev 0 b).tim.sel = 0) ∧
    (∀ past hit : Bool, Sparse.find 3 (alarmDev past hit).tim.alarms = some ⟨7, past, hit⟩) ∧ Sparse.find 3 base.tim.alarms = none ∧
    (∀ sw : Bool, (oldDev sw).fd (domLoc Reg.TIME.D.LOCK 0) 31 16 = 1 ∧ ((oldDev sw).getDom 0).lastT + 1000 * 1 ≤ (oldDev sw).clk ∧
      (oldDev sw).fb (domLoc Reg.TIME.D.STAT 0) 30 = false ∧ (oldDev sw).tim.sel = 0 ∧
      ((oldDev sw).fb Reg.TIME.CTL.hubAt 8 && (oldDev sw).fb (domLoc Reg.TIME.D.STAT 1) 31) = sw) := by decide

def genDev : Dev := ((base.wr (Reg.PG.WIDTH.hubAt [7]) 4).wr (Reg.PG.PERNS.hubAt [7]) 8).wr (Reg.PG.CTL.hubAt [7]) 0xC0000100
/-- Generator 7 with the state p. -/
def genAt (p : PgSt) : Dev := genDev.pg 7 (fun _ => p)

theorem witness_PulseGenerators :
    (at_ genDev).hubUp ∧ (genDev.wb (Reg.PG.CTL.hubAt [7]) 31 false).fb (Reg.PG.CTL.hubAt [7]) 31 = false ∧ genDev.fb (Reg.PG.CTL.hubAt [7]) 31 = true ∧
    (let width := genDev.rd (Reg.PG.WIDTH.hubAt [7]) * 2 ^ 32
     let period := genDev.rd (Reg.PG.PERF.hubAt [7]) + genDev.rd (Reg.PG.PERNS.hubAt [7]) * 2 ^ 32
     2 ^ 34 ≤ width ∧ 2 ^ 35 ≤ period ∧ width < period ∧ ¬2 ^ 34 ≤ (genDev.wr (Reg.PG.WIDTH.hubAt [7]) 3).rd (Reg.PG.WIDTH.hubAt [7]) * 2 ^ 32) ∧
    (let now := (genDev.stampAt 3).num % 2 ^ 80
     let reached := fun (t : Nat) => 0 ≤ sext 80 ((now + 2 ^ 80 - t) % 2 ^ 80)
     (now = 3 * 2 ^ 32 ∨ reached 0) ∧ reached 0 ∧ ¬reached (2 ^ 40) ∧
     (genAt ⟨some 2, 3, some 0, false, false⟩).getPg 7 = ⟨some 2, 3, some 0, false, false⟩ ∧
     (genAt ⟨none, 3, some 0, false, false⟩).getPg 7 = ⟨none, 3, some 0, false, false⟩ ∧
     (genAt ⟨some 0, 0, none, true, true⟩).getPg 7 = ⟨some 0, 0, none, true, true⟩ ∧
     (genAt ⟨none, 0, some (2 ^ 40), false, false⟩).getPg 7 = ⟨none, 0, some (2 ^ 40), false, false⟩) ∧
    genDev.fb (Reg.PG.CTL.hubAt [7]) 30 = true ∧ genDev.rd (Reg.PG.COUNT.hubAt [7]) = 0 ∧
    (genDev.wr (Reg.PG.COUNT.hubAt [7]) 4).rd (Reg.PG.COUNT.hubAt [7]) ≤ 3 + 1 ∧ genDev.fb (Reg.PG.CTL.hubAt [7]) (8 + 0) = true ∧
    (∀ h < 7, ¬(genDev.fb (Reg.PG.CTL.hubAt [h]) 31 = true)) := by decide

/-- Port 1 carries frames, firmware runs PTP on it in domain 5 for time domain B, master-capable; n records of stamps; the state of the port. -/
def ethDev (n : Nat) (p : PtpSt) : Dev := { ((base.wr (Reg.ETH.CTL.hubAt [1]) 0x80000001).wr (Reg.ETH.STAT.hubAt [1]) 1).timg (fun t => { t with
  stamps := vmod t.stamps 1 (fun _ => List.replicate n ⟨5, ⟨1, 2, 3⟩⟩)
  ptp := vmod t.ptp 1 (fun _ => p) }) with boot := { base.boot with
    booted := some { booted with syscfg := List.replicate 88 0 ++ [0x15, 6, 0, 0] } } }

/-- Lane 255, a bundle of its own in state st, with LORD of its quad in order and the class TIM in a role. -/
def laneDev (st role : Nat) : Dev :=
  ((((((base.wr (laneLoc Reg.LANE.EQTX 255) 0x30000000).wr (laneLoc Reg.LANE.EQTX 254) 0x20000000).wr (laneLoc Reg.LANE.EQTX 253) 0x10000000).setLaneState
    255 st).wb (qctl 255) 31 true).wf (laneLoc Reg.LANE.CTL 255) 26 25 role).bundle 255 (fun b => { b with classes := 0b111111 })

/-- Domain B on lane 255 by OXL, its DREQ 7 of clock 0 outstanding where a flit of function f waits. -/
def timDev (role : Nat) (f : Nat) : Dev := (((laneDev lnACTIVE role).wr (domLoc Reg.TIME.D.CFG 1) 0x4003FC00).dom 1 (fun x => { x with
  outst := if f = 0 then none else some (7, ⟨0, 0, 0⟩, 0) })).lane 255 (fun x => { x with
    ctl := if f = 0 then [] else [mkFlit 25 0 (f * 2 ^ 236 + 7 * 2 ^ 220)] })

/-- Lane 255 in state st with flit f waiting. -/
def ctlDevAt (st : Nat) (f : BitVec 256) : Dev := (laneDev st 0).lane 255 (fun x => { x with ctl := [f] })

/-- Lane l is ACTIVE in a TIM role of its bundle. -/
def inRole (d : Dev) (l r : Nat) : Bool := decide (d.laneState l = lnACTIVE) && decide (d.fd (laneLoc Reg.LANE.CTL l) 26 25 = r) &&
  (d.getBundle (d.bundleKey l)).classes.testBit (4 - r)

theorem witness_TimeStampsAndExchanges :
    (∀ n ∈ [63, 64], let d := ethDev n ⟨false, some 0⟩
      (at_ d).up ∧ d.ethUp 1 = true ∧ (vget d.tim.stamps 1 []).length = n ∧ d.inSafe = false ∧ bits (d.ptpWord 1) 1 0 = 1 ∧ bits (d.ptpWord 1) 8 2 = 5 ∧
      (d.ptpWord 1).testBit 9 = true ∧ bits (d.ptpWord 1) 10 10 = 1) ∧
    base.ethUp 1 = false ∧ bits (base.ptpWord 1) 1 0 = 0 ∧
    (let d := ethDev 1 ⟨false, some 0⟩
     (d.getPtp 1).master = false ∧ (d.getPtp 1).sync = some 0 ∧ d.fd (domLoc Reg.TIME.D.CFG 1) 31 30 ≠ 1 ∧ -1048576 ≤ d.nsDiff 0 ∧
     vget d.tim.stamps 1 [] = ⟨5, ⟨1, 2, 3⟩⟩ :: []) ∧ vget base.tim.stamps 1 [] = [] ∧
    (let d := timDev 1 0
     d.fd (domLoc Reg.TIME.D.CFG 1) 31 30 = 1 ∧ 4 * d.fd (domLoc Reg.TIME.D.CFG 1) 17 12 + d.fd (domLoc Reg.TIME.D.CFG 1) 11 10 = 255 ∧
     inRole d 255 1 = true ∧ (d.getDom 1).outst = none ∧ (d.getDom 0).outst = none ∧ (d.getDom 1).reqT ≠ some (d.reqBoundary 1)) ∧
    (∀ r ∈ [1, 2], let f : BitVec 256 := mkFlit 25 0 (1 * 2 ^ 236 + 7 * 2 ^ 220)
      ((timDev r 1).getLane 255).ctl = f :: [] ∧ bits f.toNat 255 250 = 25 ∧ bits f.toNat 239 236 = 1 ∧
      inRole ((timDev r 1).popCtl 255) 255 2 = (r == 2)) ∧
    ((ctlDevAt lnACTIVE (mkFlit 24 0 0)).getLane 255).ctl = mkFlit 24 0 0 :: [] ∧ bits (mkFlit 24 0 0).toNat 255 250 ≠ 25 ∧
    (∀ c ∈ [99999, 100000], let f : BitVec 256 := mkFlit 25 0 (2 * 2 ^ 236 + 7 * 2 ^ 220)
      let d := (late (timDev 1 2) c).popCtl 255
      ((late (timDev 1 2) c).clk < 0 + 100000 ↔ c = 99999) ∧ ((late (timDev 1 2) c).getLane 255).ctl = f :: [] ∧ bits f.toNat 255 250 = 25 ∧
      bits f.toNat 239 236 = 2 ∧ d.laneDom 255 = some 1 ∧ (d.getDom 1).outst = some (bits f.toNat 235 220, ⟨0, 0, 0⟩, 0) ∧ inRole d 255 1 = true ∧
      (d.getDom 1).missT = none ∧ -1048576 ≤ (late (timDev 1 2) c).nsDiff (d.rxStamp 255 0).ns) ∧
    (timDev 0 2).laneDom 254 = none ∧
    (let d := late (timDev 1 2) 200000
     (d.dom 1 (fun x => { x with missT := some 100000 })).getDom 1 = { d.getDom 1 with missT := some 100000 } ∧ 0 + 100000 ≤ d.clk ∧
     ¬100000 + 1000000 ≤ d.clk) := by decide +kernel

/-- Whether LORD of the quad of lane 255 is a permutation, and the sum of its taps. -/
def lord255 (d : Dev) : Bool := (List.range 4).all (fun v => (List.range 4).any (fun i => d.fd (laneLoc Reg.LANE.EQTX (252 + i)) 29 28 == v))
def taps255 (d : Dev) : Nat := let e := laneLoc Reg.LANE.EQTX 255; d.fd e 20 16 + d.fd e 13 8 + d.fd e 4 0

theorem witness_LaneTraining :
    (at_ (laneDev lnDISABLED 0)).up ∧ (laneDev lnDISABLED 0).inSafe = false ∧ (laneDev lnDISABLED 0).laneLive 255 = true ∧ base.laneLive 255 = false ∧
    (∀ st ∈ [lnDISABLED, lnCDR, lnCOMMA, lnFEC, lnCAPS, lnCREDIT, lnACTIVE, lnTEST, lnNEGFAIL], (laneDev st 0).laneState 255 = st) ∧
    lord255 (laneDev lnDISABLED 0) = true ∧ lord255 ((laneDev lnDISABLED 0).wr (laneLoc Reg.LANE.EQTX 255) 0) = false ∧
    taps255 (laneDev lnDISABLED 0) ≤ 63 ∧ ¬taps255 ((laneDev lnDISABLED 0).wf (laneLoc Reg.LANE.EQTX 255) 20 0 0x1F2001) ≤ 63 ∧
    taps255 ((laneDev lnDISABLED 0).wf (laneLoc Reg.LANE.EQTX 255) 20 0 0x1F2000) = 63 ∧
    (∀ b : Bool, let d := laneDev (if b then lnACTIVE else lnDISABLED) 0; d.bundleActive (d.bundleKey 255) = b ∧ d.bundleLanes 255 = [255]) ∧
    (∀ e ∈ [0, 0x1F], let w : BitVec 40 := 0xFC0FC0F03F#40 ^^^ BitVec.ofNat 40 e; popCount 40 (w.toNat ^^^ 0xFC0FC0F03F) ≤ 4 ↔ e = 0) ∧
    (∀ n ∈ [0, 1, 2, 3], (((laneDev lnCOMMA 0).lane 255 (fun x => { x with commaRun := n })).getLane 255).commaRun = n) ∧
    (∀ n ∈ [7, 8, 31, 32], let d := (laneDev lnFEC 0).lane 255 (fun x => { x with
        goodRun := n
        badRun := n })
      (d.getLane 255).goodRun = n ∧ (d.getLane 255).badRun = n ∧ d.laneState 255 = lnFEC) ∧
    (let d := late ((laneDev lnCAPS 0).lane 255 (fun x => { x with
      trainT := some 0
      failT := some 90000000 })) 100000000
     (d.getLane 255).trainT = some 0 ∧ 0 + 100000000 ≤ d.clk ∧ d.laneState 255 ≠ lnACTIVE ∧ d.laneAuto 255 = false ∧
     (let d := d.wb (laneLoc Reg.LANE.CTL 255) 22 true
      d.laneAuto 255 = true ∧ (d.getLane 255).failT = some 90000000 ∧ 90000000 + 10000000 ≤ d.clk)) ∧
    ((laneDev lnCAPS 0).getLane 255).trainT = none ∧ ((laneDev lnCAPS 0).getLane 255).failT = none := by decide +kernel

theorem witness_BundleGoesDown : (255 < 256 ∧ 15 < 16) ∧ (∀ st ∈ [lnDISABLED, lnTEST, lnNEGFAIL, lnCREDIT], (laneDev st 0).bundleLanes 255 = [255] ∧
    (laneDev st 0).laneState 255 = st ∧ 254 ∉ (laneDev st 0).bundleLanes 255) ∧
    (laneDev lnCREDIT 0).laneAuto 255 = false ∧ ((laneDev lnCREDIT 0).wb (laneLoc Reg.LANE.CTL 255) 22 true).laneAuto 255 = true := by decide +kernel

/-- A LINK flit with grants for channels, and a lane whose peer has told its TLVs, width w among them. -/
def linkFlit (cs : List Nat) : BitVec 256 := mkFlit 0 0 (2 ^ 236 + cs.zipIdx.foldl (fun a p => a + (2 ^ 23 + p.1 * 2 ^ 17 + 4095) * 2 ^ (24 * p.2)) 0)
def tlvDev (w told : Nat) : Dev := (laneDev lnCAPS 0).lane 255 (fun x => { x with
  tlv := [1, 2, 1, 2, 2, 1, 0x33, 3, 2, w, 0, 0]
  tlvSent := told })
/-- Lane 255 with section 7 LOADED, outbound queue 16 bound to channel 1 of its bundle, with credit, and inbound queue 32 to channel 16. -/
def boundDev (st : Nat) : Dev := ((((laneDev st 0).wf (sctlState 7) 2 0 stLOADED).wr (Reg.LINKQ.MAP.of 7 [0]) 0x80001F00).wr (Reg.LINKQ.MAP.of 7 [16])
  0x80001F0F).bundle 255 (fun b => { b with credit := [(1, 20)] })
def grantsOf (f : BitVec 256) : List Nat := ((List.range 9).map (fun i => bits f.toNat (24 * i + 23) (24 * i))).filter (fun e => e.testBit 23)

theorem witness_ControlFlits :
    (∀ k < 4, let f : BitVec 256 := mkFlit 0 0 (k * 2 ^ 236 + 2 ^ 235 + 5 * 2 ^ 225)
      ((ctlDevAt lnCAPS f).getLane 255).ctl = f :: [] ∧ bits f.toNat 255 250 = 0 ∧ bits f.toNat 239 236 = k ∧ f.toNat.testBit 235 = true ∧
      bits f.toNat 234 225 = 5) ∧
    (∀ b : Bool, (∀ m ∈ (boundDev (if b then lnCREDIT else lnCAPS)).bundleLanes 255, (boundDev (if b then lnCREDIT else lnCAPS)).laneState m = lnCREDIT) ↔
      b = true) ∧
    grantsOf (linkFlit []) = [] ∧ (grantsOf (linkFlit [1, 26])).map (fun e => (bits e 22 17, bits e 11 0)) = [(1, 4095), (26, 4095)] ∧
    (boundDev lnCREDIT).boundChans outQueues 255 = [1] ∧ (Sparse.find 1 ((boundDev lnCREDIT).getBundle 255).credit).isSome = true ∧
    (∀ w < 2, let d := tlvDev w 18
      d.bundleLanes 255 = [255] ∧ d.laneState 255 = lnCAPS ∧ (d.ownTlvs 255).length ≤ (d.getLane 255).tlvSent ∧
      readTlvs 512 (d.getLane 255).tlv = some [(1, [1, 2]), (2, [0x33]), (3, [w, 0])] ∧ d.fd (laneLoc Reg.LANE.CTL 255) 24 23 = 0 ∧ d.bundleLane 255 = 0) ∧
    ¬((tlvDev 0 17).ownTlvs 255).length ≤ ((tlvDev 0 17).getLane 255).tlvSent := by decide +kernel

theorem hopCrc_lt (a : Nat) : hopCrc a < 2 ^ 16 := by
  have h : ∀ (l : List Nat) (c : Nat), c < 2 ^ 16 → l.foldl (fun c i => crcBitF 16 0x8BB7 c (a.testBit (areaLen - 1 - i))) c < 2 ^ 16 := by
    intro l
    induction l with
    | nil => exact fun c h => h
    | cons x l ih => exact fun c h => ih _ (by show (if _ then _ else _) < _; split; exact Nat.xor_lt_two_pow (Nat.mod_lt _ (by decide)) (by decide); exact Nat.mod_lt _ (by decide))
  exact h _ _ (by decide)


theorem witness_FlitsAndFrames_good (a : Nat) : hopCrc a = (BitVec.ofNat 16 (hopCrc a)).toNat := by
  rw [BitVec.toNat_ofNat, Nat.mod_eq_of_lt (hopCrc_lt a)]

/-- An area whose first flit is f, and a state of lane 255 beside the one `laneDev` gives. -/
def areaOf (f : BitVec 256) : Nat := f.toNat * 2 ^ (20544 - 256)
def nakDev (n : Nat) : Dev := late ((laneDev lnACTIVE 0).lane 255 (fun x => { x with
  dropping := true
  naks := n })) 4000
def seqDev (c : Nat) (p : Nat) (st : Nat) : Dev := (boundDev st).lane 255 (fun x => { x with seqd := [mkFlit c 0 p] })
/-- A SVC flit that ends a packet of the one word 5. -/
def svcFlit : Nat := 2 ^ 239 + 2 ^ 233 + crcEnd (crcWord crcStart 5) * 2 ^ 196 + 5

theorem witness_FlitsAndFrames :
    (∀ st ∈ [lnCDR, lnFEC, lnCREDIT, lnACTIVE], (laneDev st 0).laneState 255 = st) ∧
    (∀ m ∈ [0, 1, 2], let d := ((laneDev lnTEST 0).wf (laneLoc Reg.LANE.CTL 255) 29 28 m).lane 255 (fun x => { x with txFrame := some 7 })
      d.laneState 255 = lnTEST ∧ d.fd (laneLoc Reg.LANE.CTL 255) 29 28 = m ∧ (d.getLane 255).txFrame.isSome = true) ∧
    (∀ q ∈ [0, 1023], let seqs := (frameFlits 0 0 (areaOf (mkFlit 37 q 0))).filter (fun g => decide (1 ≤ flitChan g ∧ flitChan g ≤ 37 ∧ flitChan g ≠ 25))
      seqs = [mkFlit 37 q 0] ∧ (flitSeq (mkFlit 37 q 0) = ((laneDev lnACTIVE 0).getLane 255).rxSeq ↔ q = 0)) ∧
    popCount 4 (0#4).toNat = 0 ∧ popCount 4 (15#4).toNat = 4 ∧ ((laneDev lnACTIVE 0).getLane 255).dropping = false ∧
    (∀ n ∈ [1, 15, 16], ((nakDev n).getLane 255).dropping = true ∧ ((nakDev n).getLane 255).nakDue = false ∧ ((nakDev n).getLane 255).naks = n ∧
      ((nakDev n).getLane 255).nakT + 4000 ≤ (nakDev n).clk) := by decide +kernel

theorem witness_FlitsAndFrames_taken :
    (∀ c ∈ [15, 16, 26], let d := seqDev c (if c = 26 then svcFlit else 2 ^ 239 + 2 ^ 233 + 5) lnACTIVE
      let f := mkFlit c 0 (if c = 26 then svcFlit else 2 ^ 239 + 2 ^ 233 + 5)
      let v := f.toNat
      d.bundleKey 255 = 255 ∧ (d.getBundle 255).rxTurn % d.width 255 = d.bundleLane 255 ∧ (d.getLane 255).seqd = f :: [] ∧ flitChan f = c ∧
      chanUsed (d.getBundle 255).classes c = true ∧ (isFab c || isStr c) = decide (c < 26) ∧
      d.boundQueue inQueues 255 c = (if c = 16 then some 32 else none) ∧ d.runState 7 ≠ stOFF ∧ d.secondary = false ∧
      bits v 237 233 = 1 ∧ v.testBit 239 = true ∧ bits v 232 228 = 0 ∧ bits v 195 192 = 0 ∧ v.testBit 238 = false ∧
      (let y := d.getQ 7 32 Queue.start id; 1 ≤ y.free ∧ y.openLen + 1 < 1024 ∧ y.chain = []) ∧
      (c = 26 → (d.getBundle 255).inBad.contains c = false ∧ Sparse.get (fun _ => []) (d.getBundle 255).inOpen c = [] ∧
        bits v 227 196 = crcEnd ([5].foldl crcWord crcStart))) ∧
    chanUsed (((laneDev lnACTIVE 0).bundle 255 (fun b => { b with classes := 0 })).getBundle 255).classes 1 = false := by decide +kernel

/-- Lane 255 to send: a packet of the word 5 waits in queue 16. -/
def outDev (st : Nat) : Dev := (boundDev st).queue 7 16 (fun q => { q with
  mode := 0
  drain := [qw 5 true] })

theorem witness_FlitsAndFrames_sent :
    (∀ st ∈ [lnDISABLED, lnCDR, lnCAPS, lnCREDIT, lnACTIVE], let d := outDev st
      d.laneState 255 = st ∧ (d.getBundle 255).cutting = [] ∧ (d.getLane 255).inject = 0 ∧ d.fd (laneLoc Reg.LANE.INJ 255) 31 30 ≠ 3) ∧
    ((tlvDev 0 0).ownTlvs 255).drop 0 ≠ [] ∧ ((tlvDev 0 18).ownTlvs 255).drop 18 = [] ∧ (∀ v ∈ (tlvDev 0 0).ownTlvs 255, v < 256) ∧
    (let d := (outDev lnACTIVE).lane 255 (fun x => { x with
      nakDue := true
      timOut := [2 * 2 ^ 236]
      again := some 1023
      replay := [(1022, 0), (1023, mkFlit 1 1023 0), (0, 0)] })
     (d.getLane 255).nakDue = true ∧ (d.getLane 255).timOut = 2 * 2 ^ 236 :: [] ∧
     (d.getLane 255).again.bind (fun e => (d.getLane 255).replay.findIdx? (fun r => r.1 == e)) = some 1 ∧ d.mayTransmit 1 = true ∧
     (d.twn (fun t => { t with stopped := true })).mayTransmit 1 = false) ∧
    ((outDev lnCREDIT).getBundle 255).initGrant = false ∧ ((outDev lnACTIVE).getLane 255).waitT = none ∧ ((outDev lnACTIVE).getLane 255).unacked = 0 ∧
    (let d := outDev lnACTIVE
     let b := d.getBundle 255
     let pick := fun (d : Dev) => (d.chanOrder 255).find? (fun c => d.mayTransmit c && chanUsed b.classes c && (match d.outWords 255 c with
       | some w => flitSize w.2.1.length (Sparse.get (fun _ => 0) b.credit c) w.2.2.1 != 0
       | none => false))
     b.txTurn % d.width 255 = d.bundleLane 255 ∧ (d.getLane 255).replay.length < 512 ∧ (d.getLane 255).txSeq < 1024 ∧ isFab 1 = true ∧
     pick d = some 1 ∧ (d.outWords 255 1).map (fun w => (w.2.1, w.2.2.1)) = some ([5], true) ∧ pick (boundDev lnACTIVE) = none) := by decide +kernel

theorem witness_LaneTests :
    (at_ (laneDev lnDISABLED 0)).up ∧ (laneDev lnDISABLED 0).inSafe = false ∧ (laneDev lnDISABLED 0).quadOff 255 = true ∧ (laneDev lnACTIVE 0).quadOff 255 = false ∧
    (∀ st ∈ [lnDISABLED, lnCOMMA, lnACTIVE, lnTEST], (laneDev st 0).laneState 255 = st) ∧
    (∀ m < 4, ((laneDev lnTEST 0).wf (laneLoc Reg.LANE.CTL 255) 29 28 m).fd (laneLoc Reg.LANE.CTL 255) 29 28 = m) ∧
    (∀ b : Bool, let d := (laneDev lnTEST 0).wb (laneLoc Reg.LANE.CTL 255) 27 b
      d.fb (laneLoc Reg.LANE.CTL 255) 27 = b ∧ d.laneAuto 255 = false ∧ (d.wb (laneLoc Reg.LANE.CTL 255) 22 true).laneAuto 255 = true) ∧
    (∀ m < 4, let d := base.wf (laneLoc Reg.LANE.INJ 255) 31 30 m; d.fd (laneLoc Reg.LANE.INJ 255) 31 30 = m) ∧
    (laneDev lnCOMMA 0).fb (laneLoc Reg.LANE.ESCTL 255) 30 = false ∧ lnCOMMA ≤ (laneDev lnCOMMA 0).laneState 255 ∧
    (base.wb (laneLoc Reg.LANE.ESCTL 255) 30 true).fb (laneLoc Reg.LANE.ESCTL 255) 30 = true ∧
    (∀ i < 4, (laneDev lnTEST 0).laneState (4 * 63 + i) = lnDISABLED ∨ (laneDev lnTEST 0).laneState (4 * 63 + i) = lnTEST) ∧
    (4 * 63 + 3 ∈ (laneDev lnACTIVE 0).bundleLanes (4 * 63 + 3)) ∧ ((laneDev lnTEST 0).getBundle 255).cutting = [] ∧
    (∀ g : Bool, let d := (((laneDev lnTEST 0).wb (laneLoc Reg.LANE.CTL 255) 27 true).wb (laneLoc Reg.LANE.PRBSCTL 255) 31 g)
      d.fb (laneLoc Reg.LANE.CTL 255) 27 = true ∧ d.fb (laneLoc Reg.LANE.PRBSCTL 255) 31 = g) ∧
    (∀ n ∈ [6, 7], let d := ((laneDev lnTEST 0).wb (laneLoc Reg.LANE.PRBSCTL 255) 30 true).lane 255 (fun x => { x with
        prbsLen := 63
        prbsSeen := n })
      d.laneState 255 = lnTEST ∧ d.fb (laneLoc Reg.LANE.PRBSCTL 255) 30 = true ∧ (prbsPoly (d.fd (laneLoc Reg.LANE.PRBSCTL 255) 2 0)).1 = 7 ∧
      (d.getLane 255).prbsSeen = n ∧ 64 ≤ (d.getLane 255).prbsLen + 1 ∧
      d.fb (laneLoc Reg.LANE.STAT 255) 0 = false ∧ (d.wb (laneLoc Reg.LANE.STAT 255) 0 true).fb (laneLoc Reg.LANE.STAT 255) 0 = true) := by decide +kernel

/-- A device in a role, stage 4, node 0, with lane 255 an ACTIVE bundle of its own that holds a service packet of a type. -/
def sysDev (role type : Nat) (ws : List Nat) : Dev := (((laneDev lnACTIVE 0).wf Reg.SYS.CFG.hubAt 31 30 role).setStage 4).bundle 255 (fun b => { b with
  inPkts := [⟨26 + svcVc type, [0, 5 * 32, 0, type] ++ ws, 0, false, none⟩] })
def comesAt (d : Dev) (type : Nat) : Bool := match (d.getBundle 255).inPkts.find? (fun x => x.chan == 26 + svcVc type) with
  | some p => !p.poison && decide (4 ≤ p.words.length) && p.words.getD 3 0 == type && (decide (2 ≤ svcVc type) || p.words.getD 0 0 / 32 == d.nodeNo)
  | none => false
def aNode (lost : Bool) : Node := ⟨1, false, false, 2, 0, 255, lost⟩

theorem witness_SystemsOfDevices :
    (at_ (sysDev 2 1 [])).up ∧ (∀ c < 4, (base.getBundle 255).inPkts.find? (fun x => x.chan == 26 + c) = none) ∧
    (∀ t ∈ [1, 2, 3, 4, 5, 6], ∀ r < 4, comesAt (sysDev r t (List.replicate 16 0)) t = true ∧ (sysDev r t []).role = r) ∧
    (let d := sysDev 2 2 [1, 0, 0, 0, 0, 0, 6, 9]
     ofWords12 [1, 0, 0, 0, 0, 0] = 1 ∧ d.sys.manager = none ∧ d.sys.parent = none ∧ d.secondary = false ∧ d.sys.seen = 0) ∧
    (let d := (sysDev 2 2 [1, 0, 0, 0, 0, 0, 6, 9]).sysg (fun x => { x with
       manager := some 1
       parent := some 3
       parentDepth := 7 })
     d.sys.manager = some 1 ∧ d.sys.parent = some 3 ∧ d.clk ≤ d.sys.parentT + 1000000 ∧ 6 < d.sys.parentDepth) ∧
    (∀ l : Bool, let d := (sysDev 1 3 (words12 6 1 ++ [5, 0])).sysg (fun x => { x with registry := [(5, aNode l)] })
      Sparse.find 5 d.sys.registry = some (aNode l) ∧ (aNode l).serial = 1 ∧ ofWords12 (words12 6 2) ≠ 1) ∧ Sparse.find 5 base.sys.registry = none := by decide +kernel

theorem witness_SystemsOfDevices_time :
    (let d := late ((sysDev 1 3 []).sysg (fun x => { x with readySent := true })) 100000000
     d.role = 1 ∧ d.sys.readySent = true ∧ d.sys.censusT + 100000000 ≤ d.clk) ∧
    (let d := (late (sysDev 1 3 []) 2000000000).wf Reg.SYS.CFG.hubAt 6 0 1
     d.role = 1 ∧ d.sys.readySent = false ∧ d.sys.partialSent = false ∧ d.boot.releaseT + 2000000000 ≤ d.clk) ∧
    (∀ l : Bool, let d := late ((sysDev 1 3 []).sysg (fun x => { x with
        registry := [(127, aNode l)]
        lostNodes := [(127, 0)] })) 100000000
     d.role = 1 ∧ Sparse.find 127 d.sys.registry = some (aNode l) ∧ Sparse.find 127 d.sys.lostNodes = some 0 ∧ 0 + 100000000 ≤ d.clk ∧ d.sys.relays = [] ∧
     (aNode l).depth ≠ 0) ∧ Sparse.find 127 base.sys.registry = none := by decide +kernel

def fwdDev (vc hops own : Nat) (route : Bool) : Dev := let d := ((sysDev 2 1 []).bundle 255 (fun b => { b with
    inPkts := [⟨26 + vc, [9 * 32, 5 * 32, hops * 256, if vc = 0 then 4 else 3, 0, 0, 0, 0, 0, 0, 7], 0, false, none⟩] })).wf Reg.SYS.CFG.hubAt 22 16 own
  if route then d.sysg (fun x => { x with
    routes := [(9, 31)]
    parent := some 31 }) else d

theorem witness_SystemsOfDevices_relayed :
    (∀ c ∈ [(0, true), (ocLOAD, false), (ocATTEST, false), (ocSTATUS, false), (ocQRESET, false)],
      let d := sysDev 2 4 (77 :: c.1 :: List.replicate 63 0)
      let p : LinkPkt := ⟨26, [0, 5 * 32, 0, 4] ++ 77 :: c.1 :: List.replicate 63 0, 0, false, none⟩
      (d.getBundle 255).inPkts = [p] ∧ (parseCmd ((p.words.drop 5).map (fun w => w % 256))).opc = c.1 ∧ c.1 ≠ ocOPEN ∧
      (((d.bundle 255 (fun b => { b with inPkts := b.inPkts.erase p })).wb (Reg.HQ.CTL.hubAt [0]) 1 true).cmdErr 0
        (parseCmd ((p.words.drop 5).map (fun w => w % 256))) = 0 ↔ c.2 = false)) ∧
    (sysDev 2 4 []).sectionOn 0 = true ∧ (sysDev 2 4 []).sectionOn 7 = false ∧
    (let r : Relay := ⟨77, some (0, 9), [5], [], none, none, none⟩
     let d := (sysDev 1 5 (77 :: List.replicate 64 0)).sysg (fun x => { x with relays := [r] })
     d.sys.relays = [r] ∧ ([0, 5 * 32, 0, 5] : List Nat).getD 1 0 / 32 = 5 ∧ base.sys.relays = []) ∧
    (∀ c ∈ [(0, 7, 0, true), (0, 8, 0, true), (1, 7, 0, true), (0, 0, 9, true), (0, 0, 0, false)], let d := fwdDev c.1 c.2.1 c.2.2.1 c.2.2.2
      let p := ((d.getBundle 255).inPkts.find? (fun x => x.chan == 26 + c.1)).getD ⟨0, [], 0, true, none⟩
      svcUnusable (26 + c.1) p = false ∧ d.role = 2 ∧ p.words.getD 0 0 / 32 = 9 ∧ d.nodeNo = c.2.2.1 ∧ bits (p.words.getD 2 0) 11 8 + 1 = c.2.1 + 1 ∧
      (if c.1 = 0 then Sparse.find 9 d.sys.routes else d.sys.parent) = if c.2.2.2 then some 31 else none) := by decide +kernel

/-- A twin in a state, its MIR bundle 255 holding a packet of virtual channel vc. -/
def twDev (st : Nat) (pri : Bool) (vc : Nat) (ws : List Nat) : Dev :=
  ((((boundDev lnACTIVE).wr Reg.TWIN.CTL.hubAt 0x8007001F).wf Reg.TWIN.STAT.hubAt 31 28 st).wb Reg.TWIN.STAT.hubAt 0 pri).bundle 255 (fun b => { b with
    inPkts := [⟨30 + vc, ws, 0, false, none⟩] })
def hasMsg (d : Dev) (vc : Nat) (ws : List Nat) : Bool :=
  decide (d.mirKey = 255) && decide ((d.getBundle 255).inPkts.find? (fun x => x.chan == 30 + vc) = some ⟨30 + vc, ws, 0, false, none⟩)

theorem witness_TwinMessages :
    (at_ (twDev 1 false 0 [1, 0, 0, 0, 0, 0, 0, 1])).up ∧ base.secondary = false ∧ (base.getBundle base.mirKey).inPkts = [] ∧
    (∀ x ∈ [0, 1], let d := twDev 1 false 0 [1, 0, 0, 0, 0, 0, 0, x]
      hasMsg d 0 [1, 0, 0, 0, 0, 0, 0, x] = true ∧ d.twinState = 1 ∧ (([0, 0, 0, 0, 0, 0, x].getD 6 0).testBit 0 = !(d.fb Reg.TWIN.CTL.hubAt 30) ↔ x = 1)) ∧
    (twDev 2 false 0 []).twinState ≠ 1 ∧
    (let d := late ((twDev 1 false 0 []).setLaneState 255 lnCREDIT) 20000000
     d.twinState = 1 ∧ d.twin.pairT + 20000000 ≤ d.clk ∧ d.bundleActive d.mirKey = false) ∧
    (∀ st ∈ [0, 2], ∀ pri : Bool, let d := (twDev st pri 0 []).twn (fun t => { t with
        peerSerial := some 5
        missRun := 4 })
     d.fb Reg.TWIN.CTL.hubAt 31 = true ∧ d.twinState = st ∧ d.twin.peerSerial ≠ none ∧ d.twin.heard = false ∧ 4 ≤ d.twin.missRun ∧
     (d.pairedPrimary = true ↔ st = 2 ∧ pri = true) ∧ (d.secondary = true ↔ st = 2 ∧ pri = false) ∧ d.peerBundles = []) ∧
    base.twin.peerSerial = none ∧
    (∀ x ∈ [0, 0x200], let d := twDev 2 true 0 (2 :: x :: List.replicate 49 0)
      hasMsg d 0 (2 :: x :: List.replicate 49 0) = true ∧ d.pairedPrimary = true ∧ (bits x 11 8 = 0 ↔ x = 0)) := by decide +kernel

theorem witness_TwinMessages_mirror :
    (∀ k ∈ [3, 4, 5, 6], hasMsg (twDev 2 true 0 (k :: List.replicate 13 0)) 0 (k :: List.replicate 13 0) = true) ∧
    (let d := (twDev 2 true 0 []).twn (fun t => { t with own := [⟨0, 0, 7⟩] })
     d.twinState = 2 ∧ d.twin.own.find? (fun r => r.sec == 0 && r.period == 0) = some ⟨0, 0, 7⟩ ∧ d.twin.other = [] ∧ d.twin.selfDue = [] ∧
     (twDev 2 true 0 []).twin.own = []) ∧
    (let d := twDev 2 false 0 (4 :: List.replicate 10 0); d.secondary = true ∧ d.runErr 0 0 0 true ≠ 0 ∧ ((d.wf (sctlState 0) 2 0 stRUNNING).wf (sctlState 0) 23 16 1).runErr 0 rcPAUSE 0 true = 0) ∧
    (∀ a ∈ [none, some (.host 3 9), some (.node 5 77 9), some (.node 0 77 9)], let d := (twDev 2 true 0 [5, 0, 4]).twn (fun t => { t with fwd := [⟨0, 3, a⟩] })
      d.twin.fwd.find? (fun x => x.leader == bits 0 2 0) = some ⟨0, 3, a⟩) ∧
    (∀ f : Bool, (if f then (base.fn 3 (fun h => { h with queued := [hcmd 0 []] })) else base).frontCmd 3 = if f then some (hcmd 0 []) else none) ∧
    (∀ vc ∈ [1, 2, 3, 4, 5], let d := twDev 2 false vc (List.replicate 9 0); d.secondary = true ∧ hasMsg d vc (List.replicate 9 0) = true) ∧
    (let d := inRun stRUNNING; 8 ≤ d.getQ 0 63 0 Queue.free ∧ d.getQ 0 63 1024 (fun x => x.openLen) + 8 < 1024 ∧ d.getQ 0 63 [0] (fun x => x.chain.map (fun _ => 0)) = []) ∧
    (let d := (twDev 2 false 5 []).queue 7 16 (fun q => { q with
       mode := 0
       drain := [qw 5 true] })
     d.getQ 7 16 none (fun x => (x.words.take x.avail).findIdx? (fun w => w.eop)) = some 0 ∧ 16 ∈ outTwinQueues) := by decide +kernel

/-- A device whose bundle 255 holds a twin message of a peer; the MIR bundle is 0. -/
def peerDev (st : Nat) (t : Nat) : Dev := ((sysDev 0 t (List.replicate 12 0)).wf Reg.TWIN.STAT.hubAt 31 28 st).twn (fun x => { x with standby := [255] })
def peerSees (stepped known : Bool) : Dev := ((((peerDev 0 0x11).wr (Reg.LINKQ.MAP.of 7 [16]) 0x80001F0F)).sysg (fun x => { x with
  neigh := if known then [(255, ⟨0, 0, 0, 0, false⟩)] else [] })).twn (fun x => { x with stepdownFrom := if stepped then [0] else [] })
def svcAt255 (d : Dev) (type : Nat) : Bool := match (d.getBundle 255).inPkts.find? (fun x => x.chan == 29) with
  | some p => !p.poison && decide (4 ≤ p.words.length) && p.words.getD 3 0 == type
  | none => false

theorem witness_Failover :
    (at_ (peerDev 4 0x14)).up ∧
    (∀ pri : Bool, (twDev 2 pri 0 []).twinState = 2 ∧ (twDev 2 pri 0 []).fb Reg.TWIN.STAT.hubAt 0 = pri ∧ (0x22#8).toNat = 0x22) ∧
    ((twDev 2 true 0 []).twn (fun t => { t with selfDue := [0x21] })).twin.selfDue = [0x21] ∧ (base.getBundle 255).inPkts = [] ∧
    (∀ st ∈ [2, 4], let d := twDev st false 0 [7, 0]; 255 = d.mirKey ∧ d.secondary = true ∧ hasMsg d 0 [7, 0] = true ∧ d.twinState = st) ∧
    (∀ t ∈ [0x10, 0x11, 0x12, 0x13, 0x14], 255 ≠ (peerDev 0 t).mirKey ∧ svcAt255 (peerDev 0 t) t = true ∧ (peerDev 0 t).twinState ≠ 4 ∧
      (peerDev 4 t).twinState = 4 ∧ svcAt255 (peerDev 4 t) t = true) ∧
    (∀ a b : Bool, (0 ∈ (peerSees a b).twin.stepdownFrom ↔ a = true) ∧ (peerSees a b).bundleOf 0 = (if b then some 255 else none) ∧
      (peerSees a b).bundleActive 255 = true ∧ (peerSees a b).boundTo inQueues 255 = [32]) ∧
    (let d := (peerDev 4 0x14).twn (fun x => { x with accepted := [255] })
     255 ∈ d.twin.accepted ∧ 255 ∉ d.twin.resumed ∧ ∀ j ∈ d.twin.standby, j = 255 ∨ j ∈ d.twin.resumed) ∧
    Sparse.find 255 ((peerDev 0 0x14).twn (fun x => { x with moved := [(255, 3)] })).twin.moved ≠ none ∧ Sparse.find 255 (peerDev 0 0x14).twin.moved = none ∧
    (let d := late (peerDev 4 0) 100000
     d.twin.standby.find? (fun k => decide (k ∉ d.twin.accepted)) ≠ none ∧ d.twinState = 4 ∧ d.twin.takingT + 100000 ≤ d.clk) := by decide +kernel

/-- Channel 3 of section 0, or channel 1 of the hub, in a state. -/
def dmaDev (n c st : Nat) (x : DmaCh) : Dev := ((base.setDma n c st).dmaCh n c (fun _ => x)).wf (dmaSkip n c) 31 0 0xFFFFFFFF
/-- A linear descriptor: section memory at 0, host memory at 2^32. -/
def aDesc (dir len : Nat) : Desc := ⟨0, false, false, 0, dir, 0, len, if dir = 1 then 0 else 0x100000000, if dir = 1 then 0x100000000 else 0, true⟩
def working (dir : Nat) : DmaCh := { DmaCh.start with desc := some (aDesc dir 128) }

/-- Bytes of host memory at address 0, the DESC of the channel. -/
def hostBytes (d : Dev) (bs : List Nat) : Dev := d.hostWrite 0 bs
def descBytes (ctl len a : Nat) : List Nat := toBytes 8 0 ++ toBytes 4 ctl ++ toBytes 4 len ++ toBytes 8 a ++ toBytes 8 0

theorem witness_DmaChannels :
    (∀ p ∈ [(0, 3), (8, 1)], let n := p.1
      let c := p.2
      (n = 8 ∨ base.sectionOn n = true) ∧ (n = 8 → c < 2) ∧ (at_ base).up ∧
      (∀ st ∈ [dmIDLE, dmRUNNING, dmPARKED, dmSTOPPED, dmERROR, dmWITHDRAWN], (dmaDev n c st DmaCh.start).dmaState n c = st) ∧
      (dmaDev n c dmRUNNING DmaCh.start).rd (dmaSkip n c) = 0xFFFFFFFF ∧ base.rd (dmaSkip n c) ≠ 0xFFFFFFFF ∧
      (∀ x ∈ [DmaCh.start, working 0, { working 0 with reading := true }, { DmaCh.start with rereading := true }, { working 0 with wdraw := true },
          { working 0 with halt := true }], (dmaDev n c dmRUNNING x).getDma n c = x)) := by decide

theorem witness_DmaChannels_work :
    (∀ len ∈ [128, 100], let d := hostBytes (dmaDev 0 3 dmRUNNING DmaCh.start) (descBytes 0 len 0x1000)
     d.dmaState 0 3 = dmRUNNING ∧ (d.getDma 0 3).desc = none ∧ d.fb (dmaCtl 0 3) 8 = false ∧
     (descErr (parseDesc (d.hostRead (d.dmaDesc 0 3) 32)) false = 0 ↔ len = 128)) ∧
    (let d := ((dmaDev 0 3 dmRUNNING DmaCh.start).wb (dmaCtl 0 3) 8 true).wr (Reg.SNOC.STCTL.of 0) 0x80000000
     d.fb (dmaCtl 0 3) 8 = true ∧ (d.dmaRead 0 3 (d.dmaDesc 0 3) 32 []).2.1 ≠ 0) ∧
    (∀ m ∈ [1, 2], let x := { working 1 with
       moved := m
       reading := true }
     x.desc = some (aDesc 1 128) ∧ (aDesc 1 128).toSec = false ∧ x.last = none ∧ (m < (aDesc 1 128).len / 64 ↔ m = 1)) ∧
    (∀ b ∈ [32, 1], ∀ bell w h : Bool,
      let x : DmaCh := ⟨none, 0, 0, none, none, false, h, w, true⟩
      let d := (hostBytes (dmaDev 0 3 dmRUNNING x) (toBytes 8 b)).wb (dmaStat 0 3) 2 bell
      d.fb (dmaStat 0 3) 2 = bell ∧ (d.getDma 0 3).rereading = true ∧ (d.getDma 0 3).halt = h ∧ (d.getDma 0 3).wdraw = w ∧
      (ofBytes (d.hostRead (d.dmaDesc 0 3) 8)).testBit 0 = (b == 1)) := by decide +kernel

/-- Channel 3 of section 0 about to move a burst, its master's region open or not. -/
def burst (dir : Nat) (open_ : Bool) (x : DmaCh) : Dev := (((((base.wr (Reg.SPAD.REG.CTL.of 0 [20, 0]) (if open_ then 0x80000003 else 0)).wr
  (Reg.SPAD.REG.LIMIT.of 0 [20, 0]) 0x1FFFF).wr (Reg.SPAD.BANKSTAT.of 0) 0).wr (Reg.SNOC.STCTL.of 0) 0x80000000).setDma 0 3 dmRUNNING).dmaCh 0 3 (fun _ => { x with desc := some (aDesc dir 128) })

theorem witness_DmaChannels_burst :
    (∀ dir ∈ [0, 1], let d := burst dir true DmaCh.start
      let x := d.getDma 0 3
      let y := aDesc dir 128
      let place := fun (write : Bool) (a : Nat) => (dmaTarget 0 3 a).bind (fun p =>
        ((d.allow p.1 p.2.1 p.2.2 64 write).bind (fun j => d.region p.1 p.2.1 j p.2.2)).map (fun z => (p.1, z)))
      d.dmaState 0 3 = dmRUNNING ∧ x.desc = some y ∧ x.reading = false ∧ x.rereading = false ∧ d.burstWaits 0 3 y = false ∧ y.mode = 0 ∧
      y.addrA % 64 = 0 ∧ y.addrB % 64 = 0 ∧ y.addrA + y.len ≤ 2 ^ 64 ∧ y.addrB + y.len ≤ 2 ^ 64 ∧ x.moved < y.len / 64 ∧ x.wdraw = false ∧
      min 64 (y.len / 64 - x.moved) = 2 ∧
      ∀ i < 2, place (dir == 0) (64 * i) = some (0, 64 * i) ∧ d.sectionOn 0 = true ∧ d.reachable 0 (64 * i) = true ∧ inSpad (64 * i) = true ∧
        inSpad (64 * i + 63) = true ∧ d.getSec 0 [(0, [])] (fun x => x.ctl.dirty) = [] ∧ d.lineBad 0 i = false) ∧
    (∀ open_ : Bool, let d := burst 1 open_ DmaCh.start
      ((dmaMove ⟨[], [], none⟩ 0 3 (aDesc 1 128) 64 0 d).2.err = 0 ↔ open_ = true)) ∧
    (∀ w h : Bool, (((burst 1 true { DmaCh.start with
      wdraw := w
      halt := h }).getDma 0 3).wdraw = w) ∧ (burst 1 true { DmaCh.start with halt := h }).getDma 0 3 = { working 1 with halt := h }) := by decide +kernel

def swapDev (ports after_ : Nat) : Dev := late (((base.wb (Reg.SNOC.RTSTAT.of 0) 31 true).noc 0 (fun x => { x with swapT := some 0 })).wr64 Reg.SNOC.RTPORTS 0 [] ports) after_
def swapTime (d : Dev) : Nat := d.getSec 0 0 (fun x => match x.noc.swapT with | some t => d.clk - t | none => 0)

theorem witness_ServiceNetwork :
    (at_ (swapDev 0 4000)).upIn 0 ∧ (swapDev 0 4000).fb (Reg.SNOC.RTSTAT.of 0) 31 = true ∧ base.fb (Reg.SNOC.RTSTAT.of 0) 31 = false ∧
    swapTime (swapDev 0 4000) = 4000 ∧ 4000 < swapTime (swapDev 0 4001) ∧ ((swapDev (2 ^ 44) 2000).rd64 Reg.SNOC.RTPORTS 0).testBit 44 = true ∧
    swapTime (swapDev (2 ^ 44) 2000) = 2000 := by decide

/-- Trace of unit n, source x: whether it is active, its EN and the buffer's; a core of a call unit whose interrupt stands and is enabled. -/
def trcDev (n x : Nat) (act en : Bool) : Dev := ((base.wb (tstat n x) 31 act).wb (tctl n x) 31 en).wb (bctl n) 31 true
def coreAt (wake asleep : Bool) : Dev := ((trcDev 0 8 true true).core 0 8 (fun c => { c with
  sleeping := asleep
  event := wake })).setCsr 0 8 csrIE (if wake then 0x800 else 0)

theorem witness_TraceUnits :
    (at_ base).up ∧ (∀ en : Bool, (base.wb (bctl 0) 31 en).fb (bctl 0) 31 = en) ∧
    (∀ p ∈ [(8, 0), (0, 8), (0, 0)], let d := trcDev p.1 p.2 true true
      d.fb (tstat p.1 p.2) 31 = true ∧ d.fb (tstat p.1 p.2) 30 = false ∧ d.fb (tctl p.1 p.2) 31 = true ∧
      (base.wb (tstat p.1 p.2) 30 true).fb (tstat p.1 p.2) 30 = true ∧ (p.1 = 8 ∨ base.sectionOn p.1 = true)) ∧
    (∀ n ∈ [15, 16], let d := (trcDev 0 8 true true).src 0 8 (fun t => { t with fifo := List.replicate n 7 })
      d.getSrc 0 8 [] (fun t => t.fifo) = List.replicate n 7) ∧
    (∀ w a : Bool, let d := coreAt w a
      d.coreRuns 0 8 = !a ∧ (d.getCore 0 8).sleeping = a ∧ d.meip 0 8 = w ∧ (d.csrHeld 0 8 csrIE).testBit 11 = w ∧ d.fb (tstat 0 (traceIx 0 8)) 31 = true ∧
      ∀ k < 8, d.fd (trcLoc 0 Reg.STRC.CMP.CFG Reg.HTRC.CMP.CFG [8, k]) 29 28 ≠ 2) ∧
    (∀ b : Bool, (trcDev 0 8 false b).fb (tctl 0 8) 31 = b) ∧
    (∀ k < 8, base.fd (trcLoc 0 Reg.STRC.CMP.CFG Reg.HTRC.CMP.CFG [8, k]) 29 28 ≠ 1) ∧
    (let d := base.wr (trcLoc 0 Reg.STRC.CMP.CFG Reg.HTRC.CMP.CFG [8, 7]) 0x50000000
     d.fd (trcLoc 0 Reg.STRC.CMP.CFG Reg.HTRC.CMP.CFG [8, 7]) 31 30 = 1 ∧ d.fd (trcLoc 0 Reg.STRC.CMP.CFG Reg.HTRC.CMP.CFG [8, 7]) 29 28 = 1) := by decide

theorem witness_TraceUnits_buffer :
    (∀ full : Bool, ∀ w ∈ [16382, 16383], let d := (((trcDev 0 9 false true).src 0 9 (fun t => { t with
        fifo := [7]
        lost := 3 })).wb (bstat 0) 31 full).wf (bstat 0) 13 0 w
      ((List.range 10).map (fun i => (d.getTrc 0 0 (fun t => t.next) + i) % 10)).find? (fun z => (d.getSrc 0 z [] (fun t => t.fifo)).length ≠ 0) = some 9 ∧
      d.getSrc 0 9 [] (fun t => t.fifo) = 7 :: [] ∧ d.fb (bstat 0) 31 = full ∧ d.fd (bstat 0) 13 0 = w ∧ d.fb (bctl 0) 31 = true ∧
      (w + 1 < 16384 ↔ w = 16382)) ∧
    (∀ b : Bool, ((trcDev 0 9 false true).wb (bctl 0) 30 b).fb (bctl 0) 30 = b) ∧ base.fb (bctl 0) 31 = false ∧
    (∀ z < 10, (base.getSrc 0 z [] (fun t => t.fifo)).length = 0) ∧ base.fb (bstat 0) 30 = false ∧ (base.wb (bstat 0) 30 true).fb (bstat 0) 30 = true := by
  decide +kernel

/-- Function f with its rings on, its command ring from head to tail, and a message address apart from its completion ring. -/
def ringDev (f head tail : Nat) : Dev := (((base.wb (Reg.HQ.CTL.hubAt [f]) 0 true).wr (Reg.HQ.CMDHEAD.hubAt [f]) head).wr (Reg.HQ.CMDTAIL.hubAt [f]) tail).wr
  (Reg.HQ.MSIXL.hubAt [f, 0]) 0x10000
/-- Function 8 that is to fetch a command of an opcode, its session open or not. -/
def fetchDev (opc : Nat) (on : Bool) : Dev := (hostBytes (ringDev 8 0 1) [opc]).wb (Reg.HQ.CTL.hubAt [8]) 1 on
def mayFetch (d : Dev) (g : Nat) : Bool := d.hhpUp g && d.ringsOn g && !(d.getFn g true (fun h => h.halted)) &&
  decide (d.fd (Reg.HQ.CMDHEAD.hubAt [g]) 11 0 ≠ d.fd (Reg.HQ.CMDTAIL.hubAt [g]) 11 0 ∧ d.outstanding g < 8 ∧ d.outstanding g < d.freeEntries g)

theorem witness_HostRings :
    (at_ base).up ∧ base.ringsOn 8 = false ∧ base.getFn 8 [] (fun h => h.waiting) = [] ∧
    (let d := ringDev 8 15 15
     d.ringsOn 8 = true ∧ d.fb (Reg.HQ.CTL.hubAt [8]) 0 = true ∧ d.fd (Reg.HQ.CMDHEAD.hubAt [8]) 11 0 = 15 ∧ d.fd (Reg.HQ.CMDTAIL.hubAt [8]) 11 0 = 15 ∧
     d.cmdSize 8 = 16 ∧ (14#32).toNat % 4096 < 16 ∧ (15 + 16 - 15 % 16) % 16 + (14 + 16 - 15 % 16) % 16 < 16 ∧ 16 ≤ (16#32).toNat % 4096 ∧
     d.rd64 Reg.HQ.CPLBASE 8 [8] + 64 * d.fd (Reg.HQ.CPLTAIL.hubAt [8]) 11 0 = 0 ∧ d.rd (Reg.HQ.MSIXL.hubAt [8, 0]) = 0x10000 ∧
     d.fd (Reg.HQ.IRQ.hubAt [8]) 5 0 = 0 ∧ d.fd (Reg.HQ.IRQ.hubAt [8]) 13 8 = 0 ∧ (∀ j < 64, ∀ k < 4, (0 + j) % 2 ^ 64 ≠ (0x10000 + k) % 2 ^ 64)) ∧
    (let d := (ringDev 8 0 0).fn 8 (fun h => { h with waiting := [⟨0x0506, 0, 0, [], 0⟩] })
     d.getFn 8 [] (fun h => h.waiting) = [⟨0x0506, 0, 0, [], 0⟩] ∧ d.outstanding 8 < 2 ^ 4 - 1 - (0 + 2 ^ 4 - 0 % 4096 % 2 ^ 4) % 2 ^ 4) ∧
    (∀ o ∈ [ocCLOSE, 0xFF], ∀ on : Bool, let d := fetchDev o on
     (∀ g < 9, mayFetch d g = (g == 8)) ∧ d.getFn 8 [] (fun h => h.queued) = [] ∧ d.sessionOpen 8 = on ∧ d.getFn 8 none (fun h => h.long) = none ∧
     (knownOpc (parseCmd (d.hostRead (d.rd64 Reg.HQ.CMDBASE 8 [8] + 64 * 0) 64)).opc = true ↔ o = ocCLOSE)) ∧
    (∀ k ∈ [0, 2], ∀ m : Bool, let d := (base.fn 8 (fun h => { h with unsig := [(63, (k, 0))] })).wb (Reg.HQ.MSIXV.hubAt [8, 63]) 0 m
     d.getFn 8 none (fun h => Sparse.find 63 h.unsig) = some (k, 0) ∧ 0 + 1000 * d.fd (Reg.HQ.IRQ.hubAt [8]) 31 24 ≤ d.clk ∧
     d.fb (Reg.HQ.MSIXV.hubAt [8, 63]) 0 = m) ∧ base.getFn 8 none (fun h => Sparse.find 63 h.unsig) = none := by decide +kernel

def openCmdOf (mj mn : Nat) : HostCmd := { hcmd ocOPEN [mj, mn] with
  buf := 0
  blen := 0 }
def openDev (c : HostCmd) (on : Bool) : Dev := (base.fn 1 (fun h => { h with queued := [c] })).wb (Reg.HQ.CTL.hubAt [1]) 1 on

theorem witness_HostSessions :
    (∀ mj ∈ [1, 2], ∀ on : Bool, let c := openCmdOf mj 3
      let d := openDev c on
      d.getFn 1 [] (fun h => h.queued) = c :: [] ∧ c.opc = ocOPEN ∧ d.fb (Reg.HQ.CTL.hubAt [1]) 1 = on ∧ c.arg.getD 0 0 = mj ∧ c.clean = true ∧
      (∀ i < 32, 2 ≤ i → c.arg.getD i 0 = 0)) ∧ (openCmdOf 1 3).arg.getD 1 0 = 3 ∧ (hcmd ocOPEN [1, 3, 1]).arg.getD 2 0 ≠ 0 ∧
    base.boot.causeDue = false ∧ base.boot.backupDue = false ∧ base.inSafe = false ∧
    (∀ on : Bool, let c := hcmd ocCLOSE []
      let d := openDev c on
      d.getFn 1 [] (fun h => h.queued) = c :: [] ∧ c.opc = ocCLOSE ∧ c.clean = true ∧ (∀ i < 32, c.arg.getD i 0 = 0) ∧ d.twin.fwd = [] ∧
      (d.twn (fun t => { t with fwd := [⟨0, 1, some (.host 1 c.cid)⟩] })).twin.fwd = [⟨0, 1, some (.host 1 c.cid)⟩]) := by decide

/-- A command with the node m named. -/
def nodeCmd (o m : Nat) : HostCmd := ⟨o, 9, 0, 0, 0, 0, List.replicate 16 0 ++ toBytes 16 (2 ^ m), true⟩

theorem witness_HostShortCommands :
    (∀ o ∈ [0x20, 0x21, 0x22, 0x23, 0x24, 0x25, ocQRESET, ocCARM, ocCDISARM, ocFAULTS], ∀ a ∈ [0, 1], ∀ n ∈ [0, 1],
      let c := hcmd o (if (ocSTART ≤ o ∧ o ≤ ocRESTART) ∨ o = ocCARM ∨ o = ocCDISARM then [] else [a])
      let d := hostDev capDev (n + 1) c
      d.getFn (n + 1) [] (fun h => h.queued) = c :: [] ∧ c.opc = o ∧ d.cmdErr (n + 1) c = 0 ∧ d.twin.fwd = [] ∧ nodesOf c = [] ∧ cmdSect (n + 1) c = n ∧
      d.sectionOn n = (n == 0) ∧ isLong c = false ∧ d.pairedPrimary = false) ∧
    (let c := hcmd ocFAULTS [2]; (hostDev capDev 1 c).cmdErr 1 c ≠ 0 ∧ capDev.sessionOpen 1 = false) ∧
    (let c := hcmd ocTIME [1]; (hostDev base 0 c).getFn 0 [] (fun h => h.queued) = c :: [] ∧ (hostDev base 0 c).cmdErr 0 c = 0) ∧
    (∀ o ∈ [0x20, 0x21], let c := nodeCmd o 5
      let d := ((hostDev base 0 c).wf Reg.SYS.CFG.hubAt 31 30 1).sysg (fun x => { x with
        registry := [(5, aNode false)]
        routes := [(5, 255)] })
      d.getFn 0 [] (fun h => h.queued) = c :: [] ∧ nodesOf c = [5] ∧ d.cmdErr 0 c = 0 ∧ d.getFn 0 (some c) (fun h => h.long) = none ∧ c.arg.getD 0 0 ≠ 1 ∧
      d.sys.relays = [] ∧ d.nodeNo ≠ 5 ∧ (Sparse.find 5 d.sys.registry).any (fun x => !x.lost) = true ∧ (Sparse.find 5 d.sys.routes).isSome = true) := by
  decide +kernel

theorem witness_HostShortCommands_run :
    (∀ k ∈ [stRUNNING, stLOADED], (((inRun k).runCmd 0 rcPAUSE 0 (some (.host 1 9))).fd (cmdstat 0) 3 0 = 0 ↔ k = stRUNNING)) ∧
    ((inRun stRUNNING).runCmd 0 rcPAUSE 0 (some (.host 1 9))).twin.fwd = [] ∧
    (let d := ((inRun stRUNNING).wf Reg.TWIN.STAT.hubAt 31 28 2).wb Reg.TWIN.STAT.hubAt 0 true
     d.twin.fwd.length < (d.runCmd 0 rcPAUSE 0 (some (.host 1 9))).twin.fwd.length) ∧
    (let d := hostDev capDev 1 (hcmd ocQRESET [0]); d.twin.fwd.length ≤ d.twin.fwd.length) := by decide +kernel

/-- PF0 at its long command of an opcode. -/
def longDev (opc buf blen : Nat) : Dev := hostDev base 0 { hcmd opc [] with
  buf := buf
  blen := blen }

theorem witness_HostReportsAndWindow :
    (∀ p ∈ [(ocATTEST, 0x10000, 9216), (ocATTEST, 0x10000, 9215), (ocSTATUS, 0, 0), (ocSTATUS, 0x10000, 2048), (ocSTATUS, 0x10000, 2047)],
      let d := longDev p.1 p.2.1 p.2.2
      let c : HostCmd := { hcmd p.1 [] with
        buf := p.2.1
        blen := p.2.2 }
      (at_ d).up ∧ d.getFn 0 [] (fun h => h.queued) = c :: [] ∧ d.getFn 0 (some c) (fun h => h.long) = none ∧ d.cmdErr 0 c = 0 ∧ d.role = 0) ∧
    (longDev ocSTATUS 0 0 |>.wb (Reg.HQ.CTL.hubAt [0]) 1 false).cmdErr 0 (hcmd ocSTATUS []) ≠ 0 ∧
    (let d := ((longDev ocSTATUS 0 0).wf Reg.SYS.CFG.hubAt 31 30 1).sysg (fun x => { x with registry := [(5, aNode false)] })
     d.role = 1 ∧ (d.sys.registry.filter (fun e => !e.2.lost)).map (fun e => e.1) = [5]) := by decide +kernel

/-- Section 0 with region 0 of master 21 over its scratchpad. -/
def winDev : Dev := (((base.wr (Reg.SPAD.REG.CTL.of 0 [21, 0]) 0x80000003).wr (Reg.SPAD.REG.LIMIT.of 0 [21, 0]) 0x1FFFF).wr
  (Reg.SPAD.BANKSTAT.of 0) 0).wr (Reg.SNOC.STCTL.of 0) 0x80000000

theorem witness_HostReportsAndWindow_window :
    (∀ k < 4, (base.wf (sectStat 0) 30 29 k).pstate 0 = k) ∧ winDev.pstate 0 = 2 ∧ winDev.bar2Sma 0 0x800000 = none ∧ 0x800000 % 64 + 64 ≤ 64 ∧
    winDev.bar2Waits 0 0x13F 2 true = false ∧ winDev.bar2Waits 0 0x13F 2 false = false ∧ winDev.getSec 0 [(0, [])] (fun x => x.ctl.dirty) = [] ∧
    winDev.bar2Sma 0 0x8000000 = some hbmBase ∧ lineParts 0x13F 2 = [(0, 1), (1, 1)] ∧
    (∀ i < 2, winDev.bar2Sma 0 (0x13F + i) = some (0x13F + i) ∧ winDev.allow 0 21 (0x13F + i) 1 true = some 0 ∧
      winDev.region 0 21 0 (0x13F + i) = some (0x13F + i) ∧ inSpad (0x13F + i) = true ∧ winDev.reachable 0 (0x13F + i) = true) ∧
    winDev.allow 0 21 0x13F 2 false = some 0 ∧ base.allow 0 21 0x13F 2 false = none ∧
    (winDev.wr (Reg.SPAD.BANKSTAT.of 0) 0xAAAAAAAA).reachable 0 0x13F = false ∧
    (let d := winDev
     let q := (d.nocStat 0 21 64 none).svcWrite 0 21 0x100 (List.replicate 64 1) none true []
     q.2.isOk = true) ∧
    ((base.wr (Reg.SNOC.STCTL.of 0) 0x80000000).svcWrite 0 21 0x100 (List.replicate 64 1) none true []).2.isOk = false := by decide +kernel

/-- Boot is at stage k, the flash holding what is given. -/
def bootAt (k : Nat) (fl : Sparse (BitVec 8)) : Dev := (Dev.atReset.wf bootStat 31 28 k).bootg (fun x => { x with flash := fl })

/-- A machine of a device with boot key 0 programmed. -/
def keyed (d : Dev) : State := { at_ d with otp := { (at_ d).otp with keysR := vmod (at_ d).otp.keysR 0 (fun k => { k with
  prog := true
  fuses := 1 }) } }

/-- A condition holds the device in reset. -/
def heldBy (sup clk hot : Bool) : Dev := base.hold sup clk hot

theorem witness_BootStages :
    (∀ k ∈ [0, 1, 2, 3, 4, 5], (at_ (bootAt k [])).up ∧ (bootAt k []).fd bootStat 31 28 = k) ∧ (heldBy true false false).held = true ∧
    (∀ k < 4, (vget (at_ base).otp.keysR k ⟨0, false⟩).prog = false ∧ (vget (at_ base).otp.keysS k ⟨0, false⟩).prog = false) ∧
    (vget (keyed base).otp.keysR 0 ⟨0, false⟩).prog = true ∧ (bootAt 3 []).boot.booted = none ∧
    (∀ n < 8, (bootAt 3 []).sectBusy n = false ∧ (bootAt 3 []).pstate n = 0) ∧ (bootAt 4 []).sectionOn 0 = false ∧
    (let d := (List.range 8).foldl (fun d n => d.wf (sectStat n) 30 29 2) (bootAt 4 []); d.fd bootStat 31 28 = 4 ∧ ∀ n < 8, d.sectionOn n = true) := by
  decide +kernel

theorem witness_BootStages_verify : (let d := bootAt 2 ((List.range 4).flatMap (fun i => [(copyA + 0xC + i, 0), (copyB + 0xC + i, 0)]))
    Hvbr.verify (d.copyBytes copyA) (keyed d).otp = .inl bcMAGIC ∧ Hvbr.verify (d.copyBytes copyB) (keyed d).otp = .inl bcMAGIC) := by decide +kernel

theorem witness_BootStages_record : ((bootAt 3 []).bootg (fun x => { x with booted := some booted })).boot.booted = some booted ∧
    (base.bootg (fun x => { x with booted := some booted })).boot.booted = some booted := ⟨rfl, rfl⟩

/-- A flash operation of the given kind is in progress. -/
def flashOp (op a : Nat) : Dev := (base.bootg (fun x => { x with
  flOp := some (op, a)
  flash := [(0x10000, 1), (0x10100, 2), (0x1FFFF, 3), (0x20000, 4)] })).wr (Reg.BOOT.FLBUF.hubAt [63]) 0xFF0000AA

/-- The device is in SAFE. -/
def safeDev : Dev := base.enterSafe bcNOFLASH 0

theorem witness_FlashAndFuses :
    (at_ base).up ∧ base.fd bootStat 31 28 = 5 ∧ (bootAt 4 []).fd bootStat 31 28 = 4 ∧ base.fb Reg.BOOT.FLCMD.hubAt 30 = false ∧
    base.rd Reg.BOOT.FLADDR.hubAt % 65536 = 0 ∧ (base.wb Reg.BOOT.FLCMD.hubAt 30 true).fb Reg.BOOT.FLCMD.hubAt 30 = true ∧
    (base.wr Reg.BOOT.FLADDR.hubAt 0x80).rd Reg.BOOT.FLADDR.hubAt % 256 ≠ 0 ∧ base.boot.flOp = none ∧
    (∀ op ∈ [1, 2, 3], (flashOp op 0x10000).boot.flOp = some (op, 0x10000)) ∧
    (∀ i < 256, Sparse.get (fun _ => (255 : BitVec 8)) (flashOp 2 0x10200).boot.flash (0x10200 + i) = 255) ∧
    (at_ safeDev).up ∧ safeDev.fd bootStat 31 28 = 15 ∧ (at_ safeDev).otp.lock = false ∧ safeDev.fb Reg.BOOT.OTPPROG.hubAt 30 = false ∧
    (∀ k < 4, (vget (at_ safeDev).otp.keysR k ⟨0, false⟩).prog = false) ∧ (vget (keyed safeDev).otp.keysR 0 ⟨0, false⟩).prog = true ∧
    base.boot.otpOp = none ∧ (∀ lock : Bool, (safeDev.bootg (fun x => { x with otpOp := some (lock, 1, 3) })).boot.otpOp = some (lock, 1, 3)) ∧
    base.boot.booted = none := by decide +kernel

theorem witness_DeviceResets :
    base.boot.otpOp = none ∧ base.boot.flOp = none ∧ (flashOp 2 0x10000).boot.flOp = some (2, 0x10000) ∧
    (safeDev.bootg (fun x => { x with otpOp := some (false, 1, 3) })).boot.otpOp = some (false, 1, 3) ∧ base.traceActive 8 0 = false ∧
    (let d := heldBy true false false; d.pow.holdSup = true ∧ d.pow.holdHot = false ∧ d.pow.holdClk = false) ∧
    (let d := heldBy false true false; d.pow.holdClk = true ∧ d.pow.holdHot = false ∧ d.pow.holdSup = false) := by decide

/-- Section 0 RUNNING and holding or not, cluster 3 used, in a brownout episode of a phase that began at 5. -/
def boDev (ph : BoPhase) (hold : Bool) : Dev := late ((((held0 false).wb (sctlState 0) 3 hold).wb (clkctl 0 3) 4 true).powg (fun p => { p with
  episode := some (ph, 5)
  lowest := 640 })) 70000

theorem witness_BrownoutEpisode :
    (at_ base).up ∧ base.pow.episode = none ∧ 630 < (631#10).toNat ∧ (664#10).toNat < 665 ∧ (674#10).toNat < 675 ∧ ¬630 < (630#10).toNat ∧
    ¬(665#10).toNat < 665 ∧ ¬(675#10).toNat < 675 ∧
    (∀ ph ∈ [BoPhase.reqHalf, .setting, .half, .reqFull, .clearing], ∀ hold : Bool, let d := boDev ph hold
      (at_ d).up ∧ d.pow.episode = some (ph, 5) ∧ d.running 0 = true ∧ ((∀ n < 8, d.running n = true → d.holding n = true) ↔ hold = true) ∧
      (d.usedClusters 0).contains 3 = true ∧ d.pow.recT = none) ∧
    (∀ t ∈ [50050, 50051], let d := (boDev .half true).powg (fun p => { p with recT := some t })
     d.pow.episode = some (.half, 5) ∧ d.pow.recT = some t ∧ (t + 19950 ≤ d.clk ↔ t = 50050)) ∧
    (∀ b : Bool, ((boDev .setting true).wb (clkstat 0 3) 6 b).fb (clkstat 0 3) 6 = b) := by decide

/-- Readings of the nine sensors, one of them apart. -/
def temps (t hot : BitVec 10) : Vector (BitVec 10) 9 := (Vector.replicate 9 t).set 4 hot

/-- Thermal control enabled, HI 100 °C, HYST 5 °C, DUTY 3; throttling since 1 where `on` says so, cool since 2. -/
def hotDev (on cool : Bool) (t : Nat) : Dev := late ((base.wr Reg.PWR.THCTL.hubAt 0x80030564).powg (fun p => { p with
  throtT := if on then some 1 else none
  coolT := if cool then some 2 else none })) t
def degrees (t : Vector (BitVec 10) 9) : List Int := t.toList.map BitVec.toInt

theorem witness_ThermalControl :
    (at_ (hotDev false false 0)).up ∧ 4 * min 110 ((hotDev false false 0).fd Reg.PWR.THCTL.hubAt 7 0) = 400 ∧
    4 * (hotDev false false 0).fd Reg.PWR.THCTL.hubAt 15 8 = 20 ∧ (hotDev false false 0).pow.throtT = none ∧
    (hotDev false false 0).fb Reg.PWR.THCTL.hubAt 31 = true ∧ (base.wr Reg.PWR.THCTL.hubAt 0).fb Reg.PWR.THCTL.hubAt 31 = false ∧ (hotDev false false 0).boot.otpOp = none ∧
    (∀ x ∈ degrees (temps 0x300 399), x < 460 ∧ x < 400) ∧
    ((∀ x ∈ degrees (temps 0x300 400), x < 460) ∧ ∃ x ∈ degrees (temps 0x300 400), (400 : Int) ≤ x) ∧
    ((∀ x ∈ degrees (temps 0x300 459), x < 460) ∧ ∃ x ∈ degrees (temps 0x300 460), (460 : Int) ≤ x) ∧
    ((hotDev true true 1000001).pow.throtT = some 1 ∧ (hotDev true true 1000001).pow.coolT = some 2 ∧ (hotDev true true 1000001).clk < 2 + 1000000 ∧
      2 + 1000000 ≤ (hotDev true true 1000002).clk ∧ (hotDev true false 0).pow.coolT = none ∧ (∀ x ∈ degrees (temps 0x300 379), x < 400 - 20) ∧
      ∃ x ∈ degrees (temps 0x300 380), (400 - 20 : Int) ≤ x) ∧
    (let d := heldBy false false true; d.held = true ∧ d.pow.holdHot = true ∧ d.pow.holdSup = false ∧ d.pow.holdClk = false) ∧
    (∀ x ∈ degrees (temps 0x300 379), x < 380) := by decide

/-- Section 1 in a power state, BUSY and ON as given. -/
def secDev (p : Nat) (busy on : Bool) : Dev := ((((base.wf bootStat 31 28 4).wf (sectStat 1) 30 29 p).wb (sectStat 1) 31 busy).wb (sectCtl 1) 0 on).wf (sctlState 1) 2 0
  (if p = 2 then stPARKED else stOFF)

theorem witness_SectionPowerAndBanks :
    (at_ (secDev 0 false false)).up ∧ (secDev 0 false false).inSafe = false ∧ (at_ safeDev).up ∧ safeDev.inSafe = true ∧
    (∀ p < 4, ∀ busy on : Bool, (secDev p busy on).fb (sectStat 1) 31 = busy ∧ (secDev p busy on).fd (sectStat 1) 30 29 = p ∧
      (secDev p busy on).fb (sectCtl 1) 0 = on) ∧
    (∀ h : Bool, ((secDev 1 true true).powg (fun x => { x with softHeld := if h then 2 else 0 })).pow.softHeld.getLsbD 1 = h) ∧
    ((secDev 2 true true).powg (fun x => { x with soft := 2 })).pow.soft.getLsbD 1 = true ∧ (secDev 2 true true).pow.soft.getLsbD 1 = false ∧
    (∀ i < 4, 1 / 4 * 4 + i ≠ 1 → i ≠ 0 → (secDev 3 true false).pstate (1 / 4 * 4 + i) = 0) ∧ (secDev 3 true false).pstate 0 = 2 ∧
    base.fb (Reg.DIO.BANK.hubAt [3]) 31 = false ∧ (base.wr (Reg.DIO.BANK.hubAt [3]) 0xB0000000).fb (Reg.DIO.BANK.hubAt [3]) 31 = true ∧
    vccioLevel 1710 = 3 ∧ vccioLevel 1709 = 6 ∧ vccioLevel 599 = 0 := by decide

/-- The row that lies at an offset of a layout, and its high half flag. -/
def rowAt (m o : Nat) : Option (Nat × Bool) := ((rowsAt m o).bind (fun rows => findRow rows o)).map (fun f => (f.row.base, f.hi))

theorem witness_RegisterPairs :
    (at_ (inRun stLOADED)).up ∧ (heldBy true false false).held = true ∧
    (∀ lay < 9, pairHalf lay 0xFFC false = false ∧ pairHalf lay 0xFFC true = false) ∧
    (∀ r ∈ [Reg.SNOC.RTPORTS, Reg.SDMA.DESC, Reg.CAPT.TCMP, Reg.STRC.CMP.ADDR, Reg.STRC.RNG.LO, Reg.STRC.RNG.HI, Reg.SCTL.STIME],
      rowAt 0 r.base = some (r.base, false) ∧ rowAt 0 (r.base + 4) = some (r.base, true) ∧ r.wide = true ∧ r.writable = true ∧
      aliasOf 0 r.base = (0, r.base) ∧ (inRun stLOADED).answers 0 r.base = true) ∧
    (∀ r ∈ [Reg.HTRC.CMP.ADDR, Reg.HTRC.RNG.LO, Reg.HTRC.RNG.HI, Reg.HQ.CMDBASE, Reg.HQ.CPLBASE, Reg.HDMA.DESC, Reg.TIME.D.OFFSET, Reg.TIME.INC],
      rowAt 8 r.base = some (r.base, false) ∧ rowAt 8 (r.base + 4) = some (r.base, true) ∧ r.wide = true ∧ r.writable = true ∧ base.answers 8 r.base = true) ∧
    (∀ r ∈ [Reg.CLUS.GSLOTL, Reg.CLUS.GSLOTH], rowAt 0 r.base = some (r.base, false) ∧ (inRun stRUNNING).runState 0 = stRUNNING ∧
      (inRun stLOADED).runState 0 ≠ stRUNNING) ∧
    Sparse.find (Reg.SCTL.STIME.of 0).key base.staging = none ∧
    Sparse.find (Reg.SCTL.STIME.of 0).key { base with staging := Sparse.put (Reg.SCTL.STIME.of 0).key 7 [] }.staging = some 7 := by decide +kernel

theorem witness_RegisterPairs_locks :
    (let d := (((((base.wb (Reg.SNOC.RTSTAT.of 0) 31 true).wf (dmaStat 0 3) 31 28 dmPARKED).wb (Reg.CAPT.STAT.of 0) 5 true).wb (tctl 0 9) 31 true).wb
       (tctl 8 0) 31 true).wb (Reg.HQ.CTL.hubAt [8]) 0 true
     d.fb (Reg.SNOC.RTSTAT.of 0) 31 = true ∧ d.fd (dmaStat 0 3) 31 28 = dmPARKED ∧ d.fb (Reg.CAPT.STAT.of 0) 5 = true ∧ d.fb (tctl 0 9) 31 = true ∧
     d.fb (tctl 8 0) 31 = true ∧ d.fb (Reg.HQ.CTL.hubAt [8]) 0 = true) ∧
    base.fb (Reg.SNOC.RTSTAT.of 0) 31 = false ∧ base.fd (Reg.TIME.D.CFG.hubAt [0]) 31 30 ≠ 1 ∧
    (base.wf (Reg.TIME.D.CFG.hubAt [0]) 31 30 1).fd (Reg.TIME.D.CFG.hubAt [0]) 31 30 = 1 := by decide

theorem witness_RegisterAccesses :
    (at_ base).hubUp ∧ (heldBy true false false).held = true ∧ rowsAt 8 0xFF0000 = none ∧ rowsAt 8 0xFFFC ≠ none ∧ rowAt 8 0xFFFC = none ∧
    (inRun stLOADED).answers 0 Reg.SCTL.CMD.base = true ∧ base.answers 7 Reg.SCTL.CMD.base = false ∧ safeDev.answers 8 Reg.TIME.INC.base = false ∧
    (∀ b : Bool, (base.wb Reg.DEV.ACCERR.hubAt 31 b).fb Reg.DEV.ACCERR.hubAt 31 = b) ∧
    (∀ b : Bool, (base.wb (Reg.SNOC.STCTL.of 0) 31 b).fb (Reg.SNOC.STCTL.of 0) 31 = b) ∧
    (∀ r ∈ [Reg.SCTL.CMD, Reg.SCTL.HCTL, Reg.SCTL.PACECTL, Reg.SFLT.FSTAT, Reg.SPAD.BANKPWR, Reg.SPAD.REG.CTL, Reg.FERRY.CTL, Reg.FERRY.WDATA, Reg.CALL.CRPOOL,
        Reg.CALL.CORECTL, Reg.CALL.CLASS, Reg.SNOC.RTDATA, Reg.SNOC.RTCMD, Reg.SNOC.STCTL, Reg.CLUS.DSTORE, Reg.CLUS.CSLOT, Reg.CLUS.WAIT, Reg.CLUS.CLKCTL,
        Reg.CLUS.RSTCTL, Reg.CAPT.CTL, Reg.CAPT.ACTCTL, Reg.CAPT.CFG, Reg.SDMA.CTL, Reg.SDMA.DOORBELL, Reg.SDMA.SKIP, Reg.STRC.TCTL, Reg.STRC.CMP.CFG,
        Reg.LINKQ.MAP, Reg.HBMC.FREG.CTL, Reg.FERRY.STAT, Reg.SCTL.STEPK, Reg.SNOC.PDROP], rowAt 0 r.base = some (r.base, false)) ∧
    (∀ r ∈ [Reg.TIME.CTL, Reg.TIME.SETCMD, Reg.TIME.ALCTL, Reg.PG.CTL, Reg.HQ.CTL, Reg.HQ.CMDTAIL, Reg.HQ.CPLHEAD, Reg.LANE.EQTX, Reg.LANE.EQRX, Reg.LANE.QCTL,
        Reg.PWR.SECT.CTL, Reg.BOOT.FLCMD, Reg.BOOT.OTPPROG, Reg.BOOT.CMD, Reg.HDMA.CTL, Reg.HDMA.DOORBELL, Reg.HTRC.TCTL, Reg.DIO.CELL, Reg.TIME.NOWF,
        Reg.ETH.TSINFO, Reg.DEV.ACCCNT], rowAt 8 r.base = some (r.base, false)) := by decide +kernel

theorem witness_RegisterAccesses_windows :
    base.windowRead 8 0x808000 ≠ none ∧ (inRun stLOADED).windowRead 0 0x2000000 ≠ none ∧ (inRun stLOADED).windowRead 0 Reg.SCTL.CMD.base = none ∧
    rowsAt 0 0x2000000 ≠ none ∧ (0x25FFFF8 - 0x2000000) / 16 < 393216 ∧ (0x2000008 / 4 % 4 = 2) := by
  refine ⟨?_, ?_, ?_, ?_, ?_⟩ <;> first | exact fun h => Option.noConfusion h | decide

theorem witness_JtagAndSmbus :
    (at_ base).up ∧ (0x58#7).toNat = 0x58 + base.pins.smbAddr % 8 ∧ base.pins.smbReg < 2 ^ 26 ∧ (0x59#7).toNat ≠ 0x58 + base.pins.smbAddr % 8 ∧
    (base.pin (fun p => { p with smbReg := 2 ^ 26 })).pins.smbReg = 2 ^ 26 ∧ (∀ b : Bool, (base.wb Reg.DEV.ACCERR.hubAt 31 b).fb Reg.DEV.ACCERR.hubAt 31 = b) ∧
    (heldBy true false false).held = true ∧ (32 : Fin 4096).val = 32 ∧ (0 : Fin 4096).val = 0 := by decide

theorem witness_ResetState :
    (Reg.DEV.ACCCNT.hubAt).reset < 2 ^ 32 ∧ ∀ n < 8, (Reg.DEV.ACCCNT.hubAt).key ≠ (sctlState n).key := by decide

theorem witness_FusesOnlyBlow :
    (match step (keyed safeDev) with | .next t => decide (t = keyed safeDev) | _ => false) = true ∧ (keyed safeDev).otp.keysR[0].prog = true ∧
    (keyed safeDev).otp.keysR[0].fuses.getLsbD 0 = true := by decide +kernel

/-! ### Commands of operands that make no sense are ill formed -/

theorem test_wf_registerWrite_sect : (Instr.registerWrite 7 1 8 0 2 0 0).wf = false ∧ (Instr.registerWrite 11 1 8 0 2 0 0).wf = true := by decide
theorem test_wf_registerWrite_value : (Instr.registerWrite 0 0 8 0 1 0x10000 0).wf = false ∧ (Instr.registerWrite 0 0 8 0 1 0xFFFF 0).wf = true := by decide
theorem test_wf_qrd : (Instr.qrd 0 0 0 [(4, 1)]).wf = false ∧ (Instr.qrd 0 0 0 [(3, 0)]).wf = false ∧ (Instr.qrd 0 0 0 [(3, 2)]).wf = true := by decide
theorem test_wf_badCmd : (Instr.badCmd 0 6).wf = false ∧ (Instr.badCmd 0 7).wf = true := by decide
theorem test_wf_serviceAccess : (Instr.serviceAccess 0 15 0 8 [] [] 0).wf = false ∧ (Instr.serviceAccess 0 16 0 0 [] [] 0).wf = false ∧
    (Instr.serviceAccess 0 16 0 8 [1] [] 0).wf = false ∧ (Instr.serviceAccess 0 16 0 8 [] [(0, 0)] 0).wf = false ∧
    (Instr.serviceAccess 0 16 0 8 [] [(0, 1)] 0).wf = true := by decide
theorem test_wf_fabricHbmRequest : (Instr.fabricHbmRequest 0 0 0 [(0, 0)]).wf = false ∧ (Instr.fabricHbmRequest 0 0 0 [(0, 1)]).wf = true := by decide
theorem test_wf_queueWordWrite : (Instr.queueWordWrite 0 8 [] true (some 0) false false).wf = false ∧
    (Instr.queueWordWrite 0 8 [1] false (some 0) false false).wf = false ∧ (Instr.queueWordWrite 0 8 [1] true (some 0) false true).wf = false ∧
    (Instr.queueWordWrite 0 7 [1] true (some 0) false false).wf = false ∧ (Instr.queueWordWrite 0 8 [1] true (some 0) true true).wf = true := by decide
theorem test_wf_queueDequeue : (Instr.queueDequeue 0 0 3 [(3, 1)]).wf = false ∧ (Instr.queueDequeue 0 0 3 [(2, 0)]).wf = false ∧
    (Instr.queueDequeue 0 8 3 []).wf = false ∧ (Instr.queueDequeue 0 0 3 [(2, 1)]).wf = true := by decide
theorem test_wf_coreInstructionRetire : (Instr.coreInstructionRetire 8 1 0 0 false .mret [] 0).wf = false ∧
    (Instr.coreInstructionRetire 0 7 0 0 false .mret [0] 0).wf = false ∧ (Instr.coreInstructionRetire 0 8 0 0 false .mret [0] 0).wf = true := by decide
theorem test_wf_bar2 : (Instr.bar2Write 0 0 [] false []).wf = false ∧ (Instr.bar2Write 0 0xFFFFFFF [1, 2] false []).wf = false ∧
    (Instr.bar2Write 0 0xFFFFFFE [1, 2] false []).wf = true ∧ (Instr.bar2Read 0 0 0 [] 0).wf = false ∧ (Instr.bar2Read 0 0xFFFFFFF 2 [] 0).wf = false ∧
    (Instr.bar2Read 0 0xFFFFFFE 2 [] 0).wf = true := by decide
theorem test_wf_dma : ∀ c : Fin 4, ∀ i ∈ [Instr.dmaGo 8 c false 0, .dmaHalt 8 c false 0, .dmaWdraw 8 c false 0, .dmaDoorbell 8 c, .descriptorFetched 8 c, .dmaBurstDone 8 c [] [],
    .readbackDone 8 c, .nextWordRead 8 c, .dmaTransferError 8 c 0 []], i.wf = decide (c.val < 2) := by decide
theorem test_wf_trace : (Instr.deltaSync 0 9).wf = false ∧ (Instr.deltaSync 8 1).wf = false ∧ (Instr.deltaSync 0 8).wf = true ∧ (Instr.coreSleep 8 1).wf = false ∧
    (Instr.coreWake 8 1).wf = false ∧ (Instr.tctlWrite 8 1 0).wf = false ∧ (Instr.tctlWrite 0 9 0).wf = false ∧ (Instr.tctlWrite 8 0 0).wf = true := by decide
theorem test_wf_jtag : ∀ i ∈ [Instr.bypass 2 4, .idcode 2 4, .samplePreload 2 4, .extest 2 4, .extestPulse 2 4, .extestTrain 2 4 0], i.wf = false := by decide
theorem test_wf_jtag_good : ∀ i ∈ [Instr.bypass 2 3, .idcode 2 3, .samplePreload 2 3, .extest 2 3, .extestPulse 2 3, .extestTrain 2 3 0], i.wf = true := by decide

/-! ### The manual's check values and worked examples -/

/-- "123456789" in ASCII. -/
def digits9 : List Nat := [0x31, 0x32, 0x33, 0x34, 0x35, 0x36, 0x37, 0x38, 0x39]

/-- R240's check value. -/
theorem test_crc32c : crc32c digits9 = 0xE3069283 := by decide +kernel

/-- R390's check value. -/
theorem test_crc64 : digestBytes 0 digits9 = 0x6C40DF5F0B497347 := by decide +kernel

/-- Chapter 19's example, finding two balls: LN45_2_TXP at 67.25, TXN at 66.25, DIO29 at 52.29. -/
theorem test_balls : ballAt 67 25 = some (.lane (4 * 45 + 2) false false) ∧ ballAt 66 25 = some (.lane (4 * 45 + 2) false true) ∧
    ballAt 52 29 = some (.dio 29) := by decide

/-- Chapter 20's example: a write of 16 bits to BAR0 of PF7 + 0x10002. -/
theorem test_accerr : (let d := after (.registerWrite 7 0 6 0x10002 1 5 0) base
    (d.rd Reg.DEV.ACCERR.hubAt, d.rd Reg.DEV.ACCADDR.hubAt, d.rd Reg.DEV.ACCCNT.hubAt)) = (0x97000000, 0x10002, 1) := by decide +kernel

/-- Chapter 8's example: frames A and B of 26 words in queue 56 of a section, as FERRY.LEVEL shows them. -/
theorem test_ferryLevel : (let w := fun (d : Dev) => after (.queueWordWrite 0 56 (List.replicate 26 0x20F) true (some 0) false false) d
    let d := w (w ((base.wr (Reg.SNOC.STCTL.of 0) 0x80000000).queue 0 56 (fun q => { q with mode := 0 })))
    after (.regPairLowRead 0 0x4E008 2) d).rdata = [0x34, 0x00, 0xE6, 0x03] := by decide +kernel

/-- Chapter 2's example: BP0 to BP3 at step 40 of the counter, at the prior value q with T and EN. -/
def counter (q t en : Nat) : Dev := (((((fabAt 40).wr (Reg.SCTL.PERIOD.of 0) 64).fab 0 (fun f => { f with
  code := [(0, 0x88100000550A0000C0032A05), (1, 0x88300000660A002810032A05), (2, 0x082000006609D42820032A05),
    (3, 0x886000007809D42820A0EA05)].foldl (fun c e => c.set (codeKey 0 0 e.1 40) (BitVec.ofNat 96 e.2)) f.code })).setWord 0 0 0 0x28 (mkWord q 1 1)).setWord 0 0 0 0x27
    (mkWord (t * 32) 0 1)).setWord 0 0 0 0x2A0 (mkWord (en * 32) 0 1)

/-- What BP0 to BP3 of the course give at the step. -/
def counted (q t en : Nat) : List Bool := let d := counter q t en
  (List.range 4).map (fun b => let o := d.bpOut (d.atStep 0 0 0) b (d.suppressed 0); o.bit && o.fault.isNone)

/-- Chapter 2's example, cycle 0, where 14 becomes 15. -/
theorem test_counter_counts : counted 14 0 1 = [true, true, true, true] := by decide +kernel

/-- With T from Q = 0b0111: bit 3 takes the carry. -/
theorem test_counter_carry : counted 7 1 1 = [false, false, false, true] := by decide +kernel

end Sys2Proof.Tests
end

/-! ## The store windows (R70, R71, R97, R278) -/

namespace Sys2Proof.Machine

namespace Dev

variable (d : Dev) (n : Nat)

/-! ### Parts of a section -/

/-- Two changes of the run state that agree on section n change the device alike. -/
theorem run_congr {f g : RunSt → RunSt} (h : ∀ x, d.secs.toList[n]? = some x → f x.run = g x.run) : d.run n f = d.run n g := by
  unfold run sec vmod
  split
  · next hn =>
    have hx : f d.secs[n].run = g d.secs[n].run := h _ (by simp [hn])
    simp only [hx]
  · rfl

/-- An optional part of section n is absent; where there is no such section, neither side says so. -/
theorem getSec_isNone {α : Type} (z : α) (g : Sec → Option α) :
    d.getSec n false (fun x => (g x).isNone) = true ↔ d.getSec n (some z) g = none := by
  unfold getSec
  cases d.secs.toList[n]? with
  | none => simp
  | some x => simp

/-! ### The lock of the windows -/

theorem locked_of_running (h : d.runState n = stRUNNING) : d.locked n = true := by simp [locked, h]

theorem locked_of_not_running (h : d.runState n ≠ stRUNNING) : d.locked n = false := by simp [locked, h]

/-! ### Writes of DSTORE -/

theorem dstoreWrite_locked (cl crs w v : Nat) (h : d.locked n = true) :
    d.dstoreWrite n cl crs w v = d.wb (Reg.CLUS.DSSTAT.of n [cl]) 0 true := by
  simp [dstoreWrite, h]

theorem dstoreWrite_unlocked (cl crs w v : Nat) (h : d.locked n = false) :
    d.dstoreWrite n cl crs w v = (d.settle n).setWord n cl crs w
      (if d.fb (Reg.CLUS.DSCTL.of n [cl]) 0 then mkWord (bits v 11 0) (bits v 14 14) (bits v 15 15) ^^^ 0x1000
        else mkWord (bits v 11 0) (bits v 14 14) (bits v 15 15)) := by
  simp [dstoreWrite, h]

/-! ### Reads of DSTORE -/

/-- A tap of cluster c falls in the step that section n executes: RUNNING, not in a hold, not in the drain, with a probe of the cluster at the step
whose stage is not suppressed (R278, R279). -/
def TapFalls (c : Nat) : Prop :=
  d.runState n = stRUNNING ∧ d.holding n = false ∧ d.getSec n (some 0) (fun x => x.run.drain) = none ∧
    ∃ i < min 512 (d.nProbe n), bits (d.rd (Reg.CAPT.PROBE.of n [i])) 8 0 = d.posStep n ∧ bits (d.rd (Reg.CAPT.PROBE.of n [i])) 29 26 = c ∧
      d.suppressed n (bits (d.rd (Reg.CAPT.PROBE.of n [i])) 30 30) = false

theorem tapAt_iff (c k : Nat) (sup : Nat → Bool) :
    d.tapAt n c k sup = true ↔ ∃ i < min 512 (d.nProbe n), bits (d.rd (Reg.CAPT.PROBE.of n [i])) 8 0 = k ∧
      bits (d.rd (Reg.CAPT.PROBE.of n [i])) 29 26 = c ∧ sup (bits (d.rd (Reg.CAPT.PROBE.of n [i])) 30 30) = false := by
  simp only [tapAt, List.any_eq_true, List.mem_range, Bool.and_eq_true, beq_iff_eq, Bool.not_eq_true', and_assoc]

/-- The model's test of the tap port is `TapFalls`. -/
theorem tapBusy_iff (c : Nat) : d.tapBusy n c = true ↔ d.TapFalls n c := by
  simp only [tapBusy, TapFalls, Bool.and_eq_true, running, beq_iff_eq, Bool.not_eq_true', tapAt_iff,
    getSec_isNone d n 0 (fun x => x.run.drain), and_assoc]

theorem tapBusy_eq_false {c : Nat} (h : ¬d.TapFalls n c) : d.tapBusy n c = false :=
  Bool.eq_false_iff.mpr (fun hb => h ((d.tapBusy_iff n c).mp hb))

/-- The device once a read of a whole DSTORE word is answered from `e`, with the writes of its steps so far in place (R79, R97). -/
def answerWord (e : Dev) (cl crs w : Nat) : Dev := { d with
  rdata := (toBytes 4 ((e.settle n).word n cl crs w).toNat).map (BitVec.ofNat 8)
  rstat := 0 }

theorem tapBytes_word (cl crs w : Nat) :
    d.tapBytes n ⟨cl, crs, w, 0, 4⟩ = (toBytes 4 ((d.settle n).word n cl crs w).toNat).map (BitVec.ofNat 8) := by
  have hlt : ((d.settle n).word n cl crs w).toNat < 2 ^ 32 := lt_trans (BitVec.isLt _) (by decide)
  simp only [tapBytes, dstoreRead, Nat.mul_zero, Nat.pow_zero, Nat.div_one, Nat.reduceMul, Nat.mod_eq_of_lt hlt]

theorem dstoreTap_busy (r : TapRead) (h : d.TapFalls n r.cl) :
    d.dstoreTap n r = d.run n (fun x => { x with reads := x.reads ++ [r] }) := by
  simp only [dstoreTap, (d.tapBusy_iff n r.cl).mpr h, if_true]

theorem dstoreTap_free (cl crs w : Nat) (h : ¬d.TapFalls n cl) : d.dstoreTap n ⟨cl, crs, w, 0, 4⟩ = d.answerWord n d cl crs w := by
  simp [dstoreTap, answerWord, tapBytes_word, d.tapBusy_eq_false n h]

/-- The one read that waits goes on waiting while its tap port is taken. -/
theorem serveReads_busy (r : TapRead) (hr : d.getSec n [] (fun x => x.run.reads) = [r]) (h : d.TapFalls n r.cl) : d.serveReads n = d := by
  simp [serveReads, hr, (d.tapBusy_iff n r.cl).mpr h]

/-- The one read that waits is answered when its tap port is free, and waits no longer. -/
theorem serveReads_free (cl crs w : Nat) (hr : d.getSec n [] (fun x => x.run.reads) = [⟨cl, crs, w, 0, 4⟩]) (h : ¬d.TapFalls n cl) :
    d.serveReads n = (d.run n (fun x => { x with reads := [] })).answerWord n d cl crs w := by
  have hb := d.tapBusy_eq_false n h
  have hrun : d.run n (fun x => { x with reads := x.reads.filter (fun r => d.tapBusy n r.cl) }) = d.run n (fun x => { x with reads := [] }) := by
    refine d.run_congr n (fun x hx => ?_)
    have hreads : x.run.reads = [⟨cl, crs, w, 0, 4⟩] := by simpa [getSec, hx] using hr
    simp [hreads, hb]
  simp [serveReads, answerWord, tapBytes_word, hr, hb, hrun]

/-! ### The CODE window -/

/-- The offset of word `pos` of a slot of the instruction area names the slot's course, BP and address (R69). -/
theorem codeSlot_word {slot pos : Nat} (hs : slot < 393216) (hp : pos < 4) :
    codeSlot (16 * slot + 4 * pos) = some (slot / 512 / 12, slot / 512 % 12, slot % 512, pos) := by
  have hin : 16 * slot + 4 * pos < 0x600000 := by omega
  have hdiv : (16 * slot + 4 * pos) / 16 = slot := by omega
  have hmod : (16 * slot + 4 * pos) % 16 / 4 = pos := by omega
  simp only [codeSlot, if_pos hin, hdiv, hmod]

/-- A half that is staged for the instruction `key`, or else the word `z` (R70). -/
def stagedOr (key : Nat) (st : Option (Nat × BitVec 32)) (z : Nat) : Nat :=
  match st with
  | some (k, y) => if k = key then y.toNat else z
  | none => z

/-- The key of the instruction that a slot of the CODE window shows, in the cluster that CODE.SEL selects. -/
def slotKey (slot : Nat) : Nat := codeKey (d.fd (Reg.CODE.SEL.of n) 3 0) (slot / 512 / 12) (slot / 512 % 12) (slot % 512)

/-- The instruction it shows. -/
def slotCode (slot : Nat) : Nat := d.code n (d.fd (Reg.CODE.SEL.of n) 3 0) (slot / 512 / 12) (slot / 512 % 12) (slot % 512)

section

variable {slot : Nat} (hs : slot < 393216)
include hs

theorem codeWrite_locked {pos : Nat} (hp : pos < 4) (v : Nat) (h : d.locked n = true) :
    d.codeWrite n (16 * slot + 4 * pos) v = d.wb (Reg.CODE.STAT.of n) 1 true := by
  simp only [codeWrite, codeSlot_word hs hp, h, if_true]

theorem codeWrite_low (v : BitVec 32) (h : d.locked n = false) :
    d.codeWrite n (16 * slot + 4 * 0) v.toNat = d.fab n (fun f => { f with codeLo := some (d.slotKey n slot, v) }) := by
  simp only [codeWrite, codeSlot_word hs (show 0 < 4 by decide), h, BitVec.ofNat_toNat, BitVec.setWidth_eq]
  rfl

theorem codeWrite_mid (v : BitVec 32) (h : d.locked n = false) :
    d.codeWrite n (16 * slot + 4 * 1) v.toNat = d.fab n (fun f => { f with codeMid := some (d.slotKey n slot, v) }) := by
  simp only [codeWrite, codeSlot_word hs (show 1 < 4 by decide), h, BitVec.ofNat_toNat, BitVec.setWidth_eq]
  rfl

theorem codeWrite_high (v : BitVec 32) (h : d.locked n = false) :
    d.codeWrite n (16 * slot + 4 * 2) v.toNat = d.fab n (fun f => { f with
      code := f.code.set (d.slotKey n slot) (BitVec.ofNat 96 (v.toNat * 2 ^ 64 +
        stagedOr (d.slotKey n slot) f.codeMid (d.slotCode n slot / 2 ^ 32 % 2 ^ 32) * 2 ^ 32 +
        stagedOr (d.slotKey n slot) f.codeLo (d.slotCode n slot % 2 ^ 32)))
      codeLo := none
      codeMid := none }) := by
  simp only [codeWrite, codeSlot_word hs (show 2 < 4 by decide), h, Nat.mod_eq_of_lt v.isLt]
  rfl

end

end Dev

/-! ### The commands -/

/-- A command that runs to a device runs to whatever equals it. -/
theorem Runs.of_eq {c : Instr} {s : State} {d e : Dev} (h : Runs c s d) (he : d = e) : Runs c s e := he ▸ h

section

variable {s : State} {n : Fin 8} (hup : s.upIn n)
include hup

theorem runs_dstoreWrite (cl : Fin 16) (crs : Fin 64) (w : Fin 1024) (v : BitVec 32) :
    Runs (.dstoreWrite n cl crs w v) s (s.dev.dstoreWrite n cl crs w v.toNat) :=
  State.sect_up hup

theorem runs_dstoreRead (cl : Fin 16) (crs : Fin 64) (w : Fin 1024) :
    Runs (.dstoreRead n cl crs w) s (s.dev.dstoreTap n ⟨cl, crs, w, 0, 4⟩) :=
  State.sect_up hup

theorem runs_codeWordStage (pos : Fin 2) (slot : Fin 393216) (v : BitVec 32) :
    Runs (.codeWordStage n pos slot v) s (s.dev.codeWrite n (16 * slot.val + 4 * pos.val) v.toNat) :=
  State.sect_up hup

theorem runs_codeInstructionStore (slot : Fin 393216) (v : BitVec 32) :
    Runs (.codeInstructionStore n slot v) s (s.dev.codeWrite n (16 * slot.val + 4 * 2) v.toNat) :=
  State.sect_up hup

end

/-- Settles O20: each command is its window's operation on the section, and the operation's lemmas give its cases: locked or not for a write, the tap
port taken or free for a read. -/
theorem storeWindows : Obligations.StoreWindows := by
  intro s n cl crs w v slot hup
  have hs := slot.isLt
  have hlock := s.dev.locked_of_running n
  have hopen := s.dev.locked_of_not_running n
  refine ⟨fun hrun => ?storeLocked, fun hrun => ?storeOpen,
    ⟨fun hfree => ?readNow, fun htap => ?readWaits, fun d hd => ⟨fun htap => ?servedLater, fun hfree => ?served⟩⟩,
    fun hrun => ⟨fun pos => ?stageLocked, ?codeLocked⟩, fun hrun => ⟨?stageLow, ?stageMid, ?codeOpen⟩⟩
  case storeLocked => exact (runs_dstoreWrite hup cl crs w v).of_eq (s.dev.dstoreWrite_locked n cl crs w _ (hlock hrun))
  case storeOpen => exact (runs_dstoreWrite hup cl crs w v).of_eq (s.dev.dstoreWrite_unlocked n cl crs w _ (hopen hrun))
  case readNow => exact (runs_dstoreRead hup cl crs w).of_eq (s.dev.dstoreTap_free n cl crs w hfree)
  case readWaits => exact (runs_dstoreRead hup cl crs w).of_eq (s.dev.dstoreTap_busy n _ htap)
  case servedLater => exact d.serveReads_busy n _ hd htap
  case served => exact d.serveReads_free n cl crs w hd hfree
  case stageLocked => exact (runs_codeWordStage hup pos slot v).of_eq (s.dev.codeWrite_locked n hs (by omega) _ (hlock hrun))
  case codeLocked => exact (runs_codeInstructionStore hup slot v).of_eq (s.dev.codeWrite_locked n hs (by decide) _ (hlock hrun))
  case stageLow => exact (runs_codeWordStage hup 0 slot v).of_eq (s.dev.codeWrite_low n hs v (hopen hrun))
  case stageMid => exact (runs_codeWordStage hup 1 slot v).of_eq (s.dev.codeWrite_mid n hs v (hopen hrun))
  case codeOpen => exact (runs_codeInstructionStore hup slot v).of_eq (s.dev.codeWrite_high n hs v (hopen hrun))

end Sys2Proof.Machine

/-! ## Calls: the entry that prefetch takes (R255) -/

namespace Sys2Proof.Machine

/-! ### First in order -/

/-- In an ordered list split at b, a member stands before b, is b, or comes after b in the order. -/
theorem mem_split_of_pairwise {α : Type} {R : α → α → Prop} {before after : List α} {b y : α}
    (hord : (before ++ b :: after).Pairwise R) (hy : y ∈ before ++ b :: after) : y ∈ before ∨ y = b ∨ R b y := by
  obtain ⟨-, htail, -⟩ := List.pairwise_append.mp hord
  rcases List.mem_append.mp hy with hy | hy
  · exact .inl hy
  · exact .inr ((List.mem_cons.mp hy).imp_right (List.rel_of_pairwise_cons htail))

/-- In a list in post order, the first entry with a property was posted no later than any other that has it. -/
theorem seq_le_of_find?_eq_some {es : List CallEnt} {p : CallEnt → Bool} {e y : CallEnt}
    (hord : es.Pairwise (fun a b => a.seq < b.seq)) (hfind : es.find? p = some e) (hy : y ∈ es) (hp : p y = true) : e.seq ≤ y.seq := by
  obtain ⟨-, before, after, rfl, hbefore⟩ := List.find?_eq_some_iff_append.mp hfind
  rcases mem_split_of_pairwise hord hy with hy | rfl | hlt
  · exact absurd hp (by simpa using hbefore y hy)
  · exact le_rfl
  · exact hlt.le

/-! ### The highest level -/

/-- The first entry of the highest of the four levels at which a list holds an entry. -/
def firstOfHighest (es : List CallEnt) : Option CallEnt := [3, 2, 1, 0].findSome? (fun l => es.find? (fun e => e.level == l))

theorem find?_own_level_ne_none {es : List CallEnt} {y : CallEnt} (hy : y ∈ es) : es.find? (fun e => e.level == y.level) ≠ none :=
  fun h => List.find?_eq_none.mp h y hy (beq_self_eq_true y.level)

theorem mem_levels {l : Nat} (h : l < 4) : l ∈ [3, 2, 1, 0] := by
  simp only [List.mem_cons, List.not_mem_nil, or_false]
  omega

theorem firstOfHighest_eq_none_iff {es : List CallEnt} (hlev : ∀ y ∈ es, y.level < 4) : firstOfHighest es = none ↔ es = [] := by
  refine ⟨fun h => List.eq_nil_iff_forall_not_mem.mpr fun y hy => ?_, fun h => by simp [firstOfHighest, h]⟩
  exact find?_own_level_ne_none hy (List.findSome?_eq_none_iff.mp h y.level (mem_levels (hlev y hy)))

/-- What `firstOfHighest` finds is the first entry of its own level, and no entry stands at a higher one. -/
theorem firstOfHighest_eq_some {es : List CallEnt} {e : CallEnt} (hlev : ∀ y ∈ es, y.level < 4) (h : firstOfHighest es = some e) :
    es.find? (fun y => y.level == e.level) = some e ∧ ∀ y ∈ es, y.level ≤ e.level := by
  obtain ⟨above, l, below, hsplit, hfind, habove⟩ := List.findSome?_eq_some_iff.mp h
  obtain rfl : e.level = l := by simpa using List.find?_some hfind
  refine ⟨hfind, fun y hy => ?_⟩
  have hdesc : [3, 2, 1, 0].Pairwise (fun a b => b < a) := by decide
  rcases mem_split_of_pairwise (hsplit ▸ hdesc) (hsplit ▸ mem_levels (hlev y hy)) with hl | hl | hl
  · exact absurd (habove y.level hl) (find?_own_level_ne_none hy)
  · exact hl.le
  · exact hl.le

namespace Dev

variable (d : Dev) (n i : Nat)

/-! ### Eligible entries -/

theorem eligible_iff (c : Nat) :
    d.eligible n i c = true ↔ d.fb (Reg.CALL.CLASS.of n [c]) i = true ∧ d.fb (Reg.CALL.CORECTL.of n) i = true ∧
      d.fb (Reg.CALL.CORESTAT.of n [i]) 28 = false := by
  simp [eligible, classLoc, and_assoc]

/-- The entries of the lists that core i may take, in the order of the lists. -/
def waitingFor : List CallEnt := (d.ready n).filter (fun e => d.eligible n i e.cls)

theorem mem_waitingFor {y : CallEnt} : y ∈ d.waitingFor n i ↔ y ∈ d.ready n ∧ d.eligible n i y.cls = true := by
  simp [waitingFor]

theorem waitingFor_eq_nil_iff : d.waitingFor n i = [] ↔ ∀ y ∈ d.ready n, d.eligible n i y.cls = false := by
  simp [waitingFor]

/-! ### The best entry -/

theorem bestFor_of_urgent {e : CallEnt} (h : (d.waitingFor n i).find? (fun y => y.urgent) = some e) : d.bestFor n i = some e := by
  unfold waitingFor at h
  simp only [bestFor, h]

theorem bestFor_of_no_urgent (h : (d.waitingFor n i).find? (fun y => y.urgent) = none) :
    d.bestFor n i = firstOfHighest (d.waitingFor n i) := by
  unfold waitingFor at h ⊢
  simp only [bestFor, h, firstOfHighest]

variable {d n i}

theorem bestFor_eq_none_iff (hlev : ∀ y ∈ d.waitingFor n i, y.level < 4) : d.bestFor n i = none ↔ d.waitingFor n i = [] := by
  cases hu : (d.waitingFor n i).find? (fun y => y.urgent) with
  | some e => simp [d.bestFor_of_urgent n i hu, List.ne_nil_of_mem (List.mem_of_find?_eq_some hu)]
  | none => rw [d.bestFor_of_no_urgent n i hu, firstOfHighest_eq_none_iff hlev]

/-- The best entry is the first urgent one, or, where none is urgent, the first of the highest level. -/
theorem bestFor_eq_some {e : CallEnt} (hlev : ∀ y ∈ d.waitingFor n i, y.level < 4) (h : d.bestFor n i = some e) :
    (d.waitingFor n i).find? (fun y => y.urgent) = some e ∨
    (∀ y ∈ d.waitingFor n i, y.urgent = false) ∧
      (d.waitingFor n i).find? (fun y => y.level == e.level) = some e ∧ ∀ y ∈ d.waitingFor n i, y.level ≤ e.level := by
  cases hu : (d.waitingFor n i).find? (fun y => y.urgent) with
  | some x => exact .inl ((d.bestFor_of_urgent n i hu).symm.trans h)
  | none =>
    rw [d.bestFor_of_no_urgent n i hu] at h
    exact .inr ⟨fun y hy => by simpa using List.find?_eq_none.mp hu y hy, firstOfHighest_eq_some hlev h⟩

theorem bestFor_mem {e : CallEnt} (hlev : ∀ y ∈ d.waitingFor n i, y.level < 4) (h : d.bestFor n i = some e) : e ∈ d.waitingFor n i := by
  rcases bestFor_eq_some hlev h with hfind | ⟨-, hfind, -⟩ <;> exact List.mem_of_find?_eq_some hfind

/-- Lists in post order: the best entry precedes every urgent one, and is urgent where there is one; otherwise it precedes all of its level, the highest. -/
theorem bestFor_first {e y : CallEnt} (hlev : ∀ y ∈ d.waitingFor n i, y.level < 4)
    (hord : (d.waitingFor n i).Pairwise (fun a b => a.seq < b.seq)) (h : d.bestFor n i = some e) (hy : y ∈ d.waitingFor n i) :
    (y.urgent = true → e.urgent = true ∧ e.seq ≤ y.seq) ∧ (e.urgent = false → y.level ≤ e.level ∧ (y.level = e.level → e.seq ≤ y.seq)) := by
  rcases bestFor_eq_some hlev h with hfind | ⟨hnone, hfind, hhigh⟩
  · have he : e.urgent = true := List.find?_some hfind
    exact ⟨fun hu => ⟨he, seq_le_of_find?_eq_some hord hfind hy hu⟩, fun hn => absurd he (by simp [hn])⟩
  · exact ⟨fun hu => absurd hu (by simp [hnone y hy]),
      fun _ => ⟨hhigh y hy, fun hl => seq_le_of_find?_eq_some hord hfind hy (by simpa using hl)⟩⟩

end Dev

/-- Settles O28: the entries that wait for the core are a sublist of the lists, so they keep their levels and post order; the best of them is the first
urgent one or else the first of the highest level. -/
theorem bestEntryIsBest : Obligations.BestEntryIsBest := by
  intro d n i hlevel hpost
  have hlev : ∀ y ∈ d.waitingFor n i, y.level < 4 := fun y hy => hlevel y ((d.mem_waitingFor n i).mp hy).1
  have hord : (d.waitingFor n i).Pairwise (fun a b => a.seq < b.seq) := hpost.filter _
  refine ⟨d.eligible_iff n i, (Dev.bestFor_eq_none_iff hlev).trans (d.waitingFor_eq_nil_iff n i), fun e he => ?_⟩
  obtain ⟨hmem, helig⟩ := (d.mem_waitingFor n i).mp (Dev.bestFor_mem hlev he)
  exact ⟨hmem, helig, fun y hy hel => Dev.bestFor_first hlev hord he ((d.mem_waitingFor n i).mpr ⟨hy, hel⟩)⟩

end Sys2Proof.Machine
